-- ==== Sys2Proof/Word.lean ====
section
/-! DEFINITION. The words of the machine and a bit field of a register. -/

namespace Sys2Proof

abbrev Byte := BitVec 8
/-- A register word, an X register, a supervisor register. -/
abbrev Word := BitVec 32
/-- A loop-engine data word, D register, loop output or state word. -/
abbrev D24 := BitVec 24
/-- A towpath flit's data bits, a 64-bit count. -/
abbrev W64 := BitVec 64

/-- A bit field of a register, its highest and its lowest bit. -/
structure Fld where
  hi : Nat
  lo : Nat
  deriving DecidableEq, Repr

end Sys2Proof
end

