-- ==== Sys2Proof/Syntax.lean ====
section
/-! DEFINITION. The commands of the block, one constructor per row of the table of operations and events, and the types of
their operands. -/

namespace Sys2Proof

/-! ## Operand types -/

/-- Initiators of register and memory accesses (R10), in the order of R553. -/
inductive Initiator where
  | sv0 | sv1 | sc | wharf | towline | jtag
  deriving DecidableEq, Repr

/-- A core that runs Hermisil: loop engine LE_n or supervisor pair SV_p. -/
inductive Core where
  | le (n : Fin 12)
  | sv (p : Fin 2)
  deriving DecidableEq, Repr

/-- Fault classes (R331). -/
inductive FClass where
  | corrected | contained | fatal
  deriving DecidableEq, Repr

/-- Reactions (R333). -/
inductive React where
  | log | axstop | safepwm | sstop | hwsafe
  deriving DecidableEq, Repr

/-- What a unit reports to the collector (R335): source ID, class, reaction, data word and the axes the reaction names.
`cond` is the number of the condition that stays active until its unit reports it ceased (R339), none for a report whose
condition has ceased with it. -/
structure Report where
  src   : Nat
  cls   : FClass
  react : React := .log
  data  : Word := 0
  axes  : List Nat := []
  cond  : Option Nat := none
  deriving DecidableEq, Repr

/-- Islands of the control die (R23 ff.). -/
inductive Island where
  | le (n : Fin 12) | sv (p : Fin 2) | sc | tp | nw | aq | cn | hb | ps | en (g : Fin 6)
  deriving DecidableEq, Repr

/-- Direction of a die-link frame. -/
inductive LinkDir where
  | up | down
  deriving DecidableEq, Repr

/-- A die-link frame (R19): its bytes from the header to the CRC, and the flits it carries, each a destination tag and a
24-bit value (the layout of the payload is not given). -/
structure LinkFrame where
  bytes : List Byte
  words : List (Nat × D24) := []
  deriving DecidableEq, Repr

/-- The two towpath planes (R28). -/
inductive Plane where
  | a | b
  deriving DecidableEq, Repr

/-- A serial encoder frame as the port samples it (R289, R290): its data bits as a number, first bit highest, the sensor's ERR and
WRN, the check bits received, whether the line was high at the first falling clock edge, and whether the preamble came in time. -/
structure SerialFrame where
  data     : BitVec 48
  err      : Bool := false
  wrn      : Bool := false
  check    : BitVec 8 := 0
  idle     : Bool := true
  preamble : Bool := true
  deriving DecidableEq, Repr

/-- The conditions a port finds on its pairs and Hall inputs (R295). -/
inductive CableCond where
  | loss | eq | cm | hill | illegal | serial
  deriving DecidableEq, Repr

/-- A delay line (R326): one per trigger output, emulated encoder, latch input and encoder port. -/
inductive DelayLine where
  | trg (n : Fin 16) | emu (e : Fin 8) | lat (n : Fin 16) | enc (n : Fin 48)
  deriving DecidableEq, Repr

/-- How a source's stream reaches port 30 in a flight (R302; the routing is Fitupel's): the source, and where its values lie among
those the port received, each as 256 × destination tag + place. A local source has P, VT and the timing status; a remote slot P,
V with A, and FX. -/
structure PsRoute where
  src : Fin 64
  p   : Nat
  v   : Nat
  t   : Nat
  deriving DecidableEq, Repr

/-- The edges of a carrier period (R142): LO off, HO on, HO off, LO on. -/
inductive EdgeKind where
  | rise | hoOn | fall | loOn
  deriving DecidableEq, Repr

/-- What a burst converts (R161, R177 to R181, R263): per slot the conversion codes, or the decimator sum in external mode; the
VBUS code; per slot the phase-node codes converted since the last burst, latest last; the decimator sum of the bus-voltage bitstream. -/
structure BurstCodes where
  slots : List (List Int)
  vbus  : BitVec 12 := 0
  phv   : List (List Int) := []
  vbusSum : Int := 0
  deriving DecidableEq, Repr

/-- A PTP Sync as a port receives it (R432, R444, R445): its ingress stamp in line time, originTimestamp in ns, correctionField in
2^−16 ns, the grandmaster it comes from, its domain, the cumulative scaled rate offset it carries (2^−41), and the egress stamp
of its copy on the other port. -/
structure PtpSync where
  stamp  : W64
  origin : Nat
  corr   : BitVec 64
  gm     : BitVec 64
  domain : BitVec 8
  csro   : BitVec 32 := 0
  egress : W64 := 0
  deriving DecidableEq, Repr

/-- An Announce (R443): priority1, clock quality (class, accuracy, variance), priority2, grandmaster identity, stepsRemoved,
sender's port identity. -/
structure Announce where
  domain  : BitVec 8
  prio1   : BitVec 8
  quality : BitVec 32
  prio2   : BitVec 8
  gm      : BitVec 64
  steps   : BitVec 16
  sender  : BitVec 80
  deriving DecidableEq, Repr

/-- An Ethernet frame (R439 to R441): addresses, sequence number of the HSR tag, EtherType after the tag, payload after the
EtherType, whether the FCS is right. -/
structure EthFrame where
  dst   : BitVec 48
  src   : BitVec 48
  hsr   : Option (BitVec 16) := none
  etype : BitVec 16
  data  : List Byte
  fcsOk : Bool := true
  deriving DecidableEq, Repr

/-- The header of a Towline frame beyond its TYPE (R449), and whether it reached the module's own unicast MAC address. -/
structure TlHdr where
  src     : BitVec 16
  dst     : BitVec 16
  seq     : BitVec 16
  unicast : Bool := true
  deriving DecidableEq, Repr

/-- An axis object of a cyclic frame (R451). -/
structure TlObj where
  axis : BitVec 20
  kind : BitVec 8 := 0
  p    : W64
  v    : Word
  a    : Word
  deriving DecidableEq, Repr

/-- A CAN frame (R457, R462): identifier with IDE and RTR, FD format, BRS, ESI, DLC and data bytes. -/
structure CanFrame where
  id  : BitVec 29
  ide : Bool
  rtr : Bool := false
  fdf : Bool := true
  brs : Bool := false
  esi : Bool := false
  dlc : Fin 16
  data : List Byte
  deriving DecidableEq, Repr

/-! ## Commands -/

/-- The commands of the block: one constructor per row of the table, in its order. -/
inductive Instr where
  | cpValueWrite (i : Initiator) (addr : Nat) (w : Word)
  | cpComplementWrite (i : Initiator) (addr : Nat) (w : Word)
  | cpArmTimeout (i : Initiator) (addr : Nat)
  | cpRead (i : Initiator) (addr : Nat) (complement : Bool)
  | absentBlockAccess (i : Initiator) (addr : Nat) (write : Option Word)
  | registerWrite (i : Initiator) (addr : Nat) (size : Nat) (w : Word)
  | dieLinkFrame (d : Fin 12) (dir : LinkDir) (f : LinkFrame)
  | dieLinkRetry (d : Fin 12) (dir : LinkDir) (f : LinkFrame) (fits : Bool)
  | clLimitReached (n : Fin 48) (lostBurst : Bool)
  | loopSupervisionLimit (n : Fin 48) (which : Fin 4)
  | dieLinkLaneLoss (d : Fin 12) (lane : Fin 2)
  | dieLinkKeepalive (d : Fin 12)
  | dieLinkSilent (d : Fin 12)
  | islandClockStop (isl : Island) (halt : Bool)
  | towpathFlitReceive (r : Nat) (plane : Plane) (crcOk : Bool) (flit : W64)
  | replicaForward (lockId : Nat)
  | creditReturn (p : Fin 48) (vc : Fin 4)
  | reservationOpen (r : Nat)
  | reservationSpanEnd (r : Nat)
  | flightBoundary
  | lockStart (e : Fin 12) (l : Nat)
  | lockCutOff (e : Fin 12) (ecc : Bool)
  | engineLockstepMismatch (e : Fin 12)
  | debugEventTaken (e : Fin 12)
  | haltReq (e : Fin 12)
  | resumeFromHalt (e : Fin 12)
  | singleStep (e : Fin 12)
  | illegalInstruction (c : Core) (w : Word)
  | nop (c : Core)
  | add (c : Core) (rd ra rb : Fin 16)
  | sub (c : Core) (rd ra rb : Fin 16)
  | and (c : Core) (rd ra rb : Fin 16)
  | or (c : Core) (rd ra rb : Fin 16)
  | xor (c : Core) (rd ra rb : Fin 16)
  | shl (c : Core) (rd ra rb : Fin 16)
  | shr (c : Core) (rd ra rb : Fin 16)
  | asr (c : Core) (rd ra rb : Fin 16)
  | mul (c : Core) (rd ra rb : Fin 16)
  | cmp (c : Core) (ra rb : Fin 16)
  | shli (c : Core) (rd ra : Fin 16) (sh : Fin 32)
  | shri (c : Core) (rd ra : Fin 16) (sh : Fin 32)
  | asri (c : Core) (rd ra : Fin 16) (sh : Fin 32)
  | addi (c : Core) (rd ra : Fin 16) (imm : BitVec 18)
  | li (c : Core) (rd : Fin 16) (imm : BitVec 18)
  | lui (c : Core) (rd : Fin 16) (imm : BitVec 18)
  | addD (e : Fin 12) (rd ra rb : Fin 16)
  | subD (e : Fin 12) (rd ra rb : Fin 16)
  | addS (e : Fin 12) (rd ra rb : Fin 16)
  | subS (e : Fin 12) (rd ra rb : Fin 16)
  | neg (e : Fin 12) (rd ra : Fin 16)
  | abs (e : Fin 12) (rd ra : Fin 16)
  | min (e : Fin 12) (rd ra rb : Fin 16)
  | max (e : Fin 12) (rd ra rb : Fin 16)
  | clamp (e : Fin 12) (rd ra rb rc : Fin 16)
  | cmpD (e : Fin 12) (ra rb : Fin 16)
  | asriD (e : Fin 12) (rd ra : Fin 16) (sh : Fin 32)
  | shliS (e : Fin 12) (rd ra : Fin 16) (sh : Fin 32)
  | andD (e : Fin 12) (rd ra rb : Fin 16)
  | orD (e : Fin 12) (rd ra rb : Fin 16)
  | xorD (e : Fin 12) (rd ra rb : Fin 16)
  | lid (e : Fin 12) (rd : Fin 16) (imm : BitVec 18)
  | move (e : Fin 12) (rd ra : Fin 16) (dst src : Fin 16)
  | mva (e : Fin 12) (rd ra : Fin 16) (sat : Bool) (k : Fin 16)
  | clr (e : Fin 12) (rd : Fin 16)
  | lda (e : Fin 12) (rd ra : Fin 16)
  | adda (e : Fin 12) (rd ra rb : Fin 16)
  | suba (e : Fin 12) (rd ra rb : Fin 16)
  | sha (e : Fin 12) (rd ra : Fin 16) (sh : BitVec 6)
  | sat (e : Fin 12) (rd ra : Fin 16)
  | nega (e : Fin 12) (rd ra : Fin 16)
  | mac (e : Fin 12) (aa : Fin 4) (dm dn : Fin 16) (m1 m2 : Byte)
  | msu (e : Fin 12) (aa : Fin 4) (dm dn : Fin 16) (m1 m2 : Byte)
  | mpy (e : Fin 12) (aa : Fin 4) (dm dn : Fin 16) (m1 m2 : Byte)
  | mac2 (e : Fin 12) (aa : Fin 4) (dm dn : Fin 16) (m1 m2 : Byte)
  | tap (e : Fin 12) (aa : Fin 4) (pi pj : Fin 8)
  | minsel (e : Fin 12) (rd xr : Fin 16) (pi : Fin 8) (n1 : Fin 16)
  | div (e : Fin 12) (rd ra rb : Fin 16)
  | nrecip (e : Fin 12) (rd ra rb : Fin 16)
  | sqrt (e : Fin 12) (rd ra : Fin 16)
  | sincos (e : Fin 12) (rd ra : Fin 16)
  | clarke (e : Fin 12) (rd ra rb rc : Fin 16) (three : Bool)
  | park (e : Fin 12) (rd ra rb : Fin 16)
  | ipark (e : Fin 12) (rd ra rb : Fin 16)
  | svm (e : Fin 12) (rd ra : Fin 16)
  | perr (e : Fin 12) (rd ra rb : Fin 16) (k : Fin 32)
  | add64 (e : Fin 12) (rd ra rb : Fin 16)
  | sub64 (e : Fin 12) (rd ra rb : Fin 16)
  | addp (e : Fin 12) (rd : Fin 16) (imm : BitVec 14)
  | ld (e : Fin 12) (rd : Fin 16) (post : Bool) (pi : Fin 8) (imm : BitVec 14)
  | st (e : Fin 12) (rd : Fin 16) (post : Bool) (pi : Fin 8) (imm : BitVec 14)
  | ldx (e : Fin 12) (rd : Fin 16) (post : Bool) (pi : Fin 8) (imm : BitVec 14)
  | stx (e : Fin 12) (rd : Fin 16) (post : Bool) (pi : Fin 8) (imm : BitVec 14)
  | ldt (e : Fin 12) (rd ra : Fin 16) (entry : Byte)
  | ldtw (e : Fin 12) (rd ra : Fin 16) (entry : Byte)
  | ldtv (e : Fin 12) (rd : Fin 16) (g : Fin 8)
  | stt (e : Fin 12) (rd : Fin 16)
  | sttw (e : Fin 12) (rd : Fin 16)
  | brc (c : Core) (cond : Fin 16) (off : BitVec 22)
  | call (c : Core) (off : BitVec 22)
  | ret (c : Core) (ra : Fin 16)
  | rep (e : Fin 12) (xc : Bool) (xs : Fin 16) (count : BitVec 12)
  | rpb (e : Fin 12) (xc : Bool) (xs : Fin 16) (count : BitVec 12) (len : BitVec 9)
  | leave (e : Fin 12)
  | commit (e : Fin 12)
  | endLock (e : Fin 12)
  | bkpt (e : Fin 12)
  | ttRun (i : Initiator) (w : Word)
  | ttLoad (i : Initiator) (w : Word)
  | ttLoadComplete
  | tcopy (i : Initiator) (w : Word)
  | tcopyDone
  | ttTwrData (i : Initiator) (w : Word)
  | twrAck
  | swapArm (i : Initiator) (voyage : Bool)
  | swapCancel (i : Initiator) (voyage : Bool)
  | ttAltForce (i : Initiator) (alt : Fin 16)
  | slackRead (i : Initiator) (e : Fin 12)
  | pwmEnSet (n : Fin 48) (w : Word)
  | pwmEnClear (n : Fin 48) (w : Word)
  | safeReqSet (n : Fin 48) (w : Word)
  | safeReqClear (n : Fin 48) (w : Word)
  | updatePoint (n : Fin 48) (peak : Bool) (iA iB : Int)
  | burst (n : Fin 48) (late : Bool) (b : BurstCodes)
  | scTrip (n : Fin 48) (snp snn : List Int)
  | scLatchClear (n : Fin 48) (w : Word)
  | sddGds (i : Initiator) (d : Fin 12) (w : Word)
  | vgdUvlo (d : Fin 12) (mv : BitVec 16)
  | regOl (d : Fin 12)
  | prechargeEnd (n : Fin 48) (bst : List Nat)
  | bootstrapUvlo (n : Fin 48) (k : Fin 4) (bst : Nat)
  | calStart (n : Fin 48) (w : Word)
  | calDecayEnd (n : Fin 48)
  | calMeasureEnd (n : Fin 48) (sums : List Int) (most least : Int)
  | brakeBlockEnd (n : Fin 48)
  | vbusOv (d : Fin 12) (code : BitVec 12)
  | hbrkRelSet (n : Fin 48) (w : Word)
  | hbrkRelClear (n : Fin 48) (w : Word)
  | pullInEnd (n : Fin 48)
  | stoAAssert
  | stoBAssert
  | stoRelease (a : Bool)
  | sddTempSample (d : Fin 12) (t : BitVec 16)
  | tsdTimeout (d : Fin 12)
  | chopperHi (n : Fin 48) (b : Bool)
  | chopperLo (n : Fin 48) (b : Bool)
  | chopperZero (n : Fin 48) (b : Bool)
  | tfastEnd (n : Fin 48) (b : Bool)
  | stallLimit (n : Fin 48)
  | encoderEdge (n : Fin 48) (ab : BitVec 2) (stamp : W64)
  | indexEvent (n : Fin 48)
  | hallChange (n : Fin 48) (h : BitVec 3) (stamp : W64)
  | encoderSamplingInstant (n : Fin 48)
  | serialFrameStart (n : Fin 48)
  | serialFrameEnd (n : Fin 48) (f : SerialFrame)
  | cableFault (n : Fin 48) (c : CableCond) (pairs : BitVec 3)
  | faultClear (n : Fin 48) (c : CableCond)
  | fbModeWrite (n : Fin 48) (w : Word)
  | resume (n : Fin 48) (w : Word)
  | alStart (n : Fin 48) (w : Word)
  | alGo (n : Fin 48) (w : Word)
  | alEnd (n : Fin 48) (w : Word)
  | alAbort (n : Fin 48) (w : Word)
  | alignRestEnd (n : Fin 48)
  | alignSettleEnd (n : Fin 48)
  | fbCountLo (i : Initiator) (n : Fin 48)
  | trgAppend (n : Fin 16) (w : Word)
  | trgFlush (n : Fin 16) (w : Word)
  | trgEnSet (n : Fin 16) (w : Word)
  | trgEnClear (n : Fin 16) (w : Word)
  | psyncWindowCompute (routes : List PsRoute)
  | triggerPulseStart (n : Fin 16)
  | triggerPulseEnd (n : Fin 16)
  | emuEnSet (e : Fin 8) (w : Word)
  | emuStep (e : Fin 8)
  | latchEvent (n : Fin 16) (falling : Bool) (stamp : W64)
  | latchPositionsComplete (n : Fin 16)
  | latchPop (n : Fin 16) (w : Word)
  | timResRead (i : Initiator) (m : Fin 8)
  | delayLineCalDone (failed : List DelayLine)
  | delayLineSwap (l : DelayLine) (elements : Nat)
  | faultReport (r : Report)
  | collectorCopyMismatch (tpStop : Bool)
  | fcAck (i : Initiator) (src : BitVec 16)
  | fcAckAll (i : Initiator)
  | mdTimerExpiry
  | sdTimerExpiry
  | svPairFault (p : Fin 2)
  | svRestartDone (p : Fin 2)
  | istRoundOverdue
  | safetyCycleBoundary (resA resB : Bool)
  | soloMaxExpiry (b : Bool)
  | stoDiscExpiry
  | pathReadbackTimeout (b : Bool) (d : Fin 12) (pathB reads : Bool)
  | pairDiscTimeout (b : Bool) (p : Fin 8)
  | safeRestart (i : Initiator) (w : Word)
  | safeReq (i : Initiator) (w : Word)
  | soTestPulse (b : Bool) (k : Fin 4) (shows : Bool)
  | ss1Timeout (a : Fin 16)
  | safeLoad (i : Initiator) (w : Word)
  | safeLoadDone (sdt agree : Bool)
  | safeDisarm (i : Initiator) (w : Word)
  | safeConfirm (i : Initiator) (w : Word)
  | svDiv (p : Fin 2) (rd ra rb : Fin 16)
  | divu (p : Fin 2) (rd ra rb : Fin 16)
  | rem (p : Fin 2) (rd ra rb : Fin 16)
  | remu (p : Fin 2) (rd ra rb : Fin 16)
  | fpush (p : Fin 2) (rd ra : Fin 16) (imm : BitVec 18)
  | fpop (p : Fin 2) (rd ra : Fin 16) (imm : BitVec 18)
  | fspill (p : Fin 2)
  | ffill (p : Fin 2)
  | trap (p : Fin 2) (k : Fin 16)
  | tret (p : Fin 2) (ra : Fin 16)
  | rdcr (p : Fin 2) (rd : Fin 16) (n : Byte)
  | wrcr (p : Fin 2) (rd : Fin 16) (n : Byte)
  | wait (p : Fin 2)
  | fence (p : Fin 2)
  | invalidateILine (p : Fin 2) (ra : Fin 16)
  | cleanDLine (p : Fin 2) (ra : Fin 16)
  | invalidateDLine (p : Fin 2) (ra : Fin 16)
  | cleanInvalidateDLine (p : Fin 2) (ra : Fin 16)
  | invalidateICache (p : Fin 2)
  | cleanInvalidateDCache (p : Fin 2)
  | ldw (p : Fin 2) (rd ra : Fin 16) (imm : BitVec 18)
  | ldh (p : Fin 2) (rd ra : Fin 16) (imm : BitVec 18)
  | ldhu (p : Fin 2) (rd ra : Fin 16) (imm : BitVec 18)
  | ldb (p : Fin 2) (rd ra : Fin 16) (imm : BitVec 18)
  | ldbu (p : Fin 2) (rd ra : Fin 16) (imm : BitVec 18)
  | stw (p : Fin 2) (rd ra : Fin 16) (imm : BitVec 18)
  | sth (p : Fin 2) (rd ra : Fin 16) (imm : BitVec 18)
  | stb (p : Fin 2) (rd ra : Fin 16) (imm : BitVec 18)
  | cas (p : Fin 2) (rd ra rb : Fin 16)
  | interruptTaken (p : Fin 2) (lat : Word)
  | budgetTrapTaken (p : Fin 2)
  | partitionReload (p : Fin 2)
  | partitionBudgetExhausted (p : Fin 2)
  | instructionTag (p : Fin 2) (stamps : BitVec 40) (flags : BitVec 5)
  | perfClrSv0 (i : Initiator)
  | perfClrSv1 (i : Initiator)
  | perfClrLe (i : Initiator)
  | perfClrTow (i : Initiator)
  | perfCounterLo (i : Initiator) (u : Fin 15) (e : Fin 256)
  | tagEmpty (i : Initiator) (p : Fin 2)
  | histCfgWrite (i : Initiator) (h : Fin 8) (w : Word)
  | acqLatch
  | acqStart
  | acqStop
  | acqForce
  | timeNowLo (i : Initiator)
  | timeCmpArm (k : Fin 8) (w : Word)
  | timeCmpFire (k : Fin 8)
  | timeStep (w : Word)
  | ptpSync (p : Fin 2) (f : PtpSync)
  | ptpAnnounce (p : Fin 2) (f : Announce)
  | pdelayReq (p : Fin 2) (ingress egress : W64)
  | pdelayResp (p : Fin 2) (stamp turn : W64) (nrr : Word)
  | pdelayTx (p : Fin 2) (stamp : W64)
  | gmSyncTx (p : Fin 2) (stamp : W64)
  | referenceLoss (r : Fin 3)
  | switchWindowEnd
  | holdoverLimit
  | ethFrameRx (p : Fin 2) (f : EthFrame)
  | hsrSupervisionTx
  | ringOpen
  | hsrEntryAge (mac : BitVec 48) (seq : BitVec 16)
  | ethLinkChange (p : Fin 2) (up full an : Bool)
  | gclEntryExpiry (p : Fin 2)
  | qbvChange (p : Fin 2) (w : Word)
  | lqPush (p : Fin 2) (w : Word)
  | launch (p : Fin 2)
  | launchLateDrop (p : Fin 2)
  | tlPublish (routes : List (Fin 8 × Nat))
  | tlCyclic (h : TlHdr) (fx : Word) (objs : List TlObj)
  | tlRead (h : TlHdr) (addr : Word) (count : Nat)
  | tlWrite (h : TlHdr) (addr : Word) (words : List Word)
  | tlCpWrite (h : TlHdr) (addr : Word) (words : List Word)
  | tlBarges (h : TlHdr) (entries : List (Byte × BitVec 512))
  | tlMessage (h : TlHdr) (data : List Byte)
  | tlMsgRead
  | basinSubmit (i : Initiator) (q : Fin 128)
  | submitCheckDone (i : Initiator)
  | basinReport (q : Fin 64) (r : W64)
  | dispatchBegin (k : Fin 16)
  | dispatchComplete (k : Fin 16)
  | notePop
  | queueStop (q : Fin 80)
  | stopClr (q : Fin 80)
  | queueResume (q : Fin 80)
  | canFrameRx (c : Fin 2) (f : CanFrame) (sof : W64)
  | canTxDone (c : Fin 2) (sof : W64)
  | canTxError (c : Fin 2) (lost : Bool)
  | canObjOwn (c : Fin 2) (m : Fin 128) (w : Word)
  | canAbort (c : Fin 2) (m : Fin 128)
  | recReq (c : Fin 2)
  | busOffRecovered (c : Fin 2)
  | canEnSet (c : Fin 2) (w : Word)
  | canSynced (c : Fin 2)
  | canEnClear (c : Fin 2) (w : Word)
  | canTmSend (c : Fin 2) (sof : Option W64)
  | canTmRx (c : Fin 2) (seq flags : Byte) (epoch : BitVec 16) (stamp sof : W64)
  | safeCopyRx (plane : Plane) (canId : Nat) (m : List Byte)
  | cwExpiry (r : Fin 8)
  | connectionWatchdog (r : Fin 8)
  | sdtLoad (i : Initiator) (w : Word)
  | sdtConfirm (i : Initiator) (w : Word)
  | fieldLinkDownlink (bytes : List Byte)
  | fieldLinkUplink (bytes : List Byte) (raw : Word) (lplus : BitVec 12) (vout : BitVec 4)
  | uplinkLoss
  | fsTimeout
  | diChange (i : Fin 32) (raw : List Bool)
  | counterEdge (i : Fin 8) (rise : Bool) (t : Nat)
  | freqTimeout (i : Fin 8)
  | cntClr (w : Word)
  | doWrite (w : Word)
  | doSet (w : Word)
  | doClr (w : Word)
  | doOverload (k : Fin 16) (hot : Bool)
  | doRetry (k : Fin 16) (cool : Bool)
  | doOpenWire (k : Fin 16)
  | testPulse (t : Fin 2) (off : BitVec 16)
  | lpUv (code : BitVec 12)
  | lpOv (code : BitVec 12)
  | vinOkRise (mv : BitVec 16)
  | vinWarn (mv : BitVec 16)
  | vinWarnClear (mv : BitVec 16)
  | vinUv (mv : BitVec 16)
  | vinOv (mv : BitVec 16)
  | railFail (r : Fin 6)
  | vbakLow (mv : BitVec 16)
  | bkSupplyDip (deep : Bool)
  | domainLoss (i : Fin 78)
  | pwrReq (i : Initiator) (k : Fin 3) (w : Word)
  | domainReady (i : Fin 78)
  | modeReq (i : Initiator) (m : Fin 8)
  | resetNAssert
  | resetNRelease (straps : BitVec 4)
  | wakeLand (level : Bool)
  | rtcAlarm
  | rtcHiWrite (i : Initiator) (w : Word)
  | sysRtcLo (i : Initiator)
  | wakeStepComplete (ok : Bool) (bad : List (Fin 12))
  | wakeTimeout
  | verify (i : Initiator) (w : Word)
  | verifyDone
  | reboot (i : Initiator) (w : Word)
  | norErase (i : Initiator)
  | norProgram (i : Initiator)
  | norOpDone (err : Bool)
  | keyProgram (i : Initiator) (k : Fin 4)
  | keyRevoke (i : Initiator) (k : Fin 4)
  | psWrite (i : Initiator) (w : Word)
  | psRead (i : Initiator) (w : Word)
  | psCompact (i : Initiator) (w : Word)
  | psIdent (i : Initiator) (w : Word)
  | psFiocfg (i : Initiator) (w : Word)
  | psDone
  | rdsr
  | rdid
  | wharfRead (addr : Word) (len : Nat) (late : List Nat)
  | wharfWrite (addr : Word) (words : List Word)
  | pwmEdge (n : Fin 48) (k : Fin 4) (e : EdgeKind)
  | vgdUvloRelease (d : Fin 12) (mv : BitVec 16)
  | vinOvClear (mv : BitVec 16)
  | tonMinExpiry (n : Fin 48) (b : Bool)
  | toffMinExpiry (n : Fin 48) (b : Bool)
  | gateCycleStart (p : Fin 2)
  | announceReceiptTimeout (p : Fin 2)
  deriving DecidableEq, Repr

end Sys2Proof
end

