-- ==== Sys2Proof/Decode.lean ====
section
/-! DEFINITION. The words that spell a command. The table gives no row of this block any bits (its commands are register writes,
frames and events, which no word spells), so no word spells one. -/

namespace Sys2Proof

/-- The command that a word of the table's bits spells: none, since the table gives no row bits. -/
def decodeTableWord (_nbits _w : Nat) : Option Instr := none

end Sys2Proof
end

