-- ==== Sys2Proof/Config.lean ====
section
/-! DEFINITION. What the manual leaves open: constants without a body, so that nothing can be proved about their values.
Each is named in a row of notes/assumptions. -/

namespace Sys2Proof.Config

/-- A number the manual leaves open, fresh at each use: applied to the counter `State.free`. -/
opaque freeNat : Nat → Nat

/-- Whether an ECDSA P-256 signature is valid: arguments are the hash of the signed bytes, the signature, and the hash of
the public key that names the key slot (R525, R526). -/
opaque ecdsaValid : Nat → Nat → Nat → Bool

/-- The SHA-256 of the release key that key slot 0 holds on delivery (R527; its value is not given). -/
opaque releaseKey : Nat

/-- SHA-256 of a byte string (R525): a named standard, left opaque. -/
opaque sha256 : List Byte → Nat

/-- The word of the boot ROM at a byte address (its content is not given). -/
opaque bootRom : Nat → Word

/-- The instruction word of the loop ROM at an instruction address other than the entry points (content not given, R129). -/
opaque loopRom : Nat → Word

/-- Clock class, accuracy and variance that the module announces (R443: not given by a register). -/
opaque clockQuality : BitVec 32

/-- The clock identity of a module with a MAC address (R443, IEEE 802.1AS). -/
opaque clockIdentity : BitVec 48 → BitVec 64

end Sys2Proof.Config
end

