-- ==== Sys2Proof/Machine/RegMap.lean ====
section
/-! DEFINITION. The register map: where every register lies (R551 and the register tables of the chapters), where its
fields lie, what each bit accepts (R8: RO, RW, W1C, RC, WO, CP) and what it holds at reset. -/

namespace Sys2Proof.Machine

/-- A register family of one block: the offset of its first instance, up to two strides with their counts, the number of
consecutive words of one instance, the reset value, and the bits of each access code. Bits in none of the masks are RO. -/
structure RegDef where
  off   : Nat
  s1    : Nat := 0x10000
  c1    : Nat := 1
  s2    : Nat := 0x10000
  c2    : Nat := 1
  words : Nat := 1
  reset : Nat := 0
  rw    : Nat := 0
  w1c   : Nat := 0
  rc    : Nat := 0
  wo    : Nat := 0
  cp    : Nat := 0
  isCp  : Bool := false
  deriving DecidableEq, Repr

/-- The byte offset `o` belongs to an instance of the family. -/
def RegDef.covers (d : RegDef) (o : Nat) : Bool :=
  d.off ≤ o && (o - d.off) / d.s1 < d.c1 && (o - d.off) % d.s1 / d.s2 < d.c2 && (o - d.off) % d.s1 % d.s2 < 4 * d.words

namespace Reg

/-! ### SYS -/
abbrev SYS_ID : Nat := 0x40000000
abbrev SYS_ADDR : Nat := 0x40000010
abbrev SYS_MODE : Nat := 0x40000020
abbrev SYS_MODE_REQ : Nat := 0x40000024
abbrev SYS_WAKE : Nat := 0x40000030
abbrev SYS_VIN_CFG : Nat := 0x40000040
abbrev SYS_VIN_STAT : Nat := 0x40000044
abbrev SYS_RAIL_STAT : Nat := 0x40000050
abbrev SYS_PWR_STAT (w : Nat) : Nat := 0x40000060 + w * 0x4
abbrev SYS_PWR_REQ (w : Nat) : Nat := 0x40000070 + w * 0x8
abbrev SYS_PWR_CODE : Nat := 0x40000088
abbrev SYS_BK_STAT : Nat := 0x40000090
abbrev SYS_BK_CFG : Nat := 0x40000094
abbrev SYS_RTC_LO : Nat := 0x40000098
abbrev SYS_RTC_HI : Nat := 0x4000009C
abbrev SYS_RTC_ALARM : Nat := 0x400000A0
abbrev SYS_BK_RETAIN_LO : Nat := 0x400000B0
abbrev SYS_BK_RETAIN_HI : Nat := 0x400000B4

/-! ### FC -/
abbrev FC_STAT : Nat := 0x40010000
abbrev FC_FIRST : Nat := 0x40010004
abbrev FC_FIRST_DATA : Nat := 0x40010008
abbrev FC_FIRST_TLO : Nat := 0x4001000C
abbrev FC_FIRST_THI : Nat := 0x40010010
abbrev FC_HIST_CTRL : Nat := 0x40010014
abbrev FC_ACK : Nat := 0x40010020
abbrev FC_ACKSTAT : Nat := 0x40010028
abbrev FC_COUNT : Nat := 0x40010030
abbrev FC_DEG : Nat := 0x40010040
abbrev FC_DEG_STAT : Nat := 0x40010048
abbrev FC_LOST : Nat := 0x40010050
abbrev FC_IST : Nat := 0x40010054
abbrev FC_HIST (i : Nat) : Nat := 0x40010100 + i * 0x10

/-! ### TT -/
abbrev TT_CTRL : Nat := 0x40020000
abbrev TT_STATUS : Nat := 0x40020004
abbrev TT_CAPS : Nat := 0x40020008
abbrev TT_IMG_ADDR : Nat := 0x4002000C
abbrev TT_FLIGHT : Nat := 0x40020010
abbrev TT_VOYAGE : Nat := 0x40020014
abbrev TT_FLIGHT_NO : Nat := 0x40020018
abbrev TT_OVR_LIMIT : Nat := 0x4002001C
abbrev TT_SWAP : Nat := 0x40020020
abbrev TT_TWR_ADDR : Nat := 0x40020028
abbrev TT_TWR_DATA : Nat := 0x4002002C
abbrev TT_TWR_OUT : Nat := 0x40020030
abbrev TT_ALT_FORCE : Nat := 0x40020038
abbrev TT_ENG_STAT (n : Nat) : Nat := 0x40020040 + n * 0x10
abbrev TT_ENG_OVRCNT (n : Nat) : Nat := 0x40020044 + n * 0x10
abbrev TT_ENG_TESTCNT (n : Nat) : Nat := 0x40020048 + n * 0x10
abbrev TT_ENG_SLACK (n : Nat) : Nat := 0x4002004C + n * 0x10

/-! ### TOW -/
abbrev TOW_STATUS : Nat := 0x40030000
abbrev TOW_RESENDS : Nat := 0x40030004
abbrev TOW_PORT_STAT (p : Nat) : Nat := 0x40030100 + p * 0x10
abbrev TOW_PORT_REFCNT (p : Nat) : Nat := 0x40030104 + p * 0x10
abbrev TOW_PORT_RESENDCNT (p : Nat) : Nat := 0x40030108 + p * 0x10
abbrev TOW_PORT_CRED (p : Nat) : Nat := 0x4003010C + p * 0x10

/-! ### BASIN -/
abbrev BASIN_FREE : Nat := 0x40040000
abbrev BASIN_COUNT : Nat := 0x40040004
abbrev BASIN_POOL : Nat := 0x40040008
abbrev BASIN_SUBMIT : Nat := 0x40040010
abbrev BASIN_SUBSTAT : Nat := 0x40040014
abbrev BASIN_NOTE_LO : Nat := 0x40040020
abbrev BASIN_NOTE_HI : Nat := 0x40040024
abbrev BASIN_NOTESTAT : Nat := 0x40040028
abbrev BASIN_STAGE (w : Nat) : Nat := 0x40040040 + w * 0x4
abbrev BASIN_Q_CFG (q : Nat) : Nat := 0x40041000 + q * 0x10
abbrev BASIN_Q_STAT (q : Nat) : Nat := 0x40041004 + q * 0x10
abbrev BASIN_Q_SEQ (q : Nat) : Nat := 0x40041008 + q * 0x10
abbrev BASIN_Q_CTRL (q : Nat) : Nat := 0x4004100C + q * 0x10

/-! ### TIME -/
abbrev TIME_NOW_LO : Nat := 0x40050000
abbrev TIME_NOW_HI : Nat := 0x40050004
abbrev TIME_EPOCH : Nat := 0x40050008
abbrev TIME_CTRL : Nat := 0x40050010
abbrev TIME_STAT : Nat := 0x40050014
abbrev TIME_RATE : Nat := 0x40050018
abbrev TIME_RATE_MAN : Nat := 0x4005001C
abbrev TIME_OFS : Nat := 0x40050028
abbrev TIME_STEP_LO : Nat := 0x40050020
abbrev TIME_STEP_HI : Nat := 0x40050024
abbrev TIME_REF_CFG : Nat := 0x4005002C
abbrev TIME_SERVO : Nat := 0x40050030
abbrev TIME_THR : Nat := 0x40050034
abbrev TIME_HOLD : Nat := 0x40050038
abbrev TIME_CNT : Nat := 0x4005003C
abbrev TIME_PTP_CFG : Nat := 0x40050040
abbrev TIME_CMPSTAT : Nat := 0x40050044
abbrev TIME_CMP (k : Nat) : Nat := 0x40050080 + k * 0x4

/-! ### ETH -/
abbrev ETH_CTRL : Nat := 0x40060000
abbrev ETH_MAC_LO : Nat := 0x40060004
abbrev ETH_MAC_HI : Nat := 0x40060008
abbrev ETH_HSR_STAT : Nat := 0x40060010
abbrev ETH_P_CFG (p : Nat) : Nat := 0x40060100 + p * 0x100
abbrev ETH_P_STAT (p : Nat) : Nat := 0x40060104 + p * 0x100
abbrev ETH_P_ASYM (p : Nat) : Nat := 0x40060108 + p * 0x100
abbrev ETH_P_DELAY (p : Nat) : Nat := 0x4006010C + p * 0x100
abbrev ETH_P_TCMAP (p : Nat) : Nat := 0x40060110 + p * 0x100
abbrev ETH_P_QBV_CTRL (p : Nat) : Nat := 0x40060120 + p * 0x100
abbrev ETH_P_CYCLE (p : Nat) : Nat := 0x40060124 + p * 0x100
abbrev ETH_P_BASE_LO (p : Nat) : Nat := 0x40060128 + p * 0x100
abbrev ETH_P_BASE_HI (p : Nat) : Nat := 0x4006012C + p * 0x100
abbrev ETH_P_CHANGE_TIME (p : Nat) : Nat := 0x40060130 + p * 0x100
abbrev ETH_P_LQ (p : Nat) : Nat := 0x40060134 + p * 0x100
abbrev ETH_P_LQ_PUSH (p : Nat) : Nat := 0x40060138 + p * 0x100
abbrev ETH_P_CNT_RX (p : Nat) : Nat := 0x40060180 + p * 0x100
abbrev ETH_P_CNT_TX (p : Nat) : Nat := 0x40060184 + p * 0x100
abbrev ETH_P_CNT_ERR (p : Nat) : Nat := 0x40060188 + p * 0x100
abbrev ETH_P_CNT_LATE (p : Nat) : Nat := 0x4006018C + p * 0x100
abbrev ETH_P_GCL (p : Nat) (i : Nat) : Nat := 0x40060400 + p * 0x400 + i * 0x4
abbrev ETH_TL_CFG : Nat := 0x40061000
abbrev ETH_TL_LAUNCH : Nat := 0x40061004
abbrev ETH_TL_MCAST_LO : Nat := 0x40061008
abbrev ETH_TL_MCAST_HI : Nat := 0x4006100C
abbrev ETH_TL_ACC : Nat := 0x40061010
abbrev ETH_TL_STAT : Nat := 0x40061014
abbrev ETH_TL_MSG : Nat := 0x40061018
abbrev ETH_TL_PUB (i : Nat) : Nat := 0x40061100 + i * 0x4
abbrev ETH_TL_SUB (s : Nat) : Nat := 0x40061200 + s * 0x4

/-! ### CAN -/
abbrev CAN_CTRL (c : Nat) : Nat := 0x40070000 + c * 0x10000
abbrev CAN_STAT (c : Nat) : Nat := 0x40070004 + c * 0x10000
abbrev CAN_NBT (c : Nat) : Nat := 0x40070008 + c * 0x10000
abbrev CAN_DBT (c : Nat) : Nat := 0x4007000C + c * 0x10000
abbrev CAN_IF (c : Nat) : Nat := 0x40070010 + c * 0x10000
abbrev CAN_IE (c : Nat) : Nat := 0x40070014 + c * 0x10000
abbrev CAN_CNT (c : Nat) : Nat := 0x40070018 + c * 0x10000
abbrev CAN_ERRCNT (c : Nat) : Nat := 0x4007001C + c * 0x10000
abbrev CAN_TM_CFG (c : Nat) : Nat := 0x40070020 + c * 0x10000
abbrev CAN_TM_ID (c : Nat) : Nat := 0x40070024 + c * 0x10000
abbrev CAN_TM_DELAY (c : Nat) : Nat := 0x40070028 + c * 0x10000
abbrev CAN_TM_STAT (c : Nat) : Nat := 0x4007002C + c * 0x10000
abbrev CAN_NEW (c : Nat) (g : Nat) : Nat := 0x40070040 + c * 0x10000 + g * 0x4
abbrev CAN_OWN (c : Nat) (g : Nat) : Nat := 0x40070050 + c * 0x10000 + g * 0x4
abbrev CAN_OBJ (c : Nat) (m : Nat) : Nat := 0x40072000 + c * 0x10000 + m * 0x50

/-! ### PSYNC -/
abbrev PS_STAT : Nat := 0x40090000
abbrev PS_CAL : Nat := 0x40090004
abbrev PS_RSTALE : Nat := 0x40090008
abbrev TRG_CFG (n : Nat) : Nat := 0x40090100 + n * 0x40
abbrev TRG_WIDTH (n : Nat) : Nat := 0x40090104 + n * 0x40
abbrev TRG_DELAY (n : Nat) : Nat := 0x40090108 + n * 0x40
abbrev TRG_STAT (n : Nat) : Nat := 0x4009010C + n * 0x40
abbrev TRG_LIST (n : Nat) : Nat := 0x40090110 + n * 0x40
abbrev TRG_LDATA_LO (n : Nat) : Nat := 0x40090114 + n * 0x40
abbrev TRG_LDATA_HI (n : Nat) : Nat := 0x40090118 + n * 0x40
abbrev TRG_COUNT (n : Nat) : Nat := 0x4009011C + n * 0x40
abbrev TRG_START_LO (n : Nat) : Nat := 0x40090120 + n * 0x40
abbrev TRG_START_HI (n : Nat) : Nat := 0x40090124 + n * 0x40
abbrev TRG_PITCH_LO (n : Nat) : Nat := 0x40090128 + n * 0x40
abbrev TRG_PITCH_HI (n : Nat) : Nat := 0x4009012C + n * 0x40
abbrev TRG_FIRED (n : Nat) : Nat := 0x40090130 + n * 0x40
abbrev TRG_ERRCNT (n : Nat) : Nat := 0x40090134 + n * 0x40
abbrev EMU_CFG (e : Nat) : Nat := 0x40090600 + e * 0x20
abbrev EMU_NUM (e : Nat) : Nat := 0x40090604 + e * 0x20
abbrev EMU_DEN (e : Nat) : Nat := 0x40090608 + e * 0x20
abbrev EMU_Z (e : Nat) : Nat := 0x4009060C + e * 0x20
abbrev EMU_STAT (e : Nat) : Nat := 0x40090610 + e * 0x20
abbrev EMU_CNT (e : Nat) : Nat := 0x40090614 + e * 0x20
abbrev LAT_CFG (n : Nat) : Nat := 0x40090800 + n * 0x40
abbrev LAT_STAT (n : Nat) : Nat := 0x40090804 + n * 0x40
abbrev LAT_MASK_LO (n : Nat) : Nat := 0x40090808 + n * 0x40
abbrev LAT_MASK_HI (n : Nat) : Nat := 0x4009080C + n * 0x40
abbrev LAT_MP_LO (n : Nat) : Nat := 0x40090810 + n * 0x40
abbrev LAT_MP_HI (n : Nat) : Nat := 0x40090814 + n * 0x40
abbrev LAT_MO_LO (n : Nat) : Nat := 0x40090818 + n * 0x40
abbrev LAT_MO_HI (n : Nat) : Nat := 0x4009081C + n * 0x40
abbrev LAT_CORR_LO (n : Nat) : Nat := 0x40090820 + n * 0x40
abbrev LAT_CORR_HI (n : Nat) : Nat := 0x40090824 + n * 0x40
abbrev TIM_CFG (m : Nat) : Nat := 0x40090C00 + m * 0x10
abbrev TIM_RSTAT (m : Nat) : Nat := 0x40090C04 + m * 0x10
abbrev TIM_RES (m : Nat) : Nat := 0x40090C08 + m * 0x10

/-! ### ACQ -/
abbrev ACQ_CTRL : Nat := 0x400A0000
abbrev ACQ_STAT : Nat := 0x400A0004
abbrev ACQ_CFG : Nat := 0x400A0008
abbrev ACQ_PT : Nat := 0x400A000C
abbrev ACQ_PRE : Nat := 0x400A0010
abbrev ACQ_POST : Nat := 0x400A0014
abbrev ACQ_DEPTH : Nat := 0x400A0018
abbrev ACQ_OLDEST : Nat := 0x400A001C
abbrev ACQ_TRIGREC : Nat := 0x400A0020
abbrev ACQ_COUNT : Nat := 0x400A0024
abbrev ACQ_TFLIGHT_LO : Nat := 0x400A0028
abbrev ACQ_TFLIGHT_HI : Nat := 0x400A002C
abbrev ACQ_TVAL_LO : Nat := 0x400A0030
abbrev ACQ_TVAL_HI : Nat := 0x400A0034
abbrev ACQ_TMASK_LO : Nat := 0x400A0038
abbrev ACQ_TMASK_HI : Nat := 0x400A003C
abbrev ACQ_P_SRC (c : Nat) : Nat := 0x400A0100 + c * 0x10
abbrev ACQ_P_COND (c : Nat) : Nat := 0x400A0104 + c * 0x10
abbrev ACQ_P_LEVEL (c : Nat) : Nat := 0x400A0108 + c * 0x10
abbrev ACQ_P_LAST (c : Nat) : Nat := 0x400A010C + c * 0x10
abbrev ACQ_M_CFG (m : Nat) : Nat := 0x400A0600 + m * 0x10
abbrev ACQ_M_STAT (m : Nat) : Nat := 0x400A0604 + m * 0x10
abbrev ACQ_M_UP (m : Nat) (i : Nat) : Nat := 0x400A2000 + m * 0x2000 + i * 0x4
abbrev ACQ_M_LO (m : Nat) (i : Nat) : Nat := 0x400A3000 + m * 0x2000 + i * 0x4

/-! ### PERF -/
abbrev PERF_CLR : Nat := 0x400B0000
abbrev PERF_PERM (p : Nat) : Nat := 0x400B0004 + p * 0x4
abbrev TAG_CFG (p : Nat) : Nat := 0x400B0100 + p * 0x20
abbrev TAG_LFSR (p : Nat) : Nat := 0x400B0104 + p * 0x20
abbrev TAG_STAT (p : Nat) : Nat := 0x400B0108 + p * 0x20
abbrev TAG_CLR (p : Nat) : Nat := 0x400B010C + p * 0x20
abbrev TAG_REC (p : Nat) (i : Nat) : Nat := 0x400B7000 + p * 0x100 + i * 0x10
abbrev HIST_CFG (h : Nat) : Nat := 0x400B0200 + h * 0x80
abbrev HIST_BIN (h : Nat) (k : Nat) : Nat := 0x400B0240 + h * 0x80 + k * 0x4

/-! ### SAFE -/
abbrev SAFE_STAT : Nat := 0x400C0000
abbrev SAFE_CTRL : Nat := 0x400C0004
abbrev SAFE_LOAD_ADDR : Nat := 0x400C0008
abbrev SAFE_CHECK : Nat := 0x400C000C
abbrev SAFE_CONFIRM : Nat := 0x400C0010
abbrev SAFE_STO : Nat := 0x400C0018
abbrev SAFE_PAIR : Nat := 0x400C001C
abbrev SAFE_SO : Nat := 0x400C0020
abbrev SAFE_CMP : Nat := 0x400C0024
abbrev SAFE_RESTART : Nat := 0x400C0028
abbrev SAFE_REQ : Nat := 0x400C0030
abbrev SAFE_PATH : Nat := 0x400C0038
abbrev SAFE_AX_STAT (a : Nat) : Nat := 0x400C0040 + a * 0x4
abbrev SAFE_SDT_ADDR : Nat := 0x400C0100
abbrev SAFE_SDT_CTRL : Nat := 0x400C0104
abbrev SAFE_SDT_STAT : Nat := 0x400C0108
abbrev SAFE_SDT_CHECK : Nat := 0x400C010C
abbrev SAFE_SDT_CONFIRM : Nat := 0x400C0110
abbrev SAFE_RX_STAT (r : Nat) : Nat := 0x400C0140 + r * 0x4

/-! ### FIO -/
abbrev FIO_STAT : Nat := 0x400D0000
abbrev FIO_LPLUS : Nat := 0x400D0004
abbrev FIO_DI : Nat := 0x400D0008
abbrev FIO_DIRAW : Nat := 0x400D000C
abbrev FIO_DO : Nat := 0x400D0010
abbrev FIO_DO_SET : Nat := 0x400D0014
abbrev FIO_DO_CLR : Nat := 0x400D0018
abbrev FIO_DO_FS : Nat := 0x400D001C
abbrev FIO_DO_ACT : Nat := 0x400D0024
abbrev FIO_DO_FLT : Nat := 0x400D0028
abbrev FIO_DO_OT : Nat := 0x400D002C
abbrev FIO_DO_CFG : Nat := 0x400D0030
abbrev FIO_SO_STAT : Nat := 0x400D0034
abbrev FIO_TP : Nat := 0x400D0038
abbrev FIO_TPSTAT : Nat := 0x400D003C
abbrev FIO_LINKCNT : Nat := 0x400D0040
abbrev FIO_CNT_CLR : Nat := 0x400D0044
abbrev FIO_DI_CFG (i : Nat) : Nat := 0x400D0100 + i * 0x4
abbrev FIO_CNT (i : Nat) : Nat := 0x400D0200 + i * 0x8
abbrev FIO_FREQ (i : Nat) : Nat := 0x400D0204 + i * 0x8

/-! ### HOST -/
abbrev HOST_BOOT_STAT : Nat := 0x400E0000
abbrev HOST_BOOT_SET : Nat := 0x400E0004
abbrev HOST_IMG (t : Nat) : Nat := 0x400E0010 + (t - 1) * 0x4
abbrev HOST_CTRL : Nat := 0x400E0020
abbrev HOST_NOR_CTRL : Nat := 0x400E0024
abbrev HOST_NOR_ADDR : Nat := 0x400E0028
abbrev HOST_NOR_SRC : Nat := 0x400E002C
abbrev HOST_NOR_LEN : Nat := 0x400E0030
abbrev HOST_NOR_STAT : Nat := 0x400E0034
abbrev HOST_KEY : Nat := 0x400E0040
abbrev HOST_KEY_CTRL : Nat := 0x400E0044
abbrev HOST_WHARF_CFG : Nat := 0x400E0050
abbrev HOST_WHARF_ACC : Nat := 0x400E0054
abbrev HOST_WIRQ : Nat := 0x400E0058
abbrev HOST_DB_HOST : Nat := 0x400E005C
abbrev HOST_DB_FW : Nat := 0x400E0060
abbrev HOST_PS_CTRL : Nat := 0x400E0080
abbrev HOST_PS_KEY : Nat := 0x400E0084
abbrev HOST_PS_ADDR : Nat := 0x400E0088
abbrev HOST_PS_LEN : Nat := 0x400E008C
abbrev HOST_PS_STAT : Nat := 0x400E0090
abbrev HOST_PS_VER : Nat := 0x400E0094
abbrev HOST_PS_FREE : Nat := 0x400E0098

/-! ### AXIS -/
abbrev PWM_CTRL (n : Nat) : Nat := 0x40100000 + n * 0x10000
abbrev PWM_PERIOD (n : Nat) : Nat := 0x40100004 + n * 0x10000
abbrev PWM_CPF (n : Nat) : Nat := 0x40100008 + n * 0x10000
abbrev PWM_PHASE (n : Nat) : Nat := 0x4010000C + n * 0x10000
abbrev PWM_MINPW (n : Nat) : Nat := 0x40100010 + n * 0x10000
abbrev PWM_SAFE (n : Nat) : Nat := 0x40100014 + n * 0x10000
abbrev PWM_DLY (n : Nat) (s : Nat) : Nat := 0x40100020 + n * 0x10000 + s * 0x4
abbrev PWM_STAT (n : Nat) : Nat := 0x40100030 + n * 0x10000
abbrev PWM_SUPCNT (n : Nat) : Nat := 0x40100034 + n * 0x10000
abbrev PWM_NOLOAD (n : Nat) : Nat := 0x40100038 + n * 0x10000
abbrev PWM_RISE (n : Nat) (s : Nat) : Nat := 0x40100040 + n * 0x10000 + s * 0x8
abbrev PWM_FALL (n : Nat) (s : Nat) : Nat := 0x40100044 + n * 0x10000 + s * 0x8
abbrev CL_CFG (n : Nat) : Nat := 0x40100080 + n * 0x10000
abbrev CL_LIMIT (n : Nat) : Nat := 0x40100084 + n * 0x10000
abbrev CL_STAT (n : Nat) : Nat := 0x40100088 + n * 0x10000
abbrev CL_SBCNT (n : Nat) : Nat := 0x4010008C + n * 0x10000
abbrev CL_LBCNT (n : Nat) : Nat := 0x40100090 + n * 0x10000
abbrev CL_VLIMCNT (n : Nat) : Nat := 0x40100094 + n * 0x10000
abbrev CL_VBUS_FW (n : Nat) : Nat := 0x40100098 + n * 0x10000
abbrev GATE_CFG (n : Nat) : Nat := 0x40100100 + n * 0x10000
abbrev GATE_BOOT (n : Nat) : Nat := 0x40100104 + n * 0x10000
abbrev GATE_STAT (n : Nat) : Nat := 0x40100108 + n * 0x10000
abbrev GATE_BUVCNT (n : Nat) : Nat := 0x4010010C + n * 0x10000
abbrev SC_CFG (n : Nat) : Nat := 0x40100110 + n * 0x10000
abbrev SC_STAT (n : Nat) : Nat := 0x40100118 + n * 0x10000
abbrev SC_CNT (n : Nat) : Nat := 0x4010011C + n * 0x10000
abbrev SNS_CFG (n : Nat) : Nat := 0x40100120 + n * 0x10000
abbrev SNS_CAL (n : Nat) : Nat := 0x40100124 + n * 0x10000
abbrev SNS_CALSTAT (n : Nat) : Nat := 0x40100128 + n * 0x10000
abbrev SNS_OFS (n : Nat) (s : Nat) : Nat := 0x40100130 + n * 0x10000 + s * 0x4
abbrev SNS_GCAL (n : Nat) (s : Nat) : Nat := 0x40100140 + n * 0x10000 + s * 0x4
abbrev SNS_I (n : Nat) (s : Nat) : Nat := 0x40100150 + n * 0x10000 + s * 0x4
abbrev SNS_PHV (n : Nat) (s : Nat) : Nat := 0x40100160 + n * 0x10000 + s * 0x4
abbrev BRK_CFG (n : Nat) : Nat := 0x40100170 + n * 0x10000
abbrev BRK_LIM (n : Nat) : Nat := 0x40100174 + n * 0x10000
abbrev BRK_STAT (n : Nat) : Nat := 0x40100178 + n * 0x10000
abbrev HBRK_CFG (n : Nat) : Nat := 0x40100180 + n * 0x10000
abbrev HBRK_CTRL (n : Nat) : Nat := 0x40100184 + n * 0x10000
abbrev LP_CFG (n : Nat) : Nat := 0x40100200 + n * 0x10000
abbrev LP_LIMIT (n : Nat) : Nat := 0x40100204 + n * 0x10000
abbrev LP_HOLD (n : Nat) : Nat := 0x40100208 + n * 0x10000
abbrev LP_STAT (n : Nat) : Nat := 0x4010020C + n * 0x10000
abbrev LP_RUNS (n : Nat) : Nat := 0x40100210 + n * 0x10000
abbrev LP_REPORT (n : Nat) : Nat := 0x40100214 + n * 0x10000
abbrev LP_SWCNT (n : Nat) : Nat := 0x40100218 + n * 0x10000
abbrev STP_CFG (n : Nat) : Nat := 0x40100300 + n * 0x10000
abbrev STP_CHOP (n : Nat) : Nat := 0x40100304 + n * 0x10000
abbrev STP_LIMIT (n : Nat) : Nat := 0x40100308 + n * 0x10000
abbrev STP_STAT (n : Nat) : Nat := 0x4010030C + n * 0x10000
abbrev STP_DAC (n : Nat) : Nat := 0x40100310 + n * 0x10000
abbrev STP_OFS (n : Nat) : Nat := 0x40100314 + n * 0x10000
abbrev STP_STATE (n : Nat) : Nat := 0x40100318 + n * 0x10000
abbrev STP_HOVCNT (n : Nat) : Nat := 0x4010031C + n * 0x10000
abbrev STP_STALLCNT (n : Nat) : Nat := 0x40100320 + n * 0x10000
abbrev FB_CFG (n : Nat) : Nat := 0x40100400 + n * 0x10000
abbrev FB_SER (n : Nat) : Nat := 0x40100404 + n * 0x10000
abbrev FB_SER2 (n : Nat) : Nat := 0x40100408 + n * 0x10000
abbrev FB_JMAX (n : Nat) : Nat := 0x4010040C + n * 0x10000
abbrev FB_LIM (n : Nat) : Nat := 0x40100410 + n * 0x10000
abbrev FB_TIME (n : Nat) : Nat := 0x40100414 + n * 0x10000
abbrev FB_CPR (n : Nat) : Nat := 0x40100418 + n * 0x10000
abbrev FB_EL (n : Nat) : Nat := 0x4010041C + n * 0x10000
abbrev FB_HALL (n : Nat) : Nat := 0x40100420 + n * 0x10000
abbrev FB_CTRL (n : Nat) : Nat := 0x40100424 + n * 0x10000
abbrev FB_STAT (n : Nat) : Nat := 0x40100428 + n * 0x10000
abbrev FB_COUNT_LO (n : Nat) : Nat := 0x40100430 + n * 0x10000
abbrev FB_COUNT_HI (n : Nat) : Nat := 0x40100434 + n * 0x10000
abbrev FB_OFS_LO (n : Nat) : Nat := 0x40100438 + n * 0x10000
abbrev FB_OFS_HI (n : Nat) : Nat := 0x40100440 + n * 0x10000
abbrev FB_ZCNT (n : Nat) : Nat := 0x40100448 + n * 0x10000
abbrev FB_ANG (n : Nat) : Nat := 0x4010044C + n * 0x10000
abbrev FB_ERRCNT (n : Nat) : Nat := 0x40100450 + n * 0x10000
abbrev FB_ALCFG (n : Nat) : Nat := 0x40100454 + n * 0x10000
abbrev FB_ALSTAT (n : Nat) : Nat := 0x40100458 + n * 0x10000
abbrev EN_GSTAT (n : Nat) : Nat := 0x40100500 + n * 0x10000

/-! ### SDD -/
abbrev SDD_ID (d : Nat) : Nat := 0x40400000 + d * 0x10000
abbrev SDD_GDS (d : Nat) : Nat := 0x40400004 + d * 0x10000
abbrev SDD_STAT (d : Nat) : Nat := 0x40400010 + d * 0x10000
abbrev SDD_VGD (d : Nat) : Nat := 0x40400014 + d * 0x10000
abbrev SDD_VBUS (d : Nat) : Nat := 0x40400018 + d * 0x10000
abbrev SDD_TEMP (d : Nat) : Nat := 0x4040001C + d * 0x10000
abbrev SDD_THR (d : Nat) : Nat := 0x40400020 + d * 0x10000
abbrev SDD_LINKCNT (d : Nat) : Nat := 0x40400024 + d * 0x10000

/-! ### ENG -/
abbrev ENG_ID (n : Nat) : Nat := 0x20040000 + n * 0x100000
abbrev ENG_FAULT (n : Nat) : Nat := 0x20040004 + n * 0x100000
abbrev ENG_FAULT_PC (n : Nat) : Nat := 0x20040008 + n * 0x100000
abbrev ENG_FAULT_SR (n : Nat) : Nat := 0x2004000C + n * 0x100000
abbrev ENG_DBG (n : Nat) : Nat := 0x20040010 + n * 0x100000

end Reg

namespace Fld

/-! ### SYS -/
abbrev SYS_ID_PART : Fld := ⟨31, 16⟩
abbrev SYS_ID_VARIANT : Fld := ⟨15, 8⟩
abbrev SYS_ID_STEPPING : Fld := ⟨7, 0⟩
abbrev SYS_ADDR_VALID : Fld := ⟨31, 31⟩
abbrev SYS_ADDR_CELL : Fld := ⟨13, 6⟩
abbrev SYS_ADDR_SLOT : Fld := ⟨5, 0⟩
abbrev SYS_MODE_MISSING : Fld := ⟨19, 16⟩
abbrev SYS_MODE_REQ_CODE : Fld := ⟨15, 8⟩
abbrev SYS_MODE_FROZEN : Fld := ⟨3, 3⟩
abbrev SYS_MODE_MODE : Fld := ⟨2, 0⟩
abbrev SYS_MODE_REQ_GO : Fld := ⟨31, 31⟩
abbrev SYS_MODE_REQ_MODE : Fld := ⟨2, 0⟩
abbrev SYS_WAKE_STRAPS : Fld := ⟨31, 28⟩
abbrev SYS_WAKE_CAUSE : Fld := ⟨27, 24⟩
abbrev SYS_WAKE_CODE : Fld := ⟨23, 16⟩
abbrev SYS_WAKE_STEP : Fld := ⟨15, 12⟩
abbrev SYS_WAKE_TIME : Fld := ⟨8, 0⟩
abbrev SYS_VIN_CFG_WARN_ACT : Fld := ⟨8, 8⟩
abbrev SYS_VIN_CFG_WARN : Fld := ⟨7, 0⟩
abbrev SYS_VIN_STAT_MV : Fld := ⟨31, 16⟩
abbrev SYS_VIN_STAT_OV_S : Fld := ⟨3, 3⟩
abbrev SYS_VIN_STAT_WARN_S : Fld := ⟨2, 2⟩
abbrev SYS_VIN_STAT_OV : Fld := ⟨1, 1⟩
abbrev SYS_VIN_STAT_WARN : Fld := ⟨0, 0⟩
abbrev SYS_RAIL_STAT_FAIL_S : Fld := ⟨22, 16⟩
abbrev SYS_RAIL_STAT_OK : Fld := ⟨6, 0⟩
abbrev SYS_PWR_STAT_READY : Fld := ⟨31, 0⟩
abbrev SYS_PWR_REQ_ON : Fld := ⟨31, 0⟩
abbrev SYS_PWR_CODE_ERR : Fld := ⟨8, 8⟩
abbrev SYS_PWR_CODE_DOM : Fld := ⟨7, 0⟩
abbrev SYS_BK_STAT_ALARM : Fld := ⟨6, 6⟩
abbrev SYS_BK_STAT_VBAK_LOW : Fld := ⟨5, 5⟩
abbrev SYS_BK_STAT_HOME_REQ : Fld := ⟨4, 4⟩
abbrev SYS_BK_STAT_RDATA_INV : Fld := ⟨3, 3⟩
abbrev SYS_BK_STAT_RTC_INV : Fld := ⟨2, 2⟩
abbrev SYS_BK_STAT_SRC : Fld := ⟨1, 1⟩
abbrev SYS_BK_STAT_RV : Fld := ⟨0, 0⟩
abbrev SYS_BK_CFG_ALARM_EN : Fld := ⟨1, 1⟩
abbrev SYS_BK_CFG_AUTO : Fld := ⟨0, 0⟩
abbrev SYS_RTC_LO_COUNT : Fld := ⟨31, 0⟩
abbrev SYS_RTC_HI_COUNT : Fld := ⟨31, 0⟩
abbrev SYS_RTC_ALARM_SECONDS : Fld := ⟨31, 0⟩
abbrev SYS_BK_RETAIN_LO_MASK : Fld := ⟨31, 0⟩
abbrev SYS_BK_RETAIN_HI_MASK : Fld := ⟨31, 0⟩

/-! ### FC -/
abbrev FC_STAT_PENDING : Fld := ⟨31, 16⟩
abbrev FC_STAT_WINDOW : Fld := ⟨6, 6⟩
abbrev FC_STAT_SD : Fld := ⟨5, 5⟩
abbrev FC_STAT_MD : Fld := ⟨4, 4⟩
abbrev FC_STAT_FATAL : Fld := ⟨3, 3⟩
abbrev FC_STAT_HWSAFE : Fld := ⟨2, 2⟩
abbrev FC_FIRST_VALID : Fld := ⟨31, 31⟩
abbrev FC_FIRST_REACT : Fld := ⟨23, 21⟩
abbrev FC_FIRST_CLASS : Fld := ⟨17, 16⟩
abbrev FC_FIRST_SRC : Fld := ⟨15, 0⟩
abbrev FC_FIRST_DATA_DATA : Fld := ⟨31, 0⟩
abbrev FC_FIRST_TLO_TIME : Fld := ⟨31, 0⟩
abbrev FC_FIRST_THI_TIME : Fld := ⟨31, 0⟩
abbrev FC_HIST_CTRL_LOST : Fld := ⟨31, 16⟩
abbrev FC_HIST_CTRL_NEWEST : Fld := ⟨12, 8⟩
abbrev FC_HIST_CTRL_COUNT : Fld := ⟨5, 0⟩
abbrev FC_ACK_GO : Fld := ⟨31, 31⟩
abbrev FC_ACK_SRC : Fld := ⟨15, 0⟩
abbrev FC_ACKSTAT_CODE : Fld := ⟨7, 0⟩
abbrev FC_COUNT_FATAL : Fld := ⟨31, 24⟩
abbrev FC_COUNT_CONTAINED : Fld := ⟨23, 12⟩
abbrev FC_COUNT_CORRECTED : Fld := ⟨11, 0⟩
abbrev FC_DEG_MD_LIMIT : Fld := ⟨6, 0⟩
abbrev FC_DEG_STAT_SD_LEFT : Fld := ⟨31, 16⟩
abbrev FC_DEG_STAT_MD_LEFT : Fld := ⟨12, 0⟩
abbrev FC_LOST_ALT : Fld := ⟨31, 28⟩
abbrev FC_LOST_STALE : Fld := ⟨27, 12⟩
abbrev FC_LOST_ENG : Fld := ⟨11, 0⟩
abbrev FC_IST_OVERDUE : Fld := ⟨31, 31⟩
abbrev FC_IST_LAST_MS : Fld := ⟨27, 16⟩
abbrev FC_IST_ROUNDS : Fld := ⟨15, 0⟩

/-! ### TT -/
abbrev TT_CTRL_RUN : Fld := ⟨3, 3⟩
abbrev TT_CTRL_TCOPY : Fld := ⟨2, 2⟩
abbrev TT_CTRL_TEST_EN : Fld := ⟨1, 1⟩
abbrev TT_CTRL_LOAD : Fld := ⟨0, 0⟩
abbrev TT_STATUS_LOAD_CODE : Fld := ⟨23, 16⟩
abbrev TT_STATUS_TWR_ERR : Fld := ⟨10, 10⟩
abbrev TT_STATUS_TCOPY_BUSY : Fld := ⟨9, 9⟩
abbrev TT_STATUS_BANK : Fld := ⟨8, 8⟩
abbrev TT_STATUS_SWAP_PENDING : Fld := ⟨7, 7⟩
abbrev TT_STATUS_ALT_PENDING : Fld := ⟨6, 6⟩
abbrev TT_STATUS_RUNNING : Fld := ⟨5, 5⟩
abbrev TT_STATUS_LOADED : Fld := ⟨4, 4⟩
abbrev TT_STATUS_ACTIVE : Fld := ⟨3, 0⟩
abbrev TT_CAPS_ROM_MAJ : Fld := ⟨31, 24⟩
abbrev TT_CAPS_ROM_MIN : Fld := ⟨23, 16⟩
abbrev TT_CAPS_FMT_MAJ : Fld := ⟨15, 8⟩
abbrev TT_CAPS_FMT_MIN : Fld := ⟨7, 0⟩
abbrev TT_IMG_ADDR_ADDR : Fld := ⟨31, 2⟩
abbrev TT_FLIGHT_FLIGHT_TICKS : Fld := ⟨17, 0⟩
abbrev TT_VOYAGE_PHASE : Fld := ⟨13, 8⟩
abbrev TT_VOYAGE_VOYAGE : Fld := ⟨6, 0⟩
abbrev TT_FLIGHT_NO_FLIGHT_NO : Fld := ⟨31, 0⟩
abbrev TT_OVR_LIMIT_LIMIT : Fld := ⟨7, 0⟩
abbrev TT_SWAP_AT : Fld := ⟨1, 1⟩
abbrev TT_SWAP_ARM : Fld := ⟨0, 0⟩
abbrev TT_TWR_ADDR_OFFSET : Fld := ⟨28, 16⟩
abbrev TT_TWR_ADDR_REGION : Fld := ⟨15, 0⟩
abbrev TT_TWR_DATA_DATA : Fld := ⟨23, 0⟩
abbrev TT_TWR_OUT_OUT : Fld := ⟨15, 0⟩
abbrev TT_ALT_FORCE_GO : Fld := ⟨31, 31⟩
abbrev TT_ALT_FORCE_ALT : Fld := ⟨3, 0⟩
abbrev TT_ENG_STAT_LAST_LOCK : Fld := ⟨31, 16⟩
abbrev TT_ENG_STAT_REFUSED : Fld := ⟨7, 7⟩
abbrev TT_ENG_STAT_EXCESS : Fld := ⟨6, 6⟩
abbrev TT_ENG_STAT_LATE : Fld := ⟨5, 5⟩
abbrev TT_ENG_STAT_OVR : Fld := ⟨4, 4⟩
abbrev TT_ENG_STAT_ROLE : Fld := ⟨1, 0⟩
abbrev TT_ENG_OVRCNT_COUNT : Fld := ⟨31, 0⟩
abbrev TT_ENG_TESTCNT_COUNT : Fld := ⟨31, 0⟩
abbrev TT_ENG_SLACK_SLACK : Fld := ⟨15, 0⟩

/-! ### TOW -/
abbrev TOW_STATUS_B_FAULT : Fld := ⟨1, 1⟩
abbrev TOW_STATUS_A_FAULT : Fld := ⟨0, 0⟩
abbrev TOW_RESENDS_COUNT : Fld := ⟨31, 0⟩
abbrev TOW_PORT_STAT_FLITS_LAST : Fld := ⟨31, 16⟩
abbrev TOW_PORT_STAT_VC0_DEPTH : Fld := ⟨15, 8⟩
abbrev TOW_PORT_STAT_CREDIT_ERR : Fld := ⟨3, 3⟩
abbrev TOW_PORT_STAT_REFUSED : Fld := ⟨2, 2⟩
abbrev TOW_PORT_STAT_B_BAD : Fld := ⟨1, 1⟩
abbrev TOW_PORT_STAT_A_BAD : Fld := ⟨0, 0⟩
abbrev TOW_PORT_REFCNT_COUNT : Fld := ⟨31, 0⟩
abbrev TOW_PORT_RESENDCNT_COUNT : Fld := ⟨31, 0⟩
abbrev TOW_PORT_CRED_VC3 : Fld := ⟨31, 24⟩
abbrev TOW_PORT_CRED_VC2 : Fld := ⟨23, 16⟩
abbrev TOW_PORT_CRED_VC1 : Fld := ⟨15, 8⟩
abbrev TOW_PORT_CRED_VC0 : Fld := ⟨7, 0⟩

/-! ### BASIN -/
abbrev BASIN_FREE_FREE : Fld := ⟨15, 0⟩
abbrev BASIN_COUNT_EXEC : Fld := ⟨31, 16⟩
abbrev BASIN_COUNT_QUEUED : Fld := ⟨15, 0⟩
abbrev BASIN_POOL_POOL_FREE : Fld := ⟨31, 16⟩
abbrev BASIN_POOL_POOL_SIZE : Fld := ⟨15, 0⟩
abbrev BASIN_SUBMIT_GO : Fld := ⟨31, 31⟩
abbrev BASIN_SUBMIT_QUEUE : Fld := ⟨6, 0⟩
abbrev BASIN_SUBSTAT_SEQ : Fld := ⟨31, 16⟩
abbrev BASIN_SUBSTAT_CODE : Fld := ⟨7, 0⟩
abbrev BASIN_NOTE_LO_TAG : Fld := ⟨31, 16⟩
abbrev BASIN_NOTE_LO_SEQ : Fld := ⟨15, 0⟩
abbrev BASIN_NOTE_HI_VALID : Fld := ⟨31, 31⟩
abbrev BASIN_NOTE_HI_QUEUE : Fld := ⟨22, 16⟩
abbrev BASIN_NOTE_HI_RESULT : Fld := ⟨3, 0⟩
abbrev BASIN_NOTESTAT_OVF : Fld := ⟨31, 31⟩
abbrev BASIN_NOTESTAT_LOST : Fld := ⟨24, 16⟩
abbrev BASIN_NOTESTAT_COUNT : Fld := ⟨8, 0⟩
abbrev BASIN_STAGE_BYTES : Fld := ⟨31, 0⟩
abbrev BASIN_Q_CFG_BORROW : Fld := ⟨31, 31⟩
abbrev BASIN_Q_CFG_FOLLOW : Fld := ⟨30, 30⟩
abbrev BASIN_Q_CFG_GROUP : Fld := ⟨29, 24⟩
abbrev BASIN_Q_CFG_QRES : Fld := ⟨15, 0⟩
abbrev BASIN_Q_STAT_LAW : Fld := ⟨31, 28⟩
abbrev BASIN_Q_STAT_STALE : Fld := ⟨27, 27⟩
abbrev BASIN_Q_STAT_UNDR : Fld := ⟨26, 26⟩
abbrev BASIN_Q_STAT_MLOST : Fld := ⟨25, 25⟩
abbrev BASIN_Q_STAT_STOPPED : Fld := ⟨24, 24⟩
abbrev BASIN_Q_STAT_STOP_SRC : Fld := ⟨23, 19⟩
abbrev BASIN_Q_STAT_EXEC : Fld := ⟨18, 18⟩
abbrev BASIN_Q_STAT_QUEUED : Fld := ⟨15, 0⟩
abbrev BASIN_Q_SEQ_NEXT : Fld := ⟨31, 16⟩
abbrev BASIN_Q_SEQ_DONE : Fld := ⟨15, 0⟩
abbrev BASIN_Q_CTRL_RESUME : Fld := ⟨2, 2⟩
abbrev BASIN_Q_CTRL_STOP_CLR : Fld := ⟨1, 1⟩
abbrev BASIN_Q_CTRL_STOP : Fld := ⟨0, 0⟩

/-! ### TIME -/
abbrev TIME_NOW_LO_TIME : Fld := ⟨31, 0⟩
abbrev TIME_NOW_HI_TIME : Fld := ⟨31, 0⟩
abbrev TIME_EPOCH_E : Fld := ⟨15, 0⟩
abbrev TIME_CTRL_STEP_MEAS : Fld := ⟨3, 3⟩
abbrev TIME_CTRL_STEP : Fld := ⟨2, 2⟩
abbrev TIME_CTRL_STEP_OK : Fld := ⟨1, 1⟩
abbrev TIME_CTRL_SERVO_EN : Fld := ⟨0, 0⟩
abbrev TIME_STAT_EPOCH_ERR : Fld := ⟨10, 10⟩
abbrev TIME_STAT_STEP_BLK : Fld := ⟨9, 9⟩
abbrev TIME_STAT_HOLD_LIM : Fld := ⟨8, 8⟩
abbrev TIME_STAT_SRC : Fld := ⟨5, 4⟩
abbrev TIME_STAT_STATE : Fld := ⟨2, 0⟩
abbrev TIME_RATE_VALUE : Fld := ⟨31, 0⟩
abbrev TIME_RATE_MAN_VALUE : Fld := ⟨31, 0⟩
abbrev TIME_OFS_VALUE : Fld := ⟨31, 0⟩
abbrev TIME_STEP_LO_DELTA : Fld := ⟨31, 0⟩
abbrev TIME_STEP_HI_DELTA : Fld := ⟨31, 0⟩
abbrev TIME_REF_CFG_LOSS_N : Fld := ⟨19, 16⟩
abbrev TIME_REF_CFG_PRIO_CAN : Fld := ⟨11, 8⟩
abbrev TIME_REF_CFG_PRIO_PTP : Fld := ⟨3, 0⟩
abbrev TIME_SERVO_KI_SH : Fld := ⟨15, 8⟩
abbrev TIME_SERVO_KP_SH : Fld := ⟨7, 0⟩
abbrev TIME_THR_STEP_THR : Fld := ⟨31, 16⟩
abbrev TIME_THR_LOCK_THR : Fld := ⟨15, 0⟩
abbrev TIME_HOLD_ELAPSED : Fld := ⟨31, 16⟩
abbrev TIME_HOLD_LIMIT : Fld := ⟨15, 0⟩
abbrev TIME_CNT_STEPS : Fld := ⟨31, 24⟩
abbrev TIME_CNT_SWITCHES : Fld := ⟨23, 12⟩
abbrev TIME_CNT_ABANDONS : Fld := ⟨11, 0⟩
abbrev TIME_PTP_CFG_PRIO1 : Fld := ⟨31, 24⟩
abbrev TIME_PTP_CFG_PRIO2 : Fld := ⟨23, 16⟩
abbrev TIME_PTP_CFG_LOG_SYNC : Fld := ⟨15, 12⟩
abbrev TIME_PTP_CFG_GM_CAP : Fld := ⟨8, 8⟩
abbrev TIME_PTP_CFG_DOMAIN : Fld := ⟨7, 0⟩
abbrev TIME_CMPSTAT_FIRED : Fld := ⟨15, 8⟩
abbrev TIME_CMPSTAT_ARMED : Fld := ⟨7, 0⟩
abbrev TIME_CMP_C : Fld := ⟨31, 0⟩

/-! ### ETH -/
abbrev ETH_CTRL_NET_ID : Fld := ⟨6, 4⟩
abbrev ETH_CTRL_HSR_EN : Fld := ⟨1, 1⟩
abbrev ETH_CTRL_EN : Fld := ⟨0, 0⟩
abbrev ETH_MAC_LO_MAC : Fld := ⟨31, 0⟩
abbrev ETH_MAC_HI_MAC : Fld := ⟨31, 0⟩
abbrev ETH_HSR_STAT_DUPDISC : Fld := ⟨31, 16⟩
abbrev ETH_HSR_STAT_RING_OPEN : Fld := ⟨0, 0⟩
abbrev ETH_P_CFG_AN_EN : Fld := ⟨3, 3⟩
abbrev ETH_P_CFG_MODE : Fld := ⟨1, 0⟩
abbrev ETH_P_STAT_STEPS_REM : Fld := ⟨31, 16⟩
abbrev ETH_P_STAT_PTP_STATE : Fld := ⟨7, 4⟩
abbrev ETH_P_STAT_SPEED_ERR : Fld := ⟨2, 2⟩
abbrev ETH_P_STAT_AN_DONE : Fld := ⟨1, 1⟩
abbrev ETH_P_STAT_LINK : Fld := ⟨0, 0⟩
abbrev ETH_P_ASYM_VALUE : Fld := ⟨31, 0⟩
abbrev ETH_P_DELAY_VALUE : Fld := ⟨31, 0⟩
abbrev ETH_P_TCMAP_MAP : Fld := ⟨31, 0⟩
abbrev ETH_P_QBV_CTRL_CHANGE : Fld := ⟨31, 31⟩
abbrev ETH_P_QBV_CTRL_BANK : Fld := ⟨30, 30⟩
abbrev ETH_P_QBV_CTRL_LEN : Fld := ⟨8, 0⟩
abbrev ETH_P_LQ_LATE_NS : Fld := ⟨31, 16⟩
abbrev ETH_P_LQ_LEVEL : Fld := ⟨6, 0⟩
abbrev ETH_P_CNT_RX_COUNT : Fld := ⟨31, 0⟩
abbrev ETH_P_CNT_TX_COUNT : Fld := ⟨31, 0⟩
abbrev ETH_P_CNT_ERR_COUNT : Fld := ⟨31, 0⟩
abbrev ETH_P_CNT_LATE_COUNT : Fld := ⟨31, 0⟩
abbrev ETH_P_GCL_GATES : Fld := ⟨31, 24⟩
abbrev ETH_P_GCL_INTERVAL : Fld := ⟨23, 0⟩
abbrev ETH_TL_CFG_ETYPE : Fld := ⟨31, 16⟩
abbrev ETH_TL_CFG_CYC_PH : Fld := ⟨15, 8⟩
abbrev ETH_TL_CFG_CYC_F : Fld := ⟨7, 0⟩
abbrev ETH_TL_LAUNCH_LAUNCH : Fld := ⟨17, 0⟩
abbrev ETH_TL_MCAST_LO_MAC : Fld := ⟨31, 0⟩
abbrev ETH_TL_MCAST_HI_MAC : Fld := ⟨31, 0⟩
abbrev ETH_TL_ACC_WR_RUN : Fld := ⟨2, 2⟩
abbrev ETH_TL_ACC_WR_EN : Fld := ⟨1, 1⟩
abbrev ETH_TL_ACC_RD_EN : Fld := ⟨0, 0⟩
abbrev ETH_TL_STAT_BAD : Fld := ⟨31, 16⟩
abbrev ETH_TL_STAT_MSGLOST : Fld := ⟨15, 8⟩
abbrev ETH_TL_STAT_MSGLEVEL : Fld := ⟨5, 0⟩
abbrev ETH_TL_MSG_VALID : Fld := ⟨31, 31⟩
abbrev ETH_TL_MSG_LEN : Fld := ⟨21, 16⟩
abbrev ETH_TL_MSG_SRC : Fld := ⟨13, 0⟩
abbrev ETH_TL_PUB_EN : Fld := ⟨31, 31⟩
abbrev ETH_TL_PUB_CH : Fld := ⟨5, 0⟩
abbrev ETH_TL_SUB_EN : Fld := ⟨31, 31⟩
abbrev ETH_TL_SUB_HELD : Fld := ⟨30, 30⟩
abbrev ETH_TL_SUB_AXIS : Fld := ⟨19, 0⟩

/-! ### CAN -/
abbrev CAN_CTRL_EWL : Fld := ⟨15, 8⟩
abbrev CAN_CTRL_PXHD : Fld := ⟨5, 5⟩
abbrev CAN_CTRL_REC_REQ : Fld := ⟨4, 4⟩
abbrev CAN_CTRL_AUTO_REC : Fld := ⟨3, 3⟩
abbrev CAN_CTRL_MODE : Fld := ⟨2, 1⟩
abbrev CAN_CTRL_EN : Fld := ⟨0, 0⟩
abbrev CAN_STAT_REC : Fld := ⟨31, 24⟩
abbrev CAN_STAT_TEC : Fld := ⟨23, 16⟩
abbrev CAN_STAT_RELEASING : Fld := ⟨5, 5⟩
abbrev CAN_STAT_RECOVERING : Fld := ⟨4, 4⟩
abbrev CAN_STAT_STATE : Fld := ⟨3, 2⟩
abbrev CAN_STAT_EW : Fld := ⟨1, 1⟩
abbrev CAN_STAT_SYNCED : Fld := ⟨0, 0⟩
abbrev CAN_NBT_SJW : Fld := ⟨31, 25⟩
abbrev CAN_NBT_TSEG2 : Fld := ⟨24, 18⟩
abbrev CAN_NBT_TSEG1 : Fld := ⟨17, 10⟩
abbrev CAN_NBT_BRP : Fld := ⟨7, 0⟩
abbrev CAN_DBT_SJW : Fld := ⟨31, 28⟩
abbrev CAN_DBT_TSEG2 : Fld := ⟨27, 24⟩
abbrev CAN_DBT_TSEG1 : Fld := ⟨23, 19⟩
abbrev CAN_DBT_BRP : Fld := ⟨18, 14⟩
abbrev CAN_DBT_TDC_EN : Fld := ⟨7, 7⟩
abbrev CAN_DBT_TDCO : Fld := ⟨6, 0⟩
abbrev CAN_IF_TMREF : Fld := ⟨8, 8⟩
abbrev CAN_IF_TXERR : Fld := ⟨7, 7⟩
abbrev CAN_IF_BO_END : Fld := ⟨6, 6⟩
abbrev CAN_IF_BO : Fld := ⟨5, 5⟩
abbrev CAN_IF_EP : Fld := ⟨4, 4⟩
abbrev CAN_IF_EW : Fld := ⟨3, 3⟩
abbrev CAN_IF_RXLOST : Fld := ⟨2, 2⟩
abbrev CAN_IF_RXNEW : Fld := ⟨1, 1⟩
abbrev CAN_IF_TXDONE : Fld := ⟨0, 0⟩
abbrev CAN_IE_TMREF : Fld := ⟨8, 8⟩
abbrev CAN_IE_TXERR : Fld := ⟨7, 7⟩
abbrev CAN_IE_BO_END : Fld := ⟨6, 6⟩
abbrev CAN_IE_BO : Fld := ⟨5, 5⟩
abbrev CAN_IE_EP : Fld := ⟨4, 4⟩
abbrev CAN_IE_EW : Fld := ⟨3, 3⟩
abbrev CAN_IE_RXLOST : Fld := ⟨2, 2⟩
abbrev CAN_IE_RXNEW : Fld := ⟨1, 1⟩
abbrev CAN_IE_TXDONE : Fld := ⟨0, 0⟩
abbrev CAN_CNT_RXLOST : Fld := ⟨31, 16⟩
abbrev CAN_CNT_NOMATCH : Fld := ⟨15, 0⟩
abbrev CAN_ERRCNT_BUSOFF : Fld := ⟨31, 24⟩
abbrev CAN_ERRCNT_ERRFRM : Fld := ⟨23, 0⟩
abbrev CAN_TM_CFG_CYC_F : Fld := ⟨15, 8⟩
abbrev CAN_TM_CFG_MODE : Fld := ⟨1, 0⟩
abbrev CAN_TM_ID_IDE : Fld := ⟨29, 29⟩
abbrev CAN_TM_ID_ID : Fld := ⟨28, 0⟩
abbrev CAN_TM_DELAY_DELAY : Fld := ⟨31, 0⟩
abbrev CAN_TM_STAT_SYNCS : Fld := ⟨31, 16⟩
abbrev CAN_TM_STAT_SEQ : Fld := ⟨7, 0⟩
abbrev CAN_NEW_BITS : Fld := ⟨31, 0⟩
abbrev CAN_OWN_BITS : Fld := ⟨31, 0⟩
abbrev CAN_OBJ_OWN : Fld := ⟨31, 31⟩
abbrev CAN_OBJ_DIR : Fld := ⟨30, 30⟩
abbrev CAN_OBJ_FDF : Fld := ⟨29, 29⟩
abbrev CAN_OBJ_BRS : Fld := ⟨28, 28⟩
abbrev CAN_OBJ_ESI : Fld := ⟨27, 27⟩
abbrev CAN_OBJ_ONESHOT : Fld := ⟨26, 26⟩
abbrev CAN_OBJ_ABORT : Fld := ⟨25, 25⟩
abbrev CAN_OBJ_NEW : Fld := ⟨24, 24⟩
abbrev CAN_OBJ_OVR : Fld := ⟨23, 23⟩
abbrev CAN_OBJ_TXERR : Fld := ⟨22, 22⟩
abbrev CAN_OBJ_DLC : Fld := ⟨3, 0⟩

/-! ### PSYNC -/
abbrev PS_STAT_RVALID : Fld := ⟨31, 16⟩
abbrev PS_STAT_CAL_FAIL : Fld := ⟨1, 1⟩
abbrev PS_STAT_CAL_DONE : Fld := ⟨0, 0⟩
abbrev PS_CAL_ROUNDS : Fld := ⟨31, 16⟩
abbrev PS_CAL_BG_EN : Fld := ⟨0, 0⟩
abbrev PS_RSTALE_HOLD_F : Fld := ⟨31, 16⟩
abbrev PS_RSTALE_STALE_F : Fld := ⟨15, 0⟩
abbrev TRG_CFG_SRC : Fld := ⟨13, 8⟩
abbrev TRG_CFG_POL : Fld := ⟨4, 4⟩
abbrev TRG_CFG_DIR : Fld := ⟨3, 2⟩
abbrev TRG_CFG_MODE : Fld := ⟨1, 1⟩
abbrev TRG_CFG_EN : Fld := ⟨0, 0⟩
abbrev TRG_WIDTH_WIDTH : Fld := ⟨17, 0⟩
abbrev TRG_DELAY_DELAY : Fld := ⟨31, 0⟩
abbrev TRG_STAT_CFG_ERR : Fld := ⟨8, 8⟩
abbrev TRG_STAT_DONE : Fld := ⟨7, 7⟩
abbrev TRG_STAT_FULL : Fld := ⟨6, 6⟩
abbrev TRG_STAT_OVL : Fld := ⟨5, 5⟩
abbrev TRG_STAT_SEQERR : Fld := ⟨4, 4⟩
abbrev TRG_STAT_MISS : Fld := ⟨3, 3⟩
abbrev TRG_STAT_LATE : Fld := ⟨2, 2⟩
abbrev TRG_STAT_HOLD : Fld := ⟨1, 1⟩
abbrev TRG_STAT_ACTIVE : Fld := ⟨0, 0⟩
abbrev TRG_LIST_FLUSH : Fld := ⟨31, 31⟩
abbrev TRG_LIST_RD : Fld := ⟨27, 16⟩
abbrev TRG_LIST_LEVEL : Fld := ⟨12, 0⟩
abbrev TRG_LDATA_LO_DATA : Fld := ⟨31, 0⟩
abbrev TRG_LDATA_HI_DATA : Fld := ⟨31, 0⟩
abbrev TRG_COUNT_COUNT : Fld := ⟨31, 0⟩
abbrev TRG_START_LO_START : Fld := ⟨31, 0⟩
abbrev TRG_START_HI_START : Fld := ⟨31, 0⟩
abbrev TRG_PITCH_LO_PITCH : Fld := ⟨31, 0⟩
abbrev TRG_PITCH_HI_PITCH : Fld := ⟨31, 0⟩
abbrev TRG_FIRED_COUNT : Fld := ⟨31, 0⟩
abbrev TRG_ERRCNT_LATE : Fld := ⟨31, 16⟩
abbrev TRG_ERRCNT_MISS : Fld := ⟨15, 0⟩
abbrev EMU_CFG_LAG_MAX : Fld := ⟨31, 16⟩
abbrev EMU_CFG_SRC : Fld := ⟨13, 8⟩
abbrev EMU_CFG_INV : Fld := ⟨1, 1⟩
abbrev EMU_CFG_EN : Fld := ⟨0, 0⟩
abbrev EMU_NUM_NUM : Fld := ⟨31, 0⟩
abbrev EMU_DEN_DEN : Fld := ⟨31, 0⟩
abbrev EMU_Z_ZPOS : Fld := ⟨31, 16⟩
abbrev EMU_Z_ZPER : Fld := ⟨15, 0⟩
abbrev EMU_STAT_LAG : Fld := ⟨31, 16⟩
abbrev EMU_STAT_CFG_ERR : Fld := ⟨3, 3⟩
abbrev EMU_STAT_HOLD : Fld := ⟨2, 2⟩
abbrev EMU_STAT_OVR : Fld := ⟨1, 1⟩
abbrev EMU_STAT_LAGGING : Fld := ⟨0, 0⟩
abbrev EMU_CNT_C : Fld := ⟨31, 0⟩
abbrev LAT_CFG_FILT : Fld := ⟨23, 16⟩
abbrev LAT_CFG_REF : Fld := ⟨13, 8⟩
abbrev LAT_CFG_REG_EN : Fld := ⟨3, 3⟩
abbrev LAT_CFG_EDGE : Fld := ⟨2, 1⟩
abbrev LAT_CFG_EN : Fld := ⟨0, 0⟩
abbrev LAT_STAT_POP : Fld := ⟨31, 31⟩
abbrev LAT_STAT_LEVEL : Fld := ⟨30, 24⟩
abbrev LAT_STAT_LOST : Fld := ⟨23, 8⟩
abbrev LAT_STAT_CSAT : Fld := ⟨3, 3⟩
abbrev LAT_STAT_REFINV : Fld := ⟨2, 2⟩
abbrev LAT_STAT_OVF : Fld := ⟨1, 1⟩
abbrev LAT_STAT_NONEMPTY : Fld := ⟨0, 0⟩
abbrev LAT_MASK_LO_MASK : Fld := ⟨31, 0⟩
abbrev LAT_MASK_HI_MASK : Fld := ⟨31, 0⟩
abbrev LAT_MP_LO_MP : Fld := ⟨31, 0⟩
abbrev LAT_MP_HI_MP : Fld := ⟨31, 0⟩
abbrev LAT_MO_LO_MO : Fld := ⟨31, 0⟩
abbrev LAT_MO_HI_MO : Fld := ⟨31, 0⟩
abbrev LAT_CORR_LO_C : Fld := ⟨31, 0⟩
abbrev LAT_CORR_HI_EVT : Fld := ⟨23, 16⟩
abbrev LAT_CORR_HI_C : Fld := ⟨15, 0⟩
abbrev TIM_CFG_STP : Fld := ⟨15, 12⟩
abbrev TIM_CFG_STA : Fld := ⟨11, 8⟩
abbrev TIM_CFG_STP_EDGE : Fld := ⟨2, 2⟩
abbrev TIM_CFG_STA_EDGE : Fld := ⟨1, 1⟩
abbrev TIM_CFG_EN : Fld := ⟨0, 0⟩
abbrev TIM_RSTAT_VALID : Fld := ⟨31, 31⟩
abbrev TIM_RSTAT_COINCIDENT : Fld := ⟨30, 30⟩
abbrev TIM_RSTAT_ORDER : Fld := ⟨29, 29⟩
abbrev TIM_RSTAT_SAT : Fld := ⟨28, 28⟩
abbrev TIM_RSTAT_LEVEL : Fld := ⟨20, 16⟩
abbrev TIM_RSTAT_REPL_S : Fld := ⟨2, 2⟩
abbrev TIM_RSTAT_NOSTART_S : Fld := ⟨1, 1⟩
abbrev TIM_RSTAT_OVF : Fld := ⟨0, 0⟩
abbrev TIM_RES_INTERVAL : Fld := ⟨31, 0⟩

/-! ### ACQ -/
abbrev ACQ_CTRL_FORCE : Fld := ⟨2, 2⟩
abbrev ACQ_CTRL_STOP : Fld := ⟨1, 1⟩
abbrev ACQ_CTRL_START : Fld := ⟨0, 0⟩
abbrev ACQ_STAT_CFG_ERR : Fld := ⟨8, 8⟩
abbrev ACQ_STAT_CAUSE : Fld := ⟨7, 4⟩
abbrev ACQ_STAT_STATE : Fld := ⟨2, 0⟩
abbrev ACQ_CFG_TMODE : Fld := ⟨16, 16⟩
abbrev ACQ_CFG_DECIM : Fld := ⟨15, 0⟩
abbrev ACQ_PT_TICK : Fld := ⟨17, 0⟩
abbrev ACQ_PRE_RECORDS : Fld := ⟨20, 0⟩
abbrev ACQ_POST_RECORDS : Fld := ⟨20, 0⟩
abbrev ACQ_DEPTH_VALUE : Fld := ⟨31, 0⟩
abbrev ACQ_OLDEST_VALUE : Fld := ⟨31, 0⟩
abbrev ACQ_TRIGREC_VALUE : Fld := ⟨31, 0⟩
abbrev ACQ_COUNT_VALUE : Fld := ⟨31, 0⟩
abbrev ACQ_TFLIGHT_LO_FLIGHT : Fld := ⟨31, 0⟩
abbrev ACQ_TFLIGHT_HI_FLIGHT : Fld := ⟨31, 0⟩
abbrev ACQ_TVAL_LO_BITS : Fld := ⟨31, 0⟩
abbrev ACQ_TVAL_HI_BITS : Fld := ⟨31, 0⟩
abbrev ACQ_TMASK_LO_BITS : Fld := ⟨31, 0⟩
abbrev ACQ_TMASK_HI_BITS : Fld := ⟨31, 0⟩
abbrev ACQ_P_SRC_EN : Fld := ⟨31, 31⟩
abbrev ACQ_P_SRC_SIGNED : Fld := ⟨30, 30⟩
abbrev ACQ_P_SRC_AVG : Fld := ⟨29, 26⟩
abbrev ACQ_P_SRC_W : Fld := ⟨25, 21⟩
abbrev ACQ_P_SRC_POS : Fld := ⟨20, 15⟩
abbrev ACQ_P_SRC_KIND : Fld := ⟨12, 11⟩
abbrev ACQ_P_SRC_SLOT : Fld := ⟨7, 0⟩
abbrev ACQ_P_COND_OP : Fld := ⟨2, 0⟩
abbrev ACQ_P_LEVEL_LEVEL : Fld := ⟨31, 0⟩
abbrev ACQ_P_LAST_SAMPLE : Fld := ⟨31, 0⟩
abbrev ACQ_M_CFG_EN : Fld := ⟨31, 31⟩
abbrev ACQ_M_CFG_TRIG : Fld := ⟨30, 30⟩
abbrev ACQ_M_CFG_SYNC : Fld := ⟨29, 24⟩
abbrev ACQ_M_CFG_PROBE : Fld := ⟨21, 16⟩
abbrev ACQ_M_CFG_LEN : Fld := ⟨10, 0⟩
abbrev ACQ_M_STAT_VCNT : Fld := ⟨31, 16⟩
abbrev ACQ_M_STAT_SKIP : Fld := ⟨15, 10⟩
abbrev ACQ_M_STAT_INDEX : Fld := ⟨9, 0⟩
abbrev ACQ_M_UP_LIMIT : Fld := ⟨31, 0⟩
abbrev ACQ_M_LO_LIMIT : Fld := ⟨31, 0⟩

/-! ### PERF -/
abbrev PERF_CLR_TOW : Fld := ⟨3, 3⟩
abbrev PERF_CLR_LE : Fld := ⟨2, 2⟩
abbrev PERF_CLR_SV1 : Fld := ⟨1, 1⟩
abbrev PERF_CLR_SV0 : Fld := ⟨0, 0⟩
abbrev PERF_PERM_TAG : Fld := ⟨5, 5⟩
abbrev PERF_PERM_HIST : Fld := ⟨4, 4⟩
abbrev PERF_PERM_TOW : Fld := ⟨3, 3⟩
abbrev PERF_PERM_LE : Fld := ⟨2, 2⟩
abbrev PERF_PERM_SVO : Fld := ⟨1, 1⟩
abbrev PERF_PERM_SVC : Fld := ⟨0, 0⟩
abbrev TAG_CFG_EN : Fld := ⟨31, 31⟩
abbrev TAG_CFG_J : Fld := ⟨19, 16⟩
abbrev TAG_CFG_BASE : Fld := ⟨15, 0⟩
abbrev TAG_LFSR_STATE : Fld := ⟨15, 0⟩
abbrev TAG_STAT_MISSED : Fld := ⟨31, 16⟩
abbrev TAG_STAT_LEVEL : Fld := ⟨4, 0⟩
abbrev TAG_CLR_EMPTY : Fld := ⟨0, 0⟩
abbrev HIST_CFG_KIND : Fld := ⟨26, 24⟩
abbrev HIST_CFG_SHIFT : Fld := ⟨20, 16⟩
abbrev HIST_CFG_SEL : Fld := ⟨9, 0⟩
abbrev HIST_BIN_COUNT : Fld := ⟨31, 0⟩

/-! ### SAFE -/
abbrev SAFE_STAT_LOAD_CODE : Fld := ⟨23, 16⟩
abbrev SAFE_STAT_CONF_ERR : Fld := ⟨5, 5⟩
abbrev SAFE_STAT_SD : Fld := ⟨4, 4⟩
abbrev SAFE_STAT_SOLO : Fld := ⟨3, 3⟩
abbrev SAFE_STAT_CHECK_VALID : Fld := ⟨2, 2⟩
abbrev SAFE_STAT_LOADED : Fld := ⟨1, 1⟩
abbrev SAFE_STAT_ARMED : Fld := ⟨0, 0⟩
abbrev SAFE_CTRL_DISARM : Fld := ⟨1, 1⟩
abbrev SAFE_CTRL_LOAD : Fld := ⟨0, 0⟩
abbrev SAFE_LOAD_ADDR_ADDR : Fld := ⟨31, 2⟩
abbrev SAFE_CHECK_CHECK : Fld := ⟨31, 0⟩
abbrev SAFE_CONFIRM_VALUE : Fld := ⟨31, 0⟩
abbrev SAFE_STO_LAND_B : Fld := ⟨26, 26⟩
abbrev SAFE_STO_LAND_A : Fld := ⟨25, 25⟩
abbrev SAFE_STO_RESTART_WAIT : Fld := ⟨24, 24⟩
abbrev SAFE_STO_GRP_B : Fld := ⟨23, 12⟩
abbrev SAFE_STO_GRP_A : Fld := ⟨11, 0⟩
abbrev SAFE_PAIR_STATE : Fld := ⟨31, 0⟩
abbrev SAFE_SO_FAULT : Fld := ⟨11, 8⟩
abbrev SAFE_SO_LS : Fld := ⟨7, 4⟩
abbrev SAFE_SO_HS : Fld := ⟨3, 0⟩
abbrev SAFE_CMP_VALID : Fld := ⟨31, 31⟩
abbrev SAFE_CMP_INDEX : Fld := ⟨23, 16⟩
abbrev SAFE_CMP_CYCLE : Fld := ⟨15, 0⟩
abbrev SAFE_RESTART_PAIR : Fld := ⟨23, 16⟩
abbrev SAFE_RESTART_GROUP : Fld := ⟨11, 0⟩
abbrev SAFE_REQ_SS2 : Fld := ⟨31, 16⟩
abbrev SAFE_REQ_SS1 : Fld := ⟨15, 0⟩
abbrev SAFE_PATH_B_ACT : Fld := ⟨23, 12⟩
abbrev SAFE_PATH_A_ACT : Fld := ⟨11, 0⟩
abbrev SAFE_AX_STAT_VIOL : Fld := ⟨31, 24⟩
abbrev SAFE_AX_STAT_SLS_J : Fld := ⟨17, 16⟩
abbrev SAFE_AX_STAT_SRC_INV : Fld := ⟨15, 15⟩
abbrev SAFE_AX_STAT_ACTIVE : Fld := ⟨14, 8⟩
abbrev SAFE_SDT_ADDR_ADDR : Fld := ⟨31, 2⟩
abbrev SAFE_SDT_CTRL_LOAD : Fld := ⟨0, 0⟩
abbrev SAFE_SDT_STAT_LOAD_CODE : Fld := ⟨23, 16⟩
abbrev SAFE_SDT_STAT_CAN_LOST : Fld := ⟨4, 4⟩
abbrev SAFE_SDT_STAT_TL_LOST : Fld := ⟨3, 3⟩
abbrev SAFE_SDT_STAT_CHECK_VALID : Fld := ⟨2, 2⟩
abbrev SAFE_SDT_STAT_LOADED : Fld := ⟨1, 1⟩
abbrev SAFE_SDT_STAT_ARMED : Fld := ⟨0, 0⟩
abbrev SAFE_SDT_CHECK_CHECK : Fld := ⟨31, 0⟩
abbrev SAFE_SDT_CONFIRM_VALUE : Fld := ⟨31, 0⟩
abbrev SAFE_RX_STAT_MISMATCH : Fld := ⟨31, 24⟩
abbrev SAFE_RX_STAT_MISS_B : Fld := ⟨23, 16⟩
abbrev SAFE_RX_STAT_MISS_A : Fld := ⟨15, 8⟩
abbrev SAFE_RX_STAT_INVALID : Fld := ⟨7, 4⟩
abbrev SAFE_RX_STAT_DEMAND : Fld := ⟨3, 3⟩
abbrev SAFE_RX_STAT_STATE : Fld := ⟨2, 0⟩

/-! ### FIO -/
abbrev FIO_STAT_LP_OV_S : Fld := ⟨7, 7⟩
abbrev FIO_STAT_LP_UV_S : Fld := ⟨6, 6⟩
abbrev FIO_STAT_LP_OV : Fld := ⟨5, 5⟩
abbrev FIO_STAT_LP_UV : Fld := ⟨4, 4⟩
abbrev FIO_STAT_FS_S : Fld := ⟨3, 3⟩
abbrev FIO_STAT_FS_ACT : Fld := ⟨2, 2⟩
abbrev FIO_STAT_LINK_OK : Fld := ⟨1, 1⟩
abbrev FIO_STAT_FPWR_OK : Fld := ⟨0, 0⟩
abbrev FIO_LPLUS_CODE : Fld := ⟨11, 0⟩
abbrev FIO_DI_STATE : Fld := ⟨31, 0⟩
abbrev FIO_DIRAW_STATE : Fld := ⟨31, 0⟩
abbrev FIO_DO_CMD : Fld := ⟨15, 0⟩
abbrev FIO_DO_SET_BITS : Fld := ⟨15, 0⟩
abbrev FIO_DO_CLR_BITS : Fld := ⟨15, 0⟩
abbrev FIO_DO_FS_FS : Fld := ⟨15, 0⟩
abbrev FIO_DO_ACT_HELD : Fld := ⟨31, 16⟩
abbrev FIO_DO_ACT_ON : Fld := ⟨15, 0⟩
abbrev FIO_DO_FLT_OW : Fld := ⟨31, 16⟩
abbrev FIO_DO_FLT_OL : Fld := ⟨15, 0⟩
abbrev FIO_DO_OT_OT : Fld := ⟨15, 0⟩
abbrev FIO_DO_CFG_OWOFF_EN : Fld := ⟨31, 16⟩
abbrev FIO_DO_CFG_RETRY : Fld := ⟨15, 0⟩
abbrev FIO_SO_STAT_VINV : Fld := ⟨4, 4⟩
abbrev FIO_SO_STAT_VOUT : Fld := ⟨3, 0⟩
abbrev FIO_TP_PER : Fld := ⟨23, 16⟩
abbrev FIO_TP_W : Fld := ⟨13, 4⟩
abbrev FIO_TP_EN_1 : Fld := ⟨1, 1⟩
abbrev FIO_TP_EN_0 : Fld := ⟨0, 0⟩
abbrev FIO_TPSTAT_CROSS : Fld := ⟨31, 16⟩
abbrev FIO_TPSTAT_PULSE_OK : Fld := ⟨15, 0⟩
abbrev FIO_LINKCNT_DOWN : Fld := ⟨31, 16⟩
abbrev FIO_LINKCNT_UP : Fld := ⟨15, 0⟩
abbrev FIO_CNT_CLR_CLR : Fld := ⟨7, 0⟩
abbrev FIO_DI_CFG_CNT_MODE : Fld := ⟨31, 30⟩
abbrev FIO_DI_CFG_EDGE : Fld := ⟨29, 28⟩
abbrev FIO_DI_CFG_BYPASS : Fld := ⟨27, 27⟩
abbrev FIO_DI_CFG_GATE : Fld := ⟨26, 24⟩
abbrev FIO_DI_CFG_TYPE : Fld := ⟨16, 16⟩
abbrev FIO_DI_CFG_FILT : Fld := ⟨14, 0⟩
abbrev FIO_CNT_COUNT : Fld := ⟨31, 0⟩
abbrev FIO_FREQ_FREQ : Fld := ⟨31, 0⟩

/-! ### HOST -/
abbrev HOST_BOOT_STAT_FTYPE : Fld := ⟨31, 28⟩
abbrev HOST_BOOT_STAT_PTYPE : Fld := ⟨27, 24⟩
abbrev HOST_BOOT_STAT_FCODE : Fld := ⟨23, 16⟩
abbrev HOST_BOOT_STAT_PCODE : Fld := ⟨15, 8⟩
abbrev HOST_BOOT_STAT_TT_FOREIGN : Fld := ⟨4, 4⟩
abbrev HOST_BOOT_STAT_RECOVERY : Fld := ⟨3, 3⟩
abbrev HOST_BOOT_STAT_RESTRICT : Fld := ⟨2, 2⟩
abbrev HOST_BOOT_STAT_FALLBACK : Fld := ⟨1, 1⟩
abbrev HOST_BOOT_STAT_DONE : Fld := ⟨0, 0⟩
abbrev HOST_BOOT_SET_LOADED : Fld := ⟨7, 4⟩
abbrev HOST_BOOT_SET_SLOT : Fld := ⟨3, 0⟩
abbrev HOST_IMG_ID : Fld := ⟨31, 0⟩
abbrev HOST_CTRL_VERIFY : Fld := ⟨1, 1⟩
abbrev HOST_CTRL_REBOOT : Fld := ⟨0, 0⟩
abbrev HOST_NOR_CTRL_OP : Fld := ⟨1, 0⟩
abbrev HOST_NOR_ADDR_VALUE : Fld := ⟨31, 0⟩
abbrev HOST_NOR_SRC_VALUE : Fld := ⟨31, 0⟩
abbrev HOST_NOR_LEN_VALUE : Fld := ⟨31, 0⟩
abbrev HOST_NOR_STAT_VBUSY : Fld := ⟨16, 16⟩
abbrev HOST_NOR_STAT_VCODE : Fld := ⟨15, 8⟩
abbrev HOST_NOR_STAT_CODE : Fld := ⟨7, 0⟩
abbrev HOST_KEY_REVOKED : Fld := ⟨7, 4⟩
abbrev HOST_KEY_PROG : Fld := ⟨3, 0⟩
abbrev HOST_KEY_CTRL_GO : Fld := ⟨31, 31⟩
abbrev HOST_KEY_CTRL_OP : Fld := ⟨9, 8⟩
abbrev HOST_KEY_CTRL_SLOT : Fld := ⟨1, 0⟩
abbrev HOST_WHARF_CFG_LAT : Fld := ⟨7, 0⟩
abbrev HOST_WHARF_ACC_WR_RUN : Fld := ⟨2, 2⟩
abbrev HOST_WHARF_ACC_WR_EN : Fld := ⟨1, 1⟩
abbrev HOST_WHARF_ACC_RD_EN : Fld := ⟨0, 0⟩
abbrev HOST_WIRQ_EN : Fld := ⟨18, 16⟩
abbrev HOST_WIRQ_FAULT : Fld := ⟨2, 2⟩
abbrev HOST_WIRQ_BOOT : Fld := ⟨1, 1⟩
abbrev HOST_WIRQ_DB : Fld := ⟨0, 0⟩
abbrev HOST_DB_HOST_VALUE : Fld := ⟨31, 0⟩
abbrev HOST_DB_FW_VALUE : Fld := ⟨31, 0⟩
abbrev HOST_PS_CTRL_FIOCFG : Fld := ⟨4, 4⟩
abbrev HOST_PS_CTRL_IDENT : Fld := ⟨3, 3⟩
abbrev HOST_PS_CTRL_COMPACT : Fld := ⟨2, 2⟩
abbrev HOST_PS_CTRL_READ : Fld := ⟨1, 1⟩
abbrev HOST_PS_CTRL_WRITE : Fld := ⟨0, 0⟩
abbrev HOST_PS_KEY_VALUE : Fld := ⟨31, 0⟩
abbrev HOST_PS_ADDR_VALUE : Fld := ⟨31, 0⟩
abbrev HOST_PS_LEN_VALUE : Fld := ⟨31, 0⟩
abbrev HOST_PS_STAT_COMPACTING : Fld := ⟨16, 16⟩
abbrev HOST_PS_STAT_CODE : Fld := ⟨7, 0⟩
abbrev HOST_PS_VER_VALUE : Fld := ⟨31, 0⟩
abbrev HOST_PS_FREE_VALUE : Fld := ⟨31, 0⟩

/-! ### AXIS -/
abbrev PWM_CTRL_SLOT_EN : Fld := ⟨15, 12⟩
abbrev PWM_CTRL_SAFE_REQ : Fld := ⟨4, 4⟩
abbrev PWM_CTRL_BORDER : Fld := ⟨3, 3⟩
abbrev PWM_CTRL_UPD : Fld := ⟨2, 2⟩
abbrev PWM_CTRL_EN : Fld := ⟨0, 0⟩
abbrev PWM_PERIOD_PERIOD : Fld := ⟨24, 0⟩
abbrev PWM_CPF_BURST_C : Fld := ⟨26, 16⟩
abbrev PWM_CPF_CPF : Fld := ⟨10, 0⟩
abbrev PWM_PHASE_PHASE : Fld := ⟨24, 0⟩
abbrev PWM_MINPW_MINPW : Fld := ⟨11, 0⟩
abbrev PWM_SAFE_SS : Fld := ⟨7, 0⟩
abbrev PWM_DLY_FALL : Fld := ⟨27, 16⟩
abbrev PWM_DLY_RISE : Fld := ⟨11, 0⟩
abbrev PWM_STAT_CFG_ERR : Fld := ⟨7, 7⟩
abbrev PWM_STAT_STO : Fld := ⟨6, 6⟩
abbrev PWM_STAT_SAFE_CAUSE : Fld := ⟨5, 3⟩
abbrev PWM_STAT_SAFE : Fld := ⟨2, 2⟩
abbrev PWM_STAT_SHADOW_VALID : Fld := ⟨1, 1⟩
abbrev PWM_STAT_ACTIVE : Fld := ⟨0, 0⟩
abbrev PWM_SUPCNT_COUNT : Fld := ⟨31, 0⟩
abbrev PWM_NOLOAD_COUNT : Fld := ⟨31, 0⟩
abbrev PWM_RISE_EDGE : Fld := ⟨31, 0⟩
abbrev PWM_FALL_EDGE : Fld := ⟨31, 0⟩
abbrev CL_CFG_VBUS_CH : Fld := ⟨21, 16⟩
abbrev CL_CFG_VBUS_SLOT : Fld := ⟨13, 12⟩
abbrev CL_CFG_VBUS_SRC : Fld := ⟨9, 8⟩
abbrev CL_CFG_LB_ACT : Fld := ⟨5, 4⟩
abbrev CL_CFG_VLIM_ACT : Fld := ⟨1, 0⟩
abbrev CL_LIMIT_LB_T : Fld := ⟨23, 16⟩
abbrev CL_LIMIT_VLIM_T : Fld := ⟨15, 0⟩
abbrev CL_STAT_VLIM_RUN : Fld := ⟨31, 16⟩
abbrev CL_STAT_VLIM_S : Fld := ⟨9, 9⟩
abbrev CL_STAT_DCLAMP : Fld := ⟨8, 8⟩
abbrev CL_STAT_REF : Fld := ⟨7, 7⟩
abbrev CL_STAT_ANG : Fld := ⟨6, 6⟩
abbrev CL_STAT_CLIP : Fld := ⟨5, 5⟩
abbrev CL_STAT_FRZ : Fld := ⟨4, 4⟩
abbrev CL_STAT_UMAX : Fld := ⟨3, 3⟩
abbrev CL_STAT_LOST : Fld := ⟨2, 2⟩
abbrev CL_STAT_SINGLE : Fld := ⟨1, 1⟩
abbrev CL_STAT_VLIM : Fld := ⟨0, 0⟩
abbrev CL_SBCNT_COUNT : Fld := ⟨31, 0⟩
abbrev CL_LBCNT_COUNT : Fld := ⟨31, 0⟩
abbrev CL_VLIMCNT_COUNT : Fld := ⟨31, 0⟩
abbrev CL_VBUS_FW_VBUS : Fld := ⟨23, 0⟩
abbrev GATE_CFG_SLOT3_FN : Fld := ⟨11, 10⟩
abbrev GATE_CFG_SC_SCOPE : Fld := ⟨9, 8⟩
abbrev GATE_CFG_SC_SOFT : Fld := ⟨4, 4⟩
abbrev GATE_CFG_EXT : Fld := ⟨0, 0⟩
abbrev GATE_BOOT_MASK : Fld := ⟨15, 12⟩
abbrev GATE_BOOT_PRECHG : Fld := ⟨11, 0⟩
abbrev GATE_STAT_BUV : Fld := ⟨15, 12⟩
abbrev GATE_STAT_BOOT_OK : Fld := ⟨11, 8⟩
abbrev GATE_STAT_BOOT_FAIL : Fld := ⟨2, 2⟩
abbrev GATE_STAT_BOOT_DONE : Fld := ⟨1, 1⟩
abbrev GATE_STAT_PRECHG_BUSY : Fld := ⟨0, 0⟩
abbrev GATE_BUVCNT_COUNT : Fld := ⟨31, 0⟩
abbrev SC_CFG_EN : Fld := ⟨27, 24⟩
abbrev SC_CFG_BLANK : Fld := ⟨20, 16⟩
abbrev SC_CFG_THR : Fld := ⟨7, 0⟩
abbrev SC_STAT_POL : Fld := ⟨11, 8⟩
abbrev SC_STAT_LATCH : Fld := ⟨3, 0⟩
abbrev SC_CNT_COUNT : Fld := ⟨31, 0⟩
abbrev SNS_CFG_SDLY : Fld := ⟨29, 24⟩
abbrev SNS_CFG_MDIV : Fld := ⟨21, 16⟩
abbrev SNS_CFG_MCLK_DIR : Fld := ⟨14, 14⟩
abbrev SNS_CFG_OSR : Fld := ⟨13, 12⟩
abbrev SNS_CFG_NM1 : Fld := ⟨11, 8⟩
abbrev SNS_CFG_GAIN : Fld := ⟨7, 0⟩
abbrev SNS_CAL_START : Fld := ⟨31, 31⟩
abbrev SNS_CAL_CAL_VQ : Fld := ⟨23, 16⟩
abbrev SNS_CAL_CAL_CQ : Fld := ⟨15, 8⟩
abbrev SNS_CAL_CAL_WAIT : Fld := ⟨7, 0⟩
abbrev SNS_CALSTAT_CODE : Fld := ⟨7, 0⟩
abbrev SNS_OFS_OFS : Fld := ⟨23, 0⟩
abbrev SNS_GCAL_GCAL : Fld := ⟨23, 0⟩
abbrev SNS_I_I : Fld := ⟨23, 0⟩
abbrev SNS_PHV_V : Fld := ⟨23, 0⟩
abbrev BRK_CFG_V_FULL : Fld := ⟨27, 16⟩
abbrev BRK_CFG_V_START : Fld := ⟨11, 0⟩
abbrev BRK_LIM_DMAX : Fld := ⟨31, 24⟩
abbrev BRK_LIM_WIN : Fld := ⟨20, 16⟩
abbrev BRK_LIM_AVG : Fld := ⟨15, 0⟩
abbrev BRK_STAT_LAST_AVG : Fld := ⟨31, 16⟩
abbrev BRK_STAT_OL : Fld := ⟨1, 1⟩
abbrev BRK_STAT_ACTIVE : Fld := ⟨0, 0⟩
abbrev HBRK_CFG_PULL_D : Fld := ⟨31, 24⟩
abbrev HBRK_CFG_HOLD_D : Fld := ⟨23, 16⟩
abbrev HBRK_CFG_PULL_T : Fld := ⟨15, 0⟩
abbrev HBRK_CTRL_PULLING : Fld := ⟨1, 1⟩
abbrev HBRK_CTRL_REL : Fld := ⟨0, 0⟩
abbrev LP_CFG_HOLD_ACT : Fld := ⟨13, 12⟩
abbrev LP_CFG_WU_ACT : Fld := ⟨9, 8⟩
abbrev LP_CFG_SAT_ACT : Fld := ⟨5, 4⟩
abbrev LP_CFG_FE_ACT : Fld := ⟨1, 0⟩
abbrev LP_LIMIT_SAT_T : Fld := ⟨31, 16⟩
abbrev LP_LIMIT_WU_T : Fld := ⟨15, 8⟩
abbrev LP_LIMIT_FE_T : Fld := ⟨7, 0⟩
abbrev LP_HOLD_HOLD_T : Fld := ⟨15, 0⟩
abbrev LP_STAT_HOLD_RUN : Fld := ⟨31, 16⟩
abbrev LP_STAT_WIN : Fld := ⟨15, 12⟩
abbrev LP_STAT_INJ_AB_S : Fld := ⟨7, 7⟩
abbrev LP_STAT_CNT_S : Fld := ⟨6, 6⟩
abbrev LP_STAT_TV0_S : Fld := ⟨5, 5⟩
abbrev LP_STAT_HOLD_S : Fld := ⟨4, 4⟩
abbrev LP_STAT_TRK_S : Fld := ⟨3, 3⟩
abbrev LP_STAT_WU_S : Fld := ⟨2, 2⟩
abbrev LP_STAT_SAT_S : Fld := ⟨1, 1⟩
abbrev LP_STAT_FE_S : Fld := ⟨0, 0⟩
abbrev LP_RUNS_SAT_RUN : Fld := ⟨31, 16⟩
abbrev LP_RUNS_WU_RUN : Fld := ⟨15, 8⟩
abbrev LP_RUNS_FE_RUN : Fld := ⟨7, 0⟩
abbrev LP_REPORT_REPORT : Fld := ⟨15, 0⟩
abbrev LP_SWCNT_COUNT : Fld := ⟨31, 0⟩
abbrev STP_CFG_SG_ACT : Fld := ⟨9, 8⟩
abbrev STP_CFG_DECAY : Fld := ⟨5, 4⟩
abbrev STP_CFG_CLASS : Fld := ⟨1, 0⟩
abbrev STP_CHOP_TFAST : Fld := ⟨31, 24⟩
abbrev STP_CHOP_TOFF_MIN : Fld := ⟨23, 16⟩
abbrev STP_CHOP_TON_MIN : Fld := ⟨12, 8⟩
abbrev STP_CHOP_HYST : Fld := ⟨6, 0⟩
abbrev STP_LIMIT_SG_T : Fld := ⟨15, 0⟩
abbrev STP_STAT_SG_RUN : Fld := ⟨31, 16⟩
abbrev STP_STAT_MODE : Fld := ⟨5, 5⟩
abbrev STP_STAT_NOCHOP_B_S : Fld := ⟨4, 4⟩
abbrev STP_STAT_NOCHOP_A_S : Fld := ⟨3, 3⟩
abbrev STP_STAT_STALL_S : Fld := ⟨2, 2⟩
abbrev STP_STAT_STALL : Fld := ⟨0, 0⟩
abbrev STP_DAC_POL_B : Fld := ⟨26, 26⟩
abbrev STP_DAC_CODE_B : Fld := ⟨25, 16⟩
abbrev STP_DAC_POL_A : Fld := ⟨10, 10⟩
abbrev STP_DAC_CODE_A : Fld := ⟨9, 0⟩
abbrev STP_OFS_OFS_B : Fld := ⟨15, 8⟩
abbrev STP_OFS_OFS_A : Fld := ⟨7, 0⟩
abbrev STP_STATE_B : Fld := ⟨5, 4⟩
abbrev STP_STATE_A : Fld := ⟨1, 0⟩
abbrev STP_HOVCNT_COUNT : Fld := ⟨31, 0⟩
abbrev STP_STALLCNT_COUNT : Fld := ⟨31, 0⟩
abbrev FB_CFG_FBF_ACT : Fld := ⟨29, 28⟩
abbrev FB_CFG_AUTO_RES : Fld := ⟨24, 24⟩
abbrev FB_CFG_FILT : Fld := ⟨23, 16⟩
abbrev FB_CFG_ZCHK : Fld := ⟨12, 12⟩
abbrev FB_CFG_ZQ : Fld := ⟨11, 10⟩
abbrev FB_CFG_ZQ_EN : Fld := ⟨9, 9⟩
abbrev FB_CFG_INTERP : Fld := ⟨8, 8⟩
abbrev FB_CFG_ASRC : Fld := ⟨5, 5⟩
abbrev FB_CFG_INV : Fld := ⟨4, 4⟩
abbrev FB_CFG_MODE : Fld := ⟨2, 0⟩
abbrev FB_SER_LEN : Fld := ⟨31, 26⟩
abbrev FB_SER_GRAY : Fld := ⟨25, 25⟩
abbrev FB_SER_DIV : Fld := ⟨23, 16⟩
abbrev FB_SER_SDEL : Fld := ⟨13, 8⟩
abbrev FB_SER_EVM1 : Fld := ⟨5, 0⟩
abbrev FB_SER2_SER_LAT : Fld := ⟨31, 24⟩
abbrev FB_SER2_TOUT : Fld := ⟨23, 16⟩
abbrev FB_SER2_TM : Fld := ⟨15, 8⟩
abbrev FB_SER2_SER_T : Fld := ⟨7, 0⟩
abbrev FB_JMAX_JMAX : Fld := ⟨31, 0⟩
abbrev FB_LIM_ILL_MAX : Fld := ⟨31, 24⟩
abbrev FB_LIM_ILL_WIN : Fld := ⟨23, 20⟩
abbrev FB_LIM_HF_T : Fld := ⟨15, 8⟩
abbrev FB_LIM_CF_T : Fld := ⟨7, 0⟩
abbrev FB_TIME_TV_MAX : Fld := ⟨31, 24⟩
abbrev FB_TIME_SI : Fld := ⟨23, 0⟩
abbrev FB_CPR_CPR : Fld := ⟨31, 0⟩
abbrev FB_EL_PP : Fld := ⟨6, 0⟩
abbrev FB_HALL_HFILT : Fld := ⟨31, 24⟩
abbrev FB_HALL_HMAP : Fld := ⟨23, 0⟩
abbrev FB_CTRL_AL_ABORT : Fld := ⟨4, 4⟩
abbrev FB_CTRL_AL_END : Fld := ⟨3, 3⟩
abbrev FB_CTRL_AL_GO : Fld := ⟨2, 2⟩
abbrev FB_CTRL_AL_START : Fld := ⟨1, 1⟩
abbrev FB_CTRL_RESUME : Fld := ⟨0, 0⟩
abbrev FB_STAT_PAIRS : Fld := ⟨18, 16⟩
abbrev FB_STAT_SUSPECT : Fld := ⟨15, 15⟩
abbrev FB_STAT_ZSEEN : Fld := ⟨14, 14⟩
abbrev FB_STAT_WRN : Fld := ⟨13, 13⟩
abbrev FB_STAT_ILL_S : Fld := ⟨12, 12⟩
abbrev FB_STAT_WAIT : Fld := ⟨11, 11⟩
abbrev FB_STAT_FAULT : Fld := ⟨10, 10⟩
abbrev FB_STAT_TV : Fld := ⟨9, 9⟩
abbrev FB_STAT_SER : Fld := ⟨8, 8⟩
abbrev FB_STAT_HILL : Fld := ⟨7, 7⟩
abbrev FB_STAT_CM : Fld := ⟨6, 6⟩
abbrev FB_STAT_EQ : Fld := ⟨5, 5⟩
abbrev FB_STAT_LOSS : Fld := ⟨4, 4⟩
abbrev FB_STAT_DIR : Fld := ⟨0, 0⟩
abbrev FB_COUNT_LO_COUNT : Fld := ⟨31, 0⟩
abbrev FB_COUNT_HI_COUNT : Fld := ⟨31, 0⟩
abbrev FB_OFS_LO_OFS : Fld := ⟨31, 0⟩
abbrev FB_OFS_HI_OFS : Fld := ⟨31, 0⟩
abbrev FB_ZCNT_ZCNT : Fld := ⟨31, 0⟩
abbrev FB_ANG_FORCED : Fld := ⟨27, 27⟩
abbrev FB_ANG_HSTATE : Fld := ⟨26, 24⟩
abbrev FB_ANG_ANGLE : Fld := ⟨23, 0⟩
abbrev FB_ERRCNT_ILL : Fld := ⟨31, 16⟩
abbrev FB_ERRCNT_SER : Fld := ⟨15, 0⟩
abbrev FB_ALCFG_REST_T : Fld := ⟨31, 24⟩
abbrev FB_ALCFG_REST_CQ : Fld := ⟨23, 16⟩
abbrev FB_ALCFG_SETTLE : Fld := ⟨15, 8⟩
abbrev FB_ALCFG_TOL : Fld := ⟨7, 0⟩
abbrev FB_ALSTAT_CODE : Fld := ⟨31, 24⟩
abbrev FB_ALSTAT_THETA : Fld := ⟨23, 0⟩
abbrev EN_GSTAT_TDC_OK : Fld := ⟨24, 24⟩
abbrev EN_GSTAT_SUSPECT : Fld := ⟨23, 16⟩
abbrev EN_GSTAT_WAIT : Fld := ⟨15, 8⟩
abbrev EN_GSTAT_FAULT : Fld := ⟨7, 0⟩

/-! ### SDD -/
abbrev SDD_ID_REV : Fld := ⟨15, 8⟩
abbrev SDD_ID_DIE : Fld := ⟨3, 0⟩
abbrev SDD_GDS_EXT_GAN : Fld := ⟨4, 4⟩
abbrev SDD_GDS_MODE : Fld := ⟨1, 0⟩
abbrev SDD_STAT_LANE1_UP : Fld := ⟨9, 9⟩
abbrev SDD_STAT_LANE0_UP : Fld := ⟨8, 8⟩
abbrev SDD_STAT_STOB_ACT : Fld := ⟨7, 7⟩
abbrev SDD_STAT_STOA_ACT : Fld := ⟨6, 6⟩
abbrev SDD_STAT_VBUS_OV : Fld := ⟨5, 5⟩
abbrev SDD_STAT_TSD : Fld := ⟨4, 4⟩
abbrev SDD_STAT_TWARN : Fld := ⟨3, 3⟩
abbrev SDD_STAT_REG_OL : Fld := ⟨2, 2⟩
abbrev SDD_STAT_VGD_UV : Fld := ⟨1, 1⟩
abbrev SDD_STAT_VGD_OK : Fld := ⟨0, 0⟩
abbrev SDD_VGD_MV : Fld := ⟨15, 0⟩
abbrev SDD_VBUS_CODE : Fld := ⟨11, 0⟩
abbrev SDD_TEMP_T : Fld := ⟨15, 0⟩
abbrev SDD_THR_TWARN : Fld := ⟨23, 16⟩
abbrev SDD_THR_VBUS_OV : Fld := ⟨11, 0⟩
abbrev SDD_LINKCNT_RETRIES : Fld := ⟨31, 16⟩
abbrev SDD_LINKCNT_DROPPED : Fld := ⟨15, 0⟩

/-! ### ENG -/
abbrev ENG_ID_ROM_IF : Fld := ⟨31, 16⟩
abbrev ENG_ID_ENGINE : Fld := ⟨3, 0⟩
abbrev ENG_FAULT_LOCK_ID : Fld := ⟨31, 16⟩
abbrev ENG_FAULT_VALID : Fld := ⟨8, 8⟩
abbrev ENG_FAULT_CAUSE : Fld := ⟨7, 0⟩
abbrev ENG_FAULT_PC_PC : Fld := ⟨15, 0⟩
abbrev ENG_FAULT_SR_SR : Fld := ⟨7, 0⟩
abbrev ENG_DBG_BP_ADDR : Fld := ⟨31, 16⟩
abbrev ENG_DBG_HALTED : Fld := ⟨4, 4⟩
abbrev ENG_DBG_BP_EN : Fld := ⟨3, 3⟩
abbrev ENG_DBG_STEP : Fld := ⟨2, 2⟩
abbrev ENG_DBG_HALT_REQ : Fld := ⟨1, 1⟩
abbrev ENG_DBG_DBG_EN : Fld := ⟨0, 0⟩

end Fld

namespace RegMap

/-- Registers of one SYS block. -/
def sys : List RegDef := [
  { off := 0x0, reset := 0x4801B1 }  /- SYS_ID -/,
  { off := 0x10, cp := 0x80003FFF, isCp := true }  /- SYS_ADDR -/,
  { off := 0x20, reset := 0x1 }  /- SYS_MODE -/,
  { off := 0x24, cp := 0x80000007, isCp := true }  /- SYS_MODE_REQ -/,
  { off := 0x30 }  /- SYS_WAKE -/,
  { off := 0x40, reset := 0x12C, rw := 0x1FF }  /- SYS_VIN_CFG -/,
  { off := 0x44, w1c := 0xC }  /- SYS_VIN_STAT -/,
  { off := 0x50, w1c := 0x7F0000 }  /- SYS_RAIL_STAT -/,
  { off := 0x60, s1 := 0x4, c1 := 3 }  /- SYS_PWR_STAT_w -/,
  { off := 0x70, s1 := 0x8, c1 := 3, cp := 0xFFFFFFFF, isCp := true }  /- SYS_PWR_REQ_w -/,
  { off := 0x88, reset := 0xFF, w1c := 0x100 }  /- SYS_PWR_CODE -/,
  { off := 0x90, w1c := 0x7C }  /- SYS_BK_STAT -/,
  { off := 0x94, rw := 0x3 }  /- SYS_BK_CFG -/,
  { off := 0x98, rw := 0xFFFFFFFF }  /- SYS_RTC_LO -/,
  { off := 0x9C, rw := 0xFFFFFFFF }  /- SYS_RTC_HI -/,
  { off := 0xA0, rw := 0xFFFFFFFF }  /- SYS_RTC_ALARM -/,
  { off := 0xB0, rw := 0xFFFFFFFF }  /- SYS_BK_RETAIN_LO -/,
  { off := 0xB4, rw := 0xFFFFFFFF }  /- SYS_BK_RETAIN_HI -/ ]

/-- Registers of one FC block. -/
def fc : List RegDef := [
  { off := 0x0 }  /- FC_STAT -/,
  { off := 0x4, w1c := 0x80000000 }  /- FC_FIRST -/,
  { off := 0x8 }  /- FC_FIRST_DATA -/,
  { off := 0xC }  /- FC_FIRST_TLO -/,
  { off := 0x10 }  /- FC_FIRST_THI -/,
  { off := 0x14 }  /- FC_HIST_CTRL -/,
  { off := 0x20, cp := 0x8000FFFF, isCp := true }  /- FC_ACK -/,
  { off := 0x28 }  /- FC_ACKSTAT -/,
  { off := 0x30 }  /- FC_COUNT -/,
  { off := 0x40, reset := 0x48, cp := 0x7F, isCp := true }  /- FC_DEG -/,
  { off := 0x48 }  /- FC_DEG_STAT -/,
  { off := 0x50 }  /- FC_LOST -/,
  { off := 0x54, w1c := 0x80000000 }  /- FC_IST -/,
  { off := 0x100, s1 := 0x10, c1 := 32, words := 4 }  /- FC_HIST_i -/ ]

/-- Registers of one TT block. -/
def tt : List RegDef := [
  { off := 0x0, reset := 0x2, rw := 0xA, wo := 0x5 }  /- TT_CTRL -/,
  { off := 0x4, reset := 0xF, w1c := 0x400 }  /- TT_STATUS -/,
  { off := 0x8, reset := 0x1020101 }  /- TT_CAPS -/,
  { off := 0xC, rw := 0xFFFFFFFC }  /- TT_IMG_ADDR -/,
  { off := 0x10 }  /- TT_FLIGHT -/,
  { off := 0x14 }  /- TT_VOYAGE -/,
  { off := 0x18 }  /- TT_FLIGHT_NO -/,
  { off := 0x1C, reset := 0x4, rw := 0xFF }  /- TT_OVR_LIMIT -/,
  { off := 0x20, cp := 0x3, isCp := true }  /- TT_SWAP -/,
  { off := 0x28, rw := 0x1FFFFFFF }  /- TT_TWR_ADDR -/,
  { off := 0x2C, wo := 0xFFFFFF }  /- TT_TWR_DATA -/,
  { off := 0x30 }  /- TT_TWR_OUT -/,
  { off := 0x38, cp := 0x8000000F, isCp := true }  /- TT_ALT_FORCE -/,
  { off := 0x40, s1 := 0x10, c1 := 12, w1c := 0xF0 }  /- TT_ENG_n_STAT -/,
  { off := 0x44, s1 := 0x10, c1 := 12 }  /- TT_ENG_n_OVRCNT -/,
  { off := 0x48, s1 := 0x10, c1 := 12 }  /- TT_ENG_n_TESTCNT -/,
  { off := 0x4C, s1 := 0x10, c1 := 12, reset := 0xFFFF, rc := 0xFFFF }  /- TT_ENG_n_SLACK -/ ]

/-- Registers of one TOW block. -/
def tow : List RegDef := [
  { off := 0x0 }  /- TOW_STATUS -/,
  { off := 0x4 }  /- TOW_RESENDS -/,
  { off := 0x100, s1 := 0x10, c1 := 48, reset := 0x800, w1c := 0xC }  /- TOW_PORT_p_STAT -/,
  { off := 0x104, s1 := 0x10, c1 := 48 }  /- TOW_PORT_p_REFCNT -/,
  { off := 0x108, s1 := 0x10, c1 := 48 }  /- TOW_PORT_p_RESENDCNT -/,
  { off := 0x10C, s1 := 0x10, c1 := 48, reset := 0x4081008 }  /- TOW_PORT_p_CRED -/ ]

/-- Registers of one BASIN block. -/
def basin : List RegDef := [
  { off := 0x0, reset := 0x8000 }  /- BASIN_FREE -/,
  { off := 0x4 }  /- BASIN_COUNT -/,
  { off := 0x8, reset := 0x20002000 }  /- BASIN_POOL -/,
  { off := 0x10, wo := 0x8000007F }  /- BASIN_SUBMIT -/,
  { off := 0x14 }  /- BASIN_SUBSTAT -/,
  { off := 0x20 }  /- BASIN_NOTE_LO -/,
  { off := 0x24, rc := 0x807F000F }  /- BASIN_NOTE_HI -/,
  { off := 0x28, w1c := 0x80000000 }  /- BASIN_NOTESTAT -/,
  { off := 0x40, s1 := 0x4, c1 := 16, rw := 0xFFFFFFFF }  /- BASIN_STAGE_w -/,
  { off := 0x1000, s1 := 0x10, c1 := 80, reset := 0x200, rw := 0xFF00FFFF }  /- BASIN_Q_q_CFG -/,
  { off := 0x1004, s1 := 0x10, c1 := 80, w1c := 0xE000000 }  /- BASIN_Q_q_STAT -/,
  { off := 0x1008, s1 := 0x10, c1 := 80, reset := 0x10000 }  /- BASIN_Q_q_SEQ -/,
  { off := 0x100C, s1 := 0x10, c1 := 80, wo := 0x7 }  /- BASIN_Q_q_CTRL -/ ]

/-- Registers of one TIME block. -/
def time : List RegDef := [
  { off := 0x0 }  /- TIME_NOW_LO -/,
  { off := 0x4 }  /- TIME_NOW_HI -/,
  { off := 0x8, cp := 0xFFFF, isCp := true }  /- TIME_EPOCH -/,
  { off := 0x10, reset := 0x3, rw := 0xB, wo := 0x4 }  /- TIME_CTRL -/,
  { off := 0x14, w1c := 0x700 }  /- TIME_STAT -/,
  { off := 0x18 }  /- TIME_RATE -/,
  { off := 0x1C, rw := 0xFFFFFFFF }  /- TIME_RATE_MAN -/,
  { off := 0x28 }  /- TIME_OFS -/,
  { off := 0x20, rw := 0xFFFFFFFF }  /- TIME_STEP_LO -/,
  { off := 0x24, rw := 0xFFFFFFFF }  /- TIME_STEP_HI -/,
  { off := 0x2C, reset := 0x30100, rw := 0xF0F0F }  /- TIME_REF_CFG -/,
  { off := 0x30, reset := 0xA0E, rw := 0xFFFF }  /- TIME_SERVO -/,
  { off := 0x34, reset := 0x6400640, rw := 0xFFFFFFFF }  /- TIME_THR -/,
  { off := 0x38, reset := 0x3C, rw := 0xFFFF }  /- TIME_HOLD -/,
  { off := 0x3C }  /- TIME_CNT -/,
  { off := 0x40, reset := 0xF8F8D100, rw := 0xFFFFF1FF }  /- TIME_PTP_CFG -/,
  { off := 0x44, w1c := 0xFF00 }  /- TIME_CMPSTAT -/,
  { off := 0x80, s1 := 0x4, c1 := 8, rw := 0xFFFFFFFF }  /- TIME_CMP_k -/ ]

/-- Registers of one ETH block. -/
def eth0 : List RegDef := [
  { off := 0x0, rw := 0x73 }  /- ETH_CTRL -/,
  { off := 0x4, rw := 0xFFFFFFFF }  /- ETH_MAC_LO -/,
  { off := 0x8, rw := 0xFFFF }  /- ETH_MAC_HI -/,
  { off := 0x10 }  /- ETH_HSR_STAT -/,
  { off := 0x100, s1 := 0x100, c1 := 2, rw := 0xB }  /- ETH_P_p_CFG -/,
  { off := 0x104, s1 := 0x100, c1 := 2, w1c := 0x4 }  /- ETH_P_p_STAT -/,
  { off := 0x108, s1 := 0x100, c1 := 2, rw := 0xFFFFFFFF }  /- ETH_P_p_ASYM -/,
  { off := 0x10C, s1 := 0x100, c1 := 2 }  /- ETH_P_p_DELAY -/,
  { off := 0x110, s1 := 0x100, c1 := 2, reset := 0x76543210, rw := 0xFFFFFFFF }  /- ETH_P_p_TCMAP -/,
  { off := 0x120, s1 := 0x100, c1 := 2, rw := 0x1FF, wo := 0x80000000 }  /- ETH_P_p_QBV_CTRL -/,
  { off := 0x124, s1 := 0x100, c1 := 2, words := 4, rw := 0xFFFFFFFF }  /- ETH_P_p_CYCLE, _BASE_LO, _BASE_HI, _CHANGE_TIME -/,
  { off := 0x134, s1 := 0x100, c1 := 2, reset := 0xFA0000, rw := 0xFFFF0000 }  /- ETH_P_p_LQ -/,
  { off := 0x138, s1 := 0x100, c1 := 2, words := 4, wo := 0xFFFFFFFF }  /- ETH_P_p_LQ_PUSH -/,
  { off := 0x180, s1 := 0x100, c1 := 2 }  /- ETH_P_p_CNT_RX -/,
  { off := 0x184, s1 := 0x100, c1 := 2 }  /- ETH_P_p_CNT_TX -/,
  { off := 0x188, s1 := 0x100, c1 := 2 }  /- ETH_P_p_CNT_ERR -/,
  { off := 0x18C, s1 := 0x100, c1 := 2 }  /- ETH_P_p_CNT_LATE -/,
  { off := 0x400, s1 := 0x400, c1 := 2, s2 := 0x4, c2 := 256, rw := 0xFFFFFFFF }  /- ETH_P_p_GCL_i -/,
  { off := 0x1000, reset := 0x88B60000, rw := 0xFFFFFFFF }  /- ETH_TL_CFG -/,
  { off := 0x1004, rw := 0x3FFFF }  /- ETH_TL_LAUNCH -/,
  { off := 0x1008, reset := 0x5400004C, rw := 0xFFFFFFFF }  /- ETH_TL_MCAST_LO -/,
  { off := 0x100C, reset := 0x300, rw := 0xFFFF }  /- ETH_TL_MCAST_HI -/,
  { off := 0x1010, reset := 0x3, rw := 0x7 }  /- ETH_TL_ACC -/,
  { off := 0x1014 }  /- ETH_TL_STAT -/,
  { off := 0x1018, rc := 0x803F3FFF }  /- ETH_TL_MSG -/ ]

/-- Registers of one ETH block. -/
def eth1 : List RegDef := [
  { off := 0x1100, s1 := 0x4, c1 := 8, rw := 0x8000003F }  /- ETH_TL_PUB_i -/,
  { off := 0x1200, s1 := 0x4, c1 := 64, rw := 0x800FFFFF }  /- ETH_TL_SUB_s -/ ]

/-- The registers of one ETH block. -/
def eth : List RegDef := eth0 ++ eth1

/-- Registers of one CAN block. -/
def can : List RegDef := [
  { off := 0x0, reset := 0x6008, rw := 0xFF2F, wo := 0x10 }  /- CAN_CTRL -/,
  { off := 0x4, reset := 0xC }  /- CAN_STAT -/,
  { off := 0x8, reset := 0x1E3CF800, rw := 0xFFFFFCFF }  /- CAN_NBT -/,
  { off := 0xC, reset := 0x33700090, rw := 0xFFFFC0FF }  /- CAN_DBT -/,
  { off := 0x10, w1c := 0x1FF }  /- CAN_IF -/,
  { off := 0x14, rw := 0x1FF }  /- CAN_IE -/,
  { off := 0x18 }  /- CAN_CNT -/,
  { off := 0x1C }  /- CAN_ERRCNT -/,
  { off := 0x20, rw := 0xFF03 }  /- CAN_TM_CFG -/,
  { off := 0x24, rw := 0x3FFFFFFF }  /- CAN_TM_ID -/,
  { off := 0x28, rw := 0xFFFFFFFF }  /- CAN_TM_DELAY -/,
  { off := 0x2C }  /- CAN_TM_STAT -/,
  { off := 0x40, s1 := 0x4, c1 := 4, w1c := 0xFFFFFFFF }  /- CAN_NEW_g -/,
  { off := 0x50, s1 := 0x4, c1 := 4 }  /- CAN_OWN_g -/,
  { off := 0x2000, s1 := 0x50, c1 := 128, words := 20 }  /- CAN_OBJ_m -/ ]

/-- Registers of one PSYNC block. -/
def psync0 : List RegDef := [
  { off := 0x0, w1c := 0x2 }  /- PS_STAT -/,
  { off := 0x4, reset := 0x1, rw := 0x1 }  /- PS_CAL -/,
  { off := 0x8, reset := 0x1900064, rw := 0xFFFFFFFF }  /- PS_RSTALE -/,
  { off := 0x100, s1 := 0x40, c1 := 16, rw := 0x3F1F }  /- TRG_n_CFG -/,
  { off := 0x104, s1 := 0x40, c1 := 16, reset := 0x2, rw := 0x3FFFF }  /- TRG_n_WIDTH -/,
  { off := 0x108, s1 := 0x40, c1 := 16, rw := 0xFFFFFFFF }  /- TRG_n_DELAY -/,
  { off := 0x10C, s1 := 0x40, c1 := 16, w1c := 0x17E }  /- TRG_n_STAT -/,
  { off := 0x110, s1 := 0x40, c1 := 16, wo := 0x80000000 }  /- TRG_n_LIST -/,
  { off := 0x114, s1 := 0x40, c1 := 16, wo := 0xFFFFFFFF }  /- TRG_n_LDATA_LO -/,
  { off := 0x118, s1 := 0x40, c1 := 16, wo := 0xFFFFFFFF }  /- TRG_n_LDATA_HI -/,
  { off := 0x11C, s1 := 0x40, c1 := 16, rw := 0xFFFFFFFF }  /- TRG_n_COUNT -/,
  { off := 0x120, s1 := 0x40, c1 := 16, rw := 0xFFFFFFFF }  /- TRG_n_START_LO -/,
  { off := 0x124, s1 := 0x40, c1 := 16, rw := 0xFFFFFFFF }  /- TRG_n_START_HI -/,
  { off := 0x128, s1 := 0x40, c1 := 16, rw := 0xFFFFFFFF }  /- TRG_n_PITCH_LO -/,
  { off := 0x12C, s1 := 0x40, c1 := 16, rw := 0xFFFFFFFF }  /- TRG_n_PITCH_HI -/,
  { off := 0x130, s1 := 0x40, c1 := 16 }  /- TRG_n_FIRED -/,
  { off := 0x134, s1 := 0x40, c1 := 16 }  /- TRG_n_ERRCNT -/,
  { off := 0x600, s1 := 0x20, c1 := 8, reset := 0x1000000, rw := 0xFFFF3F03 }  /- EMU_e_CFG -/,
  { off := 0x604, s1 := 0x20, c1 := 8, reset := 0x1, rw := 0xFFFFFFFF }  /- EMU_e_NUM -/,
  { off := 0x608, s1 := 0x20, c1 := 8, reset := 0x1, rw := 0xFFFFFFFF }  /- EMU_e_DEN -/,
  { off := 0x60C, s1 := 0x20, c1 := 8, rw := 0xFFFFFFFF }  /- EMU_e_Z -/,
  { off := 0x610, s1 := 0x20, c1 := 8, w1c := 0xE }  /- EMU_e_STAT -/,
  { off := 0x614, s1 := 0x20, c1 := 8 }  /- EMU_e_CNT -/,
  { off := 0x800, s1 := 0x40, c1 := 16, rw := 0xFF3F0F }  /- LAT_n_CFG -/ ]

/-- Registers of one PSYNC block. -/
def psync1 : List RegDef := [
  { off := 0x804, s1 := 0x40, c1 := 16, w1c := 0xE, wo := 0x80000000 }  /- LAT_n_STAT -/,
  { off := 0x808, s1 := 0x40, c1 := 16, rw := 0xFFFFFFFF }  /- LAT_n_MASK_LO -/,
  { off := 0x80C, s1 := 0x40, c1 := 16, rw := 0xFFFFFFFF }  /- LAT_n_MASK_HI -/,
  { off := 0x810, s1 := 0x40, c1 := 16, rw := 0xFFFFFFFF }  /- LAT_n_MP_LO -/,
  { off := 0x814, s1 := 0x40, c1 := 16, rw := 0xFFFFFFFF }  /- LAT_n_MP_HI -/,
  { off := 0x818, s1 := 0x40, c1 := 16, rw := 0xFFFFFFFF }  /- LAT_n_MO_LO -/,
  { off := 0x81C, s1 := 0x40, c1 := 16, rw := 0xFFFFFFFF }  /- LAT_n_MO_HI -/,
  { off := 0x820, s1 := 0x40, c1 := 16 }  /- LAT_n_CORR_LO -/,
  { off := 0x824, s1 := 0x40, c1 := 16 }  /- LAT_n_CORR_HI -/,
  { off := 0xC00, s1 := 0x10, c1 := 8, rw := 0xFF07 }  /- TIM_m_CFG -/,
  { off := 0xC04, s1 := 0x10, c1 := 8, w1c := 0x7 }  /- TIM_m_RSTAT -/,
  { off := 0xC08, s1 := 0x10, c1 := 8, rc := 0xFFFFFFFF }  /- TIM_m_RES -/ ]

/-- The registers of one PSYNC block. -/
def psync : List RegDef := psync0 ++ psync1

/-- Registers of one ACQ block. -/
def acq : List RegDef := [
  { off := 0x0, wo := 0x7 }  /- ACQ_CTRL -/,
  { off := 0x4, w1c := 0x100 }  /- ACQ_STAT -/,
  { off := 0x8, reset := 0x1, rw := 0x1FFFF }  /- ACQ_CFG -/,
  { off := 0xC, rw := 0x3FFFF }  /- ACQ_PT -/,
  { off := 0x10, rw := 0x1FFFFF }  /- ACQ_PRE -/,
  { off := 0x14, rw := 0x1FFFFF }  /- ACQ_POST -/,
  { off := 0x18 }  /- ACQ_DEPTH -/,
  { off := 0x1C }  /- ACQ_OLDEST -/,
  { off := 0x20 }  /- ACQ_TRIGREC -/,
  { off := 0x24 }  /- ACQ_COUNT -/,
  { off := 0x28 }  /- ACQ_TFLIGHT_LO -/,
  { off := 0x2C }  /- ACQ_TFLIGHT_HI -/,
  { off := 0x30, rw := 0xFFFFFFFF }  /- ACQ_TVAL_LO -/,
  { off := 0x34, rw := 0xFFFFFFFF }  /- ACQ_TVAL_HI -/,
  { off := 0x38, rw := 0xFFFFFFFF }  /- ACQ_TMASK_LO -/,
  { off := 0x3C, rw := 0xFFFFFFFF }  /- ACQ_TMASK_HI -/,
  { off := 0x100, s1 := 0x10, c1 := 64, rw := 0xFFFF98FF }  /- ACQ_P_c_SRC -/,
  { off := 0x104, s1 := 0x10, c1 := 64, rw := 0x7 }  /- ACQ_P_c_COND -/,
  { off := 0x108, s1 := 0x10, c1 := 64, rw := 0xFFFFFFFF }  /- ACQ_P_c_LEVEL -/,
  { off := 0x10C, s1 := 0x10, c1 := 64, reset := 0x80000000 }  /- ACQ_P_c_LAST -/,
  { off := 0x600, s1 := 0x10, c1 := 4, rw := 0xFF3F07FF }  /- ACQ_M_m_CFG -/,
  { off := 0x604, s1 := 0x10, c1 := 4 }  /- ACQ_M_m_STAT -/,
  { off := 0x2000, s1 := 0x2000, c1 := 4, s2 := 0x4, c2 := 1024, rw := 0xFFFFFFFF }  /- ACQ_M_m_UP_i -/,
  { off := 0x3000, s1 := 0x2000, c1 := 4, s2 := 0x4, c2 := 1024, rw := 0xFFFFFFFF }  /- ACQ_M_m_LO_i -/ ]

/-- Registers of one PERF block. -/
def perf : List RegDef := [
  { off := 0x0, wo := 0xF }  /- PERF_CLR -/,
  { off := 0x4, s1 := 0x4, c1 := 2, rw := 0x3F }  /- PERF_PERM_p -/,
  { off := 0x100, s1 := 0x20, c1 := 2, rw := 0x800FFFFF }  /- TAG_p_CFG -/,
  { off := 0x104, s1 := 0x20, c1 := 2, reset := 0xACE1, rw := 0xFFFF }  /- TAG_p_LFSR -/,
  { off := 0x108, s1 := 0x20, c1 := 2 }  /- TAG_p_STAT -/,
  { off := 0x10C, s1 := 0x20, c1 := 2, wo := 0x1 }  /- TAG_p_CLR -/,
  { off := 0x7000, s1 := 0x100, c1 := 2, s2 := 0x10, c2 := 16, words := 4 }  /- TAG_p_REC_i -/,
  { off := 0x200, s1 := 0x80, c1 := 8, rw := 0x71F03FF }  /- HIST_h_CFG -/,
  { off := 0x240, s1 := 0x80, c1 := 8, s2 := 0x4, c2 := 16 }  /- HIST_h_BIN_k -/ ]

/-- Registers of one SAFE block. -/
def safe : List RegDef := [
  { off := 0x0, w1c := 0x20 }  /- SAFE_STAT -/,
  { off := 0x4, wo := 0x3 }  /- SAFE_CTRL -/,
  { off := 0x8, rw := 0xFFFFFFFC }  /- SAFE_LOAD_ADDR -/,
  { off := 0xC }  /- SAFE_CHECK -/,
  { off := 0x10, cp := 0xFFFFFFFF, isCp := true }  /- SAFE_CONFIRM -/,
  { off := 0x18, reset := 0xFFFFFF }  /- SAFE_STO -/,
  { off := 0x1C }  /- SAFE_PAIR -/,
  { off := 0x20 }  /- SAFE_SO -/,
  { off := 0x24, w1c := 0x80000000 }  /- SAFE_CMP -/,
  { off := 0x28, cp := 0xFF0FFF, isCp := true }  /- SAFE_RESTART -/,
  { off := 0x30, cp := 0xFFFFFFFF, isCp := true }  /- SAFE_REQ -/,
  { off := 0x38, reset := 0xFFFFFF }  /- SAFE_PATH -/,
  { off := 0x40, s1 := 0x4, c1 := 16, w1c := 0xFF000000 }  /- SAFE_AX_a_STAT -/,
  { off := 0x100, rw := 0xFFFFFFFC }  /- SAFE_SDT_ADDR -/,
  { off := 0x104, wo := 0x1 }  /- SAFE_SDT_CTRL -/,
  { off := 0x108 }  /- SAFE_SDT_STAT -/,
  { off := 0x10C }  /- SAFE_SDT_CHECK -/,
  { off := 0x110, cp := 0xFFFFFFFF, isCp := true }  /- SAFE_SDT_CONFIRM -/,
  { off := 0x140, s1 := 0x4, c1 := 8 }  /- SAFE_RX_r_STAT -/ ]

/-- Registers of one FIO block. -/
def fio : List RegDef := [
  { off := 0x0, w1c := 0xC8 }  /- FIO_STAT -/,
  { off := 0x4 }  /- FIO_LPLUS -/,
  { off := 0x8 }  /- FIO_DI -/,
  { off := 0xC }  /- FIO_DIRAW -/,
  { off := 0x10, rw := 0xFFFF }  /- FIO_DO -/,
  { off := 0x14, wo := 0xFFFF }  /- FIO_DO_SET -/,
  { off := 0x18, wo := 0xFFFF }  /- FIO_DO_CLR -/,
  { off := 0x1C, cp := 0xFFFF, isCp := true }  /- FIO_DO_FS -/,
  { off := 0x24 }  /- FIO_DO_ACT -/,
  { off := 0x28, w1c := 0xFFFFFFFF }  /- FIO_DO_FLT -/,
  { off := 0x2C, w1c := 0xFFFF }  /- FIO_DO_OT -/,
  { off := 0x30, rw := 0xFFFFFFFF }  /- FIO_DO_CFG -/,
  { off := 0x34 }  /- FIO_SO_STAT -/,
  { off := 0x38, reset := 0x6400A0, rw := 0xFF3FF3 }  /- FIO_TP -/,
  { off := 0x3C }  /- FIO_TPSTAT -/,
  { off := 0x40 }  /- FIO_LINKCNT -/,
  { off := 0x44, wo := 0xFF }  /- FIO_CNT_CLR -/,
  { off := 0x100, s1 := 0x4, c1 := 32, reset := 0xBB8, rw := 0xFF017FFF }  /- FIO_DI_i_CFG -/,
  { off := 0x200, s1 := 0x8, c1 := 8 }  /- FIO_CNT_i -/,
  { off := 0x204, s1 := 0x8, c1 := 8 }  /- FIO_FREQ_i -/ ]

/-- Registers of one HOST block. -/
def host : List RegDef := [
  { off := 0x0 }  /- HOST_BOOT_STAT -/,
  { off := 0x4 }  /- HOST_BOOT_SET -/,
  { off := 0x10, s1 := 0x4, c1 := 4 }  /- HOST_IMG_t -/,
  { off := 0x20, wo := 0x3 }  /- HOST_CTRL -/,
  { off := 0x24, wo := 0x3 }  /- HOST_NOR_CTRL -/,
  { off := 0x28, rw := 0xFFFFFFFF }  /- HOST_NOR_ADDR -/,
  { off := 0x2C, rw := 0xFFFFFFFF }  /- HOST_NOR_SRC -/,
  { off := 0x30, rw := 0xFFFFFFFF }  /- HOST_NOR_LEN -/,
  { off := 0x34 }  /- HOST_NOR_STAT -/,
  { off := 0x40 }  /- HOST_KEY -/,
  { off := 0x44, cp := 0x80000303, isCp := true }  /- HOST_KEY_CTRL -/,
  { off := 0x50, reset := 0x28, rw := 0xFF }  /- HOST_WHARF_CFG -/,
  { off := 0x54, reset := 0x3, rw := 0x7 }  /- HOST_WHARF_ACC -/,
  { off := 0x58, rw := 0x70000, w1c := 0x2 }  /- HOST_WIRQ -/,
  { off := 0x5C, rw := 0xFFFFFFFF }  /- HOST_DB_HOST -/,
  { off := 0x60, rw := 0xFFFFFFFF }  /- HOST_DB_FW -/,
  { off := 0x80, wo := 0x1F }  /- HOST_PS_CTRL -/,
  { off := 0x84, rw := 0xFFFFFFFF }  /- HOST_PS_KEY -/,
  { off := 0x88, rw := 0xFFFFFFFF }  /- HOST_PS_ADDR -/,
  { off := 0x8C, rw := 0xFFFFFFFF }  /- HOST_PS_LEN -/,
  { off := 0x90 }  /- HOST_PS_STAT -/,
  { off := 0x94 }  /- HOST_PS_VER -/,
  { off := 0x98 }  /- HOST_PS_FREE -/ ]

/-- Registers of one AXIS block. -/
def axis0 : List RegDef := [
  { off := 0x0, rw := 0xF01D }  /- PWM_CTRL -/,
  { off := 0x4, reset := 0x138800, rw := 0x1FFFFFF }  /- PWM_PERIOD -/,
  { off := 0x8, reset := 0x1, rw := 0x7FF07FF }  /- PWM_CPF -/,
  { off := 0xC, rw := 0x1FFFFFF }  /- PWM_PHASE -/,
  { off := 0x10, rw := 0xFFF }  /- PWM_MINPW -/,
  { off := 0x14, cp := 0xFF, isCp := true }  /- PWM_SAFE -/,
  { off := 0x20, s1 := 0x4, c1 := 4, rw := 0xFFF0FFF }  /- PWM_DLY_s -/,
  { off := 0x30, w1c := 0x80 }  /- PWM_STAT -/,
  { off := 0x34 }  /- PWM_SUPCNT -/,
  { off := 0x38 }  /- PWM_NOLOAD -/,
  { off := 0x40, s1 := 0x8, c1 := 4 }  /- PWM_RISE_s -/,
  { off := 0x44, s1 := 0x8, c1 := 4 }  /- PWM_FALL_s -/,
  { off := 0x80, rw := 0x3F3333 }  /- CL_CFG -/,
  { off := 0x84, reset := 0x40190, rw := 0xFFFFFF }  /- CL_LIMIT -/,
  { off := 0x88, w1c := 0x3FE }  /- CL_STAT -/,
  { off := 0x8C }  /- CL_SBCNT -/,
  { off := 0x90 }  /- CL_LBCNT -/,
  { off := 0x94 }  /- CL_VLIMCNT -/,
  { off := 0x98, rw := 0xFFFFFF }  /- CL_VBUS_FW -/,
  { off := 0x100, reset := 0x100, rw := 0xF11 }  /- GATE_CFG -/,
  { off := 0x104, rw := 0xFFFF }  /- GATE_BOOT -/,
  { off := 0x108, w1c := 0xF004 }  /- GATE_STAT -/,
  { off := 0x10C }  /- GATE_BUVCNT -/,
  { off := 0x110, reset := 0xF040050, cp := 0xF1F00FF, isCp := true }  /- SC_CFG -/ ]

/-- Registers of one AXIS block. -/
def axis1 : List RegDef := [
  { off := 0x118, w1c := 0xF }  /- SC_STAT -/,
  { off := 0x11C }  /- SC_CNT -/,
  { off := 0x120, reset := 0x190055, rw := 0x3F3F7FFF }  /- SNS_CFG -/,
  { off := 0x124, reset := 0x5FF0A, rw := 0xFFFFFF, wo := 0x80000000 }  /- SNS_CAL -/,
  { off := 0x128 }  /- SNS_CALSTAT -/,
  { off := 0x130, s1 := 0x4, c1 := 4, rw := 0xFFFFFF }  /- SNS_OFS_s -/,
  { off := 0x140, s1 := 0x4, c1 := 4, reset := 0x400000, rw := 0xFFFFFF }  /- SNS_GCAL_s -/,
  { off := 0x150, s1 := 0x4, c1 := 4 }  /- SNS_I_s -/,
  { off := 0x160, s1 := 0x4, c1 := 4 }  /- SNS_PHV_s -/,
  { off := 0x170, rw := 0xFFF0FFF }  /- BRK_CFG -/,
  { off := 0x174, reset := 0xF00C1999, rw := 0xFF1FFFFF }  /- BRK_LIM -/,
  { off := 0x178, w1c := 0x2 }  /- BRK_STAT -/,
  { off := 0x180, rw := 0xFFFFFFFF }  /- HBRK_CFG -/,
  { off := 0x184, rw := 0x1 }  /- HBRK_CTRL -/,
  { off := 0x200, reset := 0x2002, rw := 0x3333 }  /- LP_CFG -/,
  { off := 0x204, reset := 0x3E81001, rw := 0xFFFFFFFF }  /- LP_LIMIT -/,
  { off := 0x208, reset := 0x40, rw := 0xFFFF }  /- LP_HOLD -/,
  { off := 0x20C, w1c := 0xFF }  /- LP_STAT -/,
  { off := 0x210 }  /- LP_RUNS -/,
  { off := 0x214 }  /- LP_REPORT -/,
  { off := 0x218 }  /- LP_SWCNT -/,
  { off := 0x300, rw := 0x333 }  /- STP_CFG -/,
  { off := 0x304, reset := 0x8100408, rw := 0xFFFF1F7F }  /- STP_CHOP -/,
  { off := 0x308, reset := 0x40, rw := 0xFFFF }  /- STP_LIMIT -/ ]

/-- Registers of one AXIS block. -/
def axis2 : List RegDef := [
  { off := 0x30C, w1c := 0x1C }  /- STP_STAT -/,
  { off := 0x310 }  /- STP_DAC -/,
  { off := 0x314 }  /- STP_OFS -/,
  { off := 0x318 }  /- STP_STATE -/,
  { off := 0x31C }  /- STP_HOVCNT -/,
  { off := 0x320 }  /- STP_STALLCNT -/,
  { off := 0x400, reset := 0x30000D00, rw := 0x31FF1F37 }  /- FB_CFG -/,
  { off := 0x404, reset := 0x64130000, rw := 0xFEFF3F3F }  /- FB_SER -/,
  { off := 0x408, reset := 0x101404, rw := 0xFFFFFFFF }  /- FB_SER2 -/,
  { off := 0x40C, reset := 0x1000, rw := 0xFFFFFFFF }  /- FB_JMAX -/,
  { off := 0x410, reset := 0x10A00A14, rw := 0xFFF0FFFF }  /- FB_LIM -/,
  { off := 0x414, reset := 0x64000000, rw := 0xFFFFFFFF }  /- FB_TIME -/,
  { off := 0x418, reset := 0x1000, rw := 0xFFFFFFFF }  /- FB_CPR -/,
  { off := 0x41C, reset := 0x1, rw := 0x7F }  /- FB_EL -/,
  { off := 0x420, reset := 0x2EEC287, rw := 0xFFFFFFFF }  /- FB_HALL -/,
  { off := 0x424, wo := 0x1F }  /- FB_CTRL -/,
  { off := 0x428, w1c := 0xF1F0 }  /- FB_STAT -/,
  { off := 0x430 }  /- FB_COUNT_LO -/,
  { off := 0x434 }  /- FB_COUNT_HI -/,
  { off := 0x438, cp := 0xFFFFFFFF, isCp := true }  /- FB_OFS_LO -/,
  { off := 0x440, cp := 0xFFFFFFFF, isCp := true }  /- FB_OFS_HI -/,
  { off := 0x448 }  /- FB_ZCNT -/,
  { off := 0x44C }  /- FB_ANG -/,
  { off := 0x450 }  /- FB_ERRCNT -/ ]

/-- Registers of one AXIS block. -/
def axis3 : List RegDef := [
  { off := 0x454, reset := 0x5021408, rw := 0xFFFFFFFF }  /- FB_ALCFG -/,
  { off := 0x458 }  /- FB_ALSTAT -/,
  { off := 0x500 }  /- EN_GSTAT -/ ]

/-- The registers of one AXIS block. -/
def axis : List RegDef := axis0 ++ axis1 ++ axis2 ++ axis3

/-- Registers of one SDD block. -/
def sdd : List RegDef := [
  { off := 0x0 }  /- SDD_ID -/,
  { off := 0x4, cp := 0x13, isCp := true }  /- SDD_GDS -/,
  { off := 0x10, w1c := 0x3E }  /- SDD_STAT -/,
  { off := 0x14 }  /- SDD_VGD -/,
  { off := 0x18 }  /- SDD_VBUS -/,
  { off := 0x1C }  /- SDD_TEMP -/,
  { off := 0x20, reset := 0x730F33, rw := 0xFF0FFF }  /- SDD_THR -/,
  { off := 0x24 }  /- SDD_LINKCNT -/ ]

/-- Registers of one engine (offset 0x4_0000 of its window). -/
def eng : List RegDef := [
  { off := 0x0 }  /- ENG_ID -/,
  { off := 0x4, w1c := 0x100 }  /- ENG_FAULT -/,
  { off := 0x8 }  /- ENG_FAULT_PC -/,
  { off := 0xC }  /- ENG_FAULT_SR -/,
  { off := 0x10, rw := 0xFFFF000B, wo := 0x4 }  /- ENG_DBG -/ ]

end RegMap

end Sys2Proof.Machine
end

