-- ==== Sys2Proof/Machine/Tbl.lean ====
section
/-! DEFINITION. A sparse table: pairs of a key and a value, keys strictly rising, no entry equal to the value that an
unlisted key reads as. Equal tables are equal lists. Registers and every memory of the block are such tables. -/

namespace Sys2Proof.Machine

abbrev Tbl (α : Type) := List (Nat × α)

/-- The entry listed under key `k`. -/
def Tbl.find? {α : Type} : Tbl α → Nat → Option α
  | [], _ => none
  | (a, v) :: t, k => if a = k then some v else Tbl.find? t k

/-- The value at key `k`; `d` is what an unlisted key reads as. -/
def Tbl.get {α : Type} (d : α) (t : Tbl α) (k : Nat) : α := (Tbl.find? t k).getD d

/-- The table without key `k`. -/
def Tbl.erase {α : Type} : Tbl α → Nat → Tbl α
  | [], _ => []
  | (a, v) :: t, k => if a = k then Tbl.erase t k else (a, v) :: Tbl.erase t k

/-- The table with `v` listed under key `k`. -/
def Tbl.insert {α : Type} : Tbl α → Nat → α → Tbl α
  | [], k, v => [(k, v)]
  | (a, w) :: t, k, v =>
    if a = k then (k, v) :: t else if k < a then (k, v) :: (a, w) :: t else (a, w) :: Tbl.insert t k v

/-- A write that keeps the canonical form: writing what an unlisted key reads as removes the entry. -/
def Tbl.put {α : Type} [DecidableEq α] (d : α) (t : Tbl α) (k : Nat) (v : α) : Tbl α :=
  if v = d then Tbl.erase t k else Tbl.insert t k v

/-- The entries of `t` whose key satisfies `p`. -/
def Tbl.keep {α : Type} (t : Tbl α) (p : Nat → Bool) : Tbl α := t.filter fun e => p e.1

/-- Keys strictly rising from above `lo`, and no entry equal to the value `d` gives its key. -/
def Tbl.wfFrom {α : Type} [DecidableEq α] (d : Nat → α) : Option Nat → Tbl α → Bool
  | _, [] => true
  | lo, (a, v) :: t => lo.all (· < a) && decide (v ≠ d a) && Tbl.wfFrom d (some a) t

/-- The canonical form. -/
def Tbl.wf {α : Type} [DecidableEq α] (d : Nat → α) (t : Tbl α) : Bool := Tbl.wfFrom d none t

end Sys2Proof.Machine
end

