-- ==== Sys2Proof/Machine/State.lean ====
section
/-! DEFINITION. The state of the block as plain data: every register, memory, queue, counter, mode and pin. -/

namespace Sys2Proof.Machine

/-! ## Names -/

/-- Ordering code (R1). -/
inductive Part where
  | fa48 | la48 | fa24
  deriving DecidableEq, Repr

/-- The answer of the last register or memory access: nothing yet, a value read, a write done, a bus error. -/
inductive Resp where
  | none
  | data (w : Word)
  | done
  | busError
  deriving DecidableEq, Repr

/-- The eight operating modes (R506). -/
inductive Mode where
  | dormant | wake | commission | hold | run | degraded | safeStop | test
  deriving DecidableEq, Repr

/-- A contained or fatal source that is not acknowledged (R337, R339). -/
structure PendSrc where
  src   : Nat
  fatal : Bool
  deriving DecidableEq, Repr

/-- Why a channel is held in its safe state (R146, R338). -/
inductive SafeCause where
  /-- PWM_CTRL.SAFE_REQ. -/
  | firmware
  /-- A collector reaction of the source named. -/
  | collector (src : Nat)
  /-- Debug halt of the engine named. -/
  | engineHalt (e : Nat)
  /-- Clock stop or debug halt of the NW (0) or PS (1) island. -/
  | island (i : Nat)
  /-- The die link of the channel's SDD is silent, or the TP clock stopped. -/
  | linkSilent
  /-- The hardware safe state. -/
  | hwsafe
  deriving DecidableEq, Repr

/-- The timers that a rule starts and whose expiry is a command of its own. -/
inductive TimerId where
  | mdLimit | sdLimit
  | svFault (p : Nat)
  | tsd (d : Nat)
  | calDecay (n : Nat)
  | pullIn (n : Nat)
  | scLatch (n s : Nat)
  | alRest (n : Nat) | alSettle (n : Nat)
  | stoDisc | pathReadback (ch : Nat) | soloMax (ch : Nat)
  | pairDisc (ch p : Nat)
  | ss1 (a : Nat) | ss2 (a : Nat)
  | soPulse (ch k : Nat)
  | switchWindow | holdover
  | wakeLimit
  | doRetry (k : Nat)
  | svRestart (p : Nat)
  deriving DecidableEq, Repr

/-! ## Timetable (R48 to R54) -/

/-- A lock entry (R51). -/
structure LockEntry where
  id          : Nat
  phase       : Nat
  period      : Nat
  start       : Nat
  budget      : Nat
  engine      : Nat
  ncommit     : Nat
  entry       : Nat
  axis        : Nat
  resFirst    : Nat
  resCount    : Nat
  stateBase   : Nat
  stateWords  : Nat
  mirrorFirst : Nat
  kind        : Nat
  deriving DecidableEq, Repr

/-- A reservation entry (R52). -/
structure ResEntry where
  src    : Nat
  dst    : Nat
  slot   : Nat
  flits  : Nat
  tag    : Nat
  kind   : Nat
  point  : Nat
  phase  : Nat
  period : Nat
  deriving DecidableEq, Repr

/-- A timetable section: its lock list and its reservation list (R50). -/
structure Section where
  locks : List LockEntry := []
  res   : List ResEntry := []
  deriving DecidableEq, Repr

/-- A table placement entry (R54). -/
structure Placement where
  region : Nat
  words  : Nat
  addr   : Nat
  copies : Nat
  deriving DecidableEq, Repr

/-- The loaded timetable (R49 to R54). -/
structure Image where
  flightTicks : Nat
  offset      : Nat
  voyage      : Nat
  spare       : Nat
  sections    : List Section
  places      : List Placement
  deriving DecidableEq, Repr

/-- An open VC_0 reservation at its two ports (R70 to R73). -/
structure OpenRes where
  idx     : Nat
  res     : ResEntry
  /-- Flit tokens left. -/
  tokens  : Nat
  /-- First sendings so far. -/
  sent    : Nat := 0
  /-- Flits that wait for a receiver credit, and flits received, each with its place in the reservation, a
waiting one with what the receiver will find of its CRC. -/
  waiting : List (Nat × W64 × Bool) := []
  got     : List (Nat × W64) := []
  /-- Flits in which the receiver found a CRC error, due on the other plane, each with its place (R28). -/
  resend  : List (Nat × W64) := []
  /-- Places whose value was accepted (R29). -/
  ok      : List Nat := []
  refused : Bool := false
  deriving DecidableEq, Repr

/-- A table write not yet acknowledged (R78): the engines that still owe an acknowledgement. -/
structure TableWrite where
  copies : Nat
  word   : Nat
  value  : D24
  deriving DecidableEq, Repr

/-- An entry of the loaded timetable: its section, whether it is a reservation, its place in the list. -/
structure EntryRef where
  sec : Nat
  res : Bool
  idx : Nat
  deriving DecidableEq, Repr

/-- The timetable sequencer and the table-write service, beyond their registers. -/
structure Tt where
  image     : Option Image := none
  /-- Entries whose halves disagree in the copy that the sequencer uses, and in the second copy (R340). -/
  torn      : List EntryRef := []
  torn2     : List EntryRef := []
  /-- The address latched by an accepted LOAD (R55), and whether the sequencer has stopped. -/
  loading   : Option Nat := none
  /-- Section of a real engine loss that awaits its boundary (R82), with the tick at which it may activate. -/
  altReal   : Option (Nat × Nat) := none
  /-- Section of a forced alternate that awaits its boundary (R87). -/
  altForced : Option Nat := none
  /-- The active alternate was forced. -/
  forcedOn  : Bool := false
  /-- Engines marked lost by a forced alternate only (R87). -/
  forcedLost : Nat := 0
  /-- Flight number and phase of the flight in progress (R41). -/
  flightNo  : Nat := 0
  /-- Consecutive cut-offs of each planned lock, by LOCK_ID (R68). -/
  cutRuns   : Tbl Nat := []
  writes    : List TableWrite := []
  /-- Planned locks whose replica is stale (R344 to R346), by LOCK_ID. -/
  stale     : List Nat := []
  /-- Moved locks not started in this section for a stale replica. -/
  blocked   : List Nat := []
  /-- Line time stepped: no lock starts before the next boundary (R434). -/
  stepped   : Bool := false
  deriving DecidableEq, Repr

/-- The towpath beyond its registers: the open reservations, the CRC errors of each port and plane in this voyage
(R341), first sendings of this flight per port. -/
structure Tow where
  opened    : List OpenRes := []
  errA      : Tbl Nat := []
  errB      : Tbl Nat := []
  sentNow   : Tbl Nat := []
  /-- Values received at the ports that are no engine, die link or mirror, by 2^24 × port + 256 × tag + place, with the
  flight of their arrival. -/
  inbox     : List (Nat × W64 × Nat) := []
  /-- Flits that accepted commits published: reservation, place, flit (R122). -/
  out       : List (Nat × Nat × W64) := []
  deriving DecidableEq, Repr

/-! ## State mirror (R591, R67) -/

structure Mirror where
  words   : Tbl D24 := []
  /-- Difference of the stored complement from the complement of the stored word; 0 where the pair agrees. -/
  diff    : Tbl D24 := []
  /-- Flight number kept with each region, by LOCK_ID. -/
  flights : Tbl Nat := []
  /-- Locks whose accepted mirror write is not yet forwarded to the replica (R344). -/
  fwd     : List Nat := []
  deriving DecidableEq, Repr

/-! ## Loop engine (R95 to R99, R105 to R115, R121 to R125) -/

/-- A level of the loop stack. -/
structure LoopLvl where
  cnt : Nat
  sta : Nat
  fin : Nat
  deriving DecidableEq, Repr

/-- One full register bank. -/
structure LeBank where
  x  : Vector Word 16 := Vector.replicate 16 0
  d  : Vector D24 16 := Vector.replicate 16 0
  a  : Vector (BitVec 56) 4 := Vector.replicate 4 0
  p  : Vector (BitVec 14) 8 := Vector.replicate 8 0
  pb : Vector (BitVec 14) 8 := Vector.replicate 8 0
  m  : Vector Word 8 := Vector.replicate 8 0
  sr : Word := 0
  /-- The flags as a BRC sees them (R105). -/
  fl : Word := 0
  pc : BitVec 16 := 0
  /-- Innermost level first, at most four. -/
  loops : List LoopLvl := []
  deriving DecidableEq, Repr

/-- A result on its way down the exposed pipeline (R105, R107). -/
inductive LeRes where
  | x (r : Fin 16) (v : Word)
  | d (r : Fin 16) (v : D24)
  | a (r : Fin 4) (v : BitVec 56)
  /-- The SR bits of the mask take the value, for every reader; for every reader but BRC. -/
  | sr (mask v : Word)
  | srMove (mask v : Word)
  | mem (addr : BitVec 14) (v : D24)
  deriving DecidableEq, Repr

/-- A pending result and the first issue cycle that sees it. -/
structure LePend where
  due : Nat
  res : LeRes
  deriving DecidableEq, Repr

/-- The branch whose delay slots are being executed: slots left and the target if taken (R106). -/
structure DelaySlot where
  left   : Nat
  target : Option (BitVec 16)
  deriving DecidableEq, Repr

/-- A staged output: the word staged, whether it is an STTW pair (R122), and the word of the PWM shadow that a kernel of the loop ROM
names for it (R277). -/
structure StagedFlit where
  data : W64
  wide : Bool
  word : Option Nat := none
  deriving DecidableEq, Repr

/-- What the motion kernel keeps of the law in force and of the executing barge beside its state words (R236, R237, R245, R249): the body
under which the law runs, whether LAW0 is a ratio, runs under the GEAR body, whether the executing CAM barge took effect (1) or was
refused (2), whether the executing barge began late. -/
structure LawKeep where
  body  : Nat := 0
  ratio : Bool := false
  ramp  : Nat := 0
  cam   : Nat := 0
  late  : Bool := false
  deriving DecidableEq, Repr

/-- A run of a lock. -/
structure LeRun where
  lock    : LockEntry
  /-- Section of the timetable in which the lock started. -/
  sec     : Nat
  /-- Issue cycles since START. -/
  cyc     : Nat := 0
  /-- Cycle tokens left (R60). -/
  tokens  : Nat
  /-- Commit points accepted. -/
  commits : Nat := 0
  /-- Flits staged for the next commit point, in staging order, and the count over the whole run. -/
  staged  : List StagedFlit := []
  total   : Nat := 0
  /-- Staged words of the persistent state region, by data-memory address (R66). -/
  state   : Tbl D24 := []
  /-- What the motion kernel keeps of its law, staged like its state words, by queue. -/
  keep    : Option (Nat × LawKeep) := none
  /-- The loop ROM kernel that runs, by its entry point, and whether it was called (R129). -/
  rom     : Option Nat := none
  called  : Bool := false
  /-- A work unit of RT_IST is in progress (R589). -/
  unit    : Bool := false
  deriving DecidableEq, Repr

/-- A loop engine with its lock-keeper. -/
structure Le where
  bank   : LeBank := {}
  /-- The bank of the abort and fault contexts (R115). -/
  shadow : LeBank := {}
  /-- A cut-off has frozen the kernel's bank until the next lock start. -/
  frozen : Bool := false
  run    : Option LeRun := none
  pend   : List LePend := []
  ds     : Option DelaySlot := none
  /-- Repetitions of the next instruction still to issue (R109). -/
  rep    : Option Nat := none
  /-- A single step was requested; a debug event waits to be taken (R112). -/
  stepOne : Bool := false
  evt    : Bool := false
  /-- Both cores are held in reset after a lockstep mismatch (R343). -/
  held   : Bool := false
  prog   : Tbl Word := []
  data   : Tbl D24 := []
  tblA   : Tbl D24 := []
  tblB   : Tbl D24 := []
  mbox   : Tbl W64 := []
  mvalid : Tbl Bool := []
  deriving DecidableEq, Repr

/-! ## Die links (R19 to R22, R39) -/

structure DieLink where
  /-- Sequence numbers expected and sent next, per direction: 0 uplink, 1 downlink. -/
  rxSeq : Vector Nat 2 := Vector.replicate 2 0
  txSeq : Vector Nat 2 := Vector.replicate 2 0
  /-- A retry is outstanding (R39). -/
  retry : Vector Bool 2 := Vector.replicate 2 false
  /-- Sequence number acknowledged last (R20). -/
  acked : Vector (Option Nat) 2 := Vector.replicate 2 none
  /-- Words that uplink frames brought to the endpoint and no reservation has sent on, each with its destination tag and the flight
  of its arrival (R21). -/
  up    : List (Nat × D24 × Nat) := []
  /-- Flight numbers of the frames dropped lately (R22). -/
  drops : List Nat := []
  faulted : Bool := false
  /-- Clock of the last keep-alive or valid frame (R146). -/
  lastAlive : Nat := 0
  silent : Bool := false
  deriving DecidableEq, Repr

/-! ## Basin (R222 to R257) -/

/-- A descriptor (R225): 64 bytes, little-endian. -/
abbrev Desc := BitVec 512

/-- One queue beyond its registers. Lists hold descriptor indices, oldest first. -/
structure Queue where
  queued   : List Nat := []
  exec     : Option Nat := none
  /-- Descriptors held from the queue's reserve; the others it holds are the pool's (R224, R230). -/
  fromRes  : List Nat := []
  stopFw   : Bool := false
  stopSup  : List Nat := []
  stopCol  : List Nat := []
  stopSafe : Bool := false
  /-- The safety source as raised by SS1 or SS2 on the axis (R372). -/
  stopSs   : Bool := false
  stopKer  : Bool := false
  /-- Queues of the group whose SS1 or SS2 stops this queue too; sources raised since the last flight boundary (R253). -/
  stopGrp  : List Nat := []
  rose     : List (Nat × Nat) := []
  /-- STOPPED. -/
  stopped  : Bool := false
  /-- The flush of R255: the rest of the queue goes at the next boundary. -/
  flushDue : Bool := false
  resume   : Bool := false
  /-- Line time since which the head of a shared queue could begin, but for its START (R257). -/
  headAt   : Nat := 0
  /-- What the motion kernel of the axis keeps of its law, as of the last accepted final commit. -/
  keep     : LawKeep := {}
  /-- The dispatcher began the executing barge more than 1 µs after its START. -/
  late     : Bool := false
  deriving DecidableEq, Repr

/-- A notification (R229, BASIN_NOTE). -/
structure Note where
  queue  : Nat
  seq    : Nat
  tag    : Nat
  result : Nat
  deriving DecidableEq, Repr

structure Basin where
  desc    : Tbl Desc := []
  /-- Clock at which a descriptor was accepted (R412). -/
  accAt   : Tbl Nat := []
  queues  : Vector Queue 80 := Vector.replicate 80 {}
  /-- Staging words, by 16 × initiator + word (R227). -/
  stage   : Tbl Word := []
  /-- BASIN_SUBSTAT of each initiator, and the check it has running: the queue named and the descriptor staged. -/
  substat : Tbl Word := []
  checks  : List (Nat × Nat × Desc) := []
  notes   : List Note := []
  deriving DecidableEq, Repr

/-! ## Channels and sense-and-drive dies -/

/-- A shadow that is being loaded (R136, R143): the flight of its arrival, the clock of its latest word, its words 1 to 7. -/
structure Shadow where
  flight : Nat
  at_    : Nat
  words  : Tbl D24
  deriving DecidableEq, Repr

/-- The last burst frame of a channel (R151, R177): currents of slots 0 to 3, bus voltage, SDD status, and for a stepper
channel the two mean phase voltages (R263). -/
structure BurstWords where
  i      : Vector D24 4 := Vector.replicate 4 0
  vbus   : D24 := 0
  status : D24 := 0
  vA     : D24 := 0
  vB     : D24 := 0
  deriving DecidableEq, Repr

/-- An edge that came: its clock, its carrier period, its edge word and the tap at which it acted (R140, R142). -/
structure PwmEdge where
  at_  : Nat
  c    : Nat
  word : Nat
  tap  : Nat
  deriving DecidableEq, Repr

/-- A channel's PWM generator and power stage beyond their registers (R133 to R195, R262 to R275). -/
structure Ax where
  /-- Triggers of the safe state that act, oldest first (R146), and whether the safe state is held (R148). -/
  safe     : List SafeCause := []
  held     : Bool := false
  /-- EN was written 0 after the last trigger ceased (R148). -/
  enDropped : Bool := false
  /-- Shadows not yet in effect, oldest first. -/
  loads    : List Shadow := []
  /-- Switching has started since EN was set (R144). -/
  started  : Bool := false
  /-- A duty arrived in this flight (PWM_NOLOAD), and EN was 1 at its start. -/
  arrived  : Bool := false
  enAtStart : Bool := false
  /-- Duties in effect (R139), of slots 0 to 3 as the downlink gave them. -/
  duty     : Vector D24 4 := Vector.replicate 4 0
  /-- Line-synchronous carrier index of the current carrier period (R140). -/
  carrier  : Nat := 0
  /-- The half of the carrier period after its peak; clock of the last update point (R135, R136). -/
  pastPeak : Bool := false
  upAt     : Option Nat := none
  /-- Pulses of R142 under way at the driver inputs. -/
  ho       : Vector Bool 4 := Vector.replicate 4 false
  lo       : Vector Bool 4 := Vector.replicate 4 false
  /-- The rising and the falling edge whose delayed opposite turn-on has not come yet (R141). -/
  riseE    : Vector (Option PwmEdge) 4 := Vector.replicate 4 none
  fallE    : Vector (Option PwmEdge) 4 := Vector.replicate 4 none
  /-- Clocks before which HO, or LO, stays off after the opposite switch was on (R147). -/
  hoFrom   : Vector Nat 4 := Vector.replicate 4 0
  loFrom   : Vector Nat 4 := Vector.replicate 4 0
  /-- Clock of the last turn-on edge at a slot's driver input (R183). -/
  onAt     : Vector (Option Nat) 4 := Vector.replicate 4 none
  /-- A short circuit was counted and no switch of the channel turned on since (R185). -/
  scSeen   : Bool := false
  /-- Precharge periods left (R174); the check failed and holds duty 0 until EN is cleared. -/
  pre      : Option Nat := none
  bootHeld : Bool := false
  /-- Slots whose BST-SH is below its falling threshold (R175), and whether this carrier period is counted. -/
  bstLow   : Vector Bool 4 := Vector.replicate 4 false
  buvCounted : Bool := false
  /-- Count of consecutive LOST status words, and actions taken that wait for their count to reset (R159, R216, R275):
  VLIM, LOST, FE, SAT, WU, HOLD, STALL. -/
  lbRun    : Nat := 0
  acted    : Vector Bool 7 := Vector.replicate 7 false
  /-- Slots under offset calibration (R186). -/
  calMask  : Nat := 0
  /-- Brake chopper block: sum of D_3 and carrier periods so far, next block forced off (R190). -/
  brkSum   : Nat := 0
  brkN     : Nat := 0
  brkOff   : Bool := false
  /-- Latest burst frames, early and late. -/
  early    : BurstWords := {}
  late     : BurstWords := {}
  /-- Phase-node conversions of this flight: sums of the differences of phases A and B, number; their means over the flight before
  (R263). -/
  phvA     : Int := 0
  phvB     : Int := 0
  phvN     : Nat := 0
  meanA    : D24 := 0
  meanB    : D24 := 0
  /-- EN was set and K_STEP has not run since (R273). -/
  stepNew  : Bool := false
  /-- Chopper phases A and B (R267): clock of entry into the state, in DRIVE since the flight began, NOCHOP in the next SDD
  status. -/
  chopAt   : Vector Nat 2 := Vector.replicate 2 0
  driveAll : Vector Bool 2 := Vector.replicate 2 false
  nochop   : Vector Bool 2 := Vector.replicate 2 false
  deriving DecidableEq, Repr

/-- A sense-and-drive die beyond its registers. -/
structure Sdd where
  /-- The last boundary marker (R23): line time in ticks and the clock of its arrival. -/
  marker   : Option (Nat × Nat) := none
  /-- VGD has been above its rising threshold since the supply mode was selected (R168). -/
  vgdSeen  : Bool := false
  twarnOn  : Bool := false
  tsdOn    : Bool := false
  /-- VBUS is above VBUS_OV. -/
  ovOn     : Bool := false
  deriving DecidableEq, Repr

/-! ## Fault collector (R334 to R354) -/

structure Fc where
  seq      : Nat := 0
  pend     : List PendSrc := []
  /-- Conditions that are active: source ID and the unit's number of the condition (R339). -/
  conds    : List (Nat × Nat) := []
  /-- The engine of the first real loss, and voyage boundaries that have passed since its alternate became active; the
  continuation window is open while fewer than two have passed (R349). -/
  lostEng  : Option Nat := none
  window   : Bool := false
  activated : Bool := false
  voyages  : Nat := 0
  /-- A double fault is recorded (R85, R511). -/
  double   : Bool := false
  /-- Elapsed motion-degraded minutes before the timer's last start, and the clock of that start (R350). -/
  mdPrior  : Nat := 0
  mdStart  : Nat := 0
  sdStart  : Nat := 0
  /-- Overdue rounds in a row (R354). -/
  overdue  : Nat := 0
  /-- The test round in progress exceeded 2 s; clock of its first work unit, where a round has begun (R354). -/
  roundOver : Bool := false
  roundAt  : Option Nat := none
  /-- The round in progress (R353): engines whose own tests are done, other tests that are done, and the test that an engine is at. -/
  istSelf  : List Nat := []
  istDone  : List Nat := []
  istAt    : List (Nat × Nat) := []
  /-- Islands whose clock stopped or that a debug halt stopped: LE_n as n, NW 19, PS 22 (R26). -/
  stopped  : List Nat := []
  deriving DecidableEq, Repr

/-! ## Power and modes (R497 to R523) -/

/-- An orderly power-down in progress (R516, R519): the step of R516 reached, the clock of the request. -/
structure PowerDown where
  step : Nat
  at_  : Nat
  deriving DecidableEq, Repr

structure Pwr where
  /-- The module is in Reset (R508), RESET_N is low. -/
  inReset  : Bool := false
  resetLow : Bool := false
  /-- Domains lost while requested on (R504). -/
  lost     : List Nat := []
  /-- Domains switched on that are not ready yet. -/
  starting : List Nat := []
  /-- The mode requested, until it takes effect (R507). -/
  modeReq  : Option Nat := none
  /-- Steps of Wake completed, and the clock of its reference instant (R509). -/
  wakeStep : Nat := 0
  wakeAt   : Nat := 0
  wakeFailed : Bool := false
  /-- The retention RAM was checked in this Wake (R523); an alarm fell while VIN was absent (R513). -/
  retDone  : Bool := false
  alarmWaits : Bool := false
  /-- Mode lands MODE_3 to MODE_0, WAKE land (R514). -/
  straps   : BitVec 4 := 0
  wakeLand : Bool := false
  /-- VIN at or above VIN_OK. -/
  vinOk    : Bool := true
  /-- Retention RAM by byte (R521), RTC count in crystal periods (R520). -/
  ret      : Tbl Byte := []
  rtc      : Nat := 0
  vbakLow  : Bool := false
  /-- The store accepts no new record: VIN fell below VIN_WARN (R515). -/
  storeBlocked : Bool := false
  down     : Option PowerDown := none
  deriving DecidableEq, Repr

/-! ## Supervisor pairs (R382 to R407, R411) -/

/-- A 64-byte cache line (R404). -/
structure CacheLine where
  line  : Nat
  data  : BitVec 512
  dirty : Bool := false
  deriving DecidableEq, Repr

/-- A supervisor pair. -/
structure Sv where
  /-- U1 to U3 (R384). -/
  u      : Vector Word 3 := Vector.replicate 3 0
  /-- S0 to S3 and H0 to H3 of the eight frames, by 4 × frame + number. -/
  sReg   : Vector Word 32 := Vector.replicate 32 0
  hReg   : Vector Word 32 := Vector.replicate 32 0
  pc     : Word := 0
  st     : Word := 0x00000A00
  rsv    : Word := 7
  tvec   : Word := 0
  tstatus : Word := 0
  tcause : Word := 0
  tval   : Word := 0
  fsp    : Word := 0
  icSel  : Word := 0
  icClaim : Word := 0
  /-- EDGE and LEVEL of each source, and the pending edges (R397 to R399). -/
  icCfg  : Tbl Word := []
  icEdge : List Nat := []
  /-- Edge sources whose present level was seen, so that it is no new edge. -/
  icHigh : List Nat := []
  ptCtl  : Word := 0
  ptId   : Word := 15
  /-- Remaining budgets of partitions 0 to 14 (R401). -/
  ptLeft : Vector Nat 15 := Vector.replicate 15 0
  ptMused : Word := 0
  ptOvr  : Word := 0
  ptStat : Word := 0
  ptBud  : Vector Word 15 := Vector.replicate 15 0
  mpuBase  : Vector Word 16 := Vector.replicate 16 0
  mpuLimit : Vector Word 16 := Vector.replicate 16 0
  icache : List CacheLine := []
  dcache : List CacheLine := []
  /-- The cores run; false while the domain is off, in a restart and in reset. -/
  up     : Bool := false
  waiting : Bool := false
  /-- The pair was restarted at this clock (R341). -/
  restartedAt : Option Nat := none
  /-- Instruction tagging: the down-counter (R411). -/
  tagCnt : Nat := 0
  deriving DecidableEq, Repr

/-! ## Line time and Ethernet -/

/-- A time reference: 0 ETH_0, 1 ETH_1, 2 CAN (R436). -/
structure TimeRef where
  /-- Clock of the last valid Sync, consecutive valid Syncs, whether the reference is qualified. -/
  last : Option Nat := none
  run  : Nat := 0
  qual : Bool := false
  deriving DecidableEq, Repr

structure TimeSt where
  /-- Line time (R17) and its 40-bit extension below (R428). -/
  line  : W64 := 0
  ext   : BitVec 40 := 0
  /-- RATE0 and ACC of the servo (R432), the last offset measured, the step that waits for its boundary (R433). -/
  rate0 : Int := 0
  acc   : Int := 0
  ofs   : Option Int := none
  step  : Option Int := none
  refs  : Vector TimeRef 3 := Vector.replicate 3 {}
  /-- Candidate of a SWITCH and the state before it (R437), Syncs within LOCK_THR in ACQUIRE, clock of the entry into HOLDOVER. -/
  cand  : Option Nat := none
  prev  : Nat := 0
  good  : Nat := 0
  holdAt : Option Nat := none
  deriving DecidableEq, Repr

/-- An entry of a launch queue (R448). -/
structure LaunchEnt where
  addr : Nat
  len  : Nat
  cls  : Nat
  at_  : W64
  deriving DecidableEq, Repr

/-- An Ethernet port beyond its registers. -/
structure EthPort where
  /-- Priority vector of the last Announce (R443), and the grandmaster it names. -/
  ann   : Option (Nat × BitVec 64) := none
  /-- Departure stamp of the Pdelay request that waits for its answer; neighbour rate ratio − 1 in 2^−41. -/
  t1    : Option W64 := none
  nrr   : Int := 0
  /-- Operational gate control list and its length, entry in progress, line time of its end, classes open, bank change
  scheduled (R447). -/
  gcl   : Tbl Word := []
  len   : Nat := 0
  idx   : Nat := 0
  fin   : W64 := 0
  gates : Nat := 255
  change : Bool := false
  /-- Launch queue, oldest first, and the words of the entry being pushed. -/
  lq    : List LaunchEnt := []
  push  : Vector Word 3 := Vector.replicate 3 0
  /-- Last Sync sent: originTimestamp, correctionField and cumulativeScaledRateOffset; turnaround in the last Pdelay_Resp sent. -/
  sync  : Option (Nat × Int × Int) := none
  resp  : Option Int := none
  deriving DecidableEq, Repr

/-- The object a subscription holds (R453). -/
structure SubObj where
  p  : W64
  v  : Word
  a  : Word
  fx : Word
  deriving DecidableEq, Repr

/-- A received message (R456). -/
structure TlMsg where
  src  : Nat
  data : List Byte
  deriving DecidableEq, Repr

/-- An answer kept for a requester (R454). -/
structure TlAnswer where
  src : Nat
  seq : Nat
  data : List Byte
  deriving DecidableEq, Repr

structure Eth where
  port  : Vector EthPort 2 := Vector.replicate 2 {}
  /-- Duplicate table: source MAC, sequence number, clock of entry (R441). -/
  dup   : List (Nat × Nat × Nat) := []
  /-- HSR sequence number of the next own frame; supervision frames sent since one came back (R442). -/
  seq   : Nat := 0
  sup   : Nat := 0
  /-- Grandmaster that the best master clock algorithm selected. -/
  gm    : Option (BitVec 64) := none
  /-- Latest frame passed to NW. -/
  nw    : Option EthFrame := none
  subs  : Vector (Option SubObj) 64 := Vector.replicate 64 none
  /-- Sequence numbers of frames sent, by TYPE; the latest cyclic frame: FX and objects; the latest answer. -/
  tlSeq : Tbl Nat := []
  cyc   : Option (Nat × List TlObj) := none
  answer : Option TlAnswer := none
  /-- Answers of the 8 most recent requesters, latest first. -/
  kept  : List TlAnswer := []
  /-- Receive FIFO, payload words of its head that have been read, send queue: destination and payload. -/
  msgs  : List TlMsg := []
  seen  : Nat := 0
  sendq : List (Nat × List Byte) := []
  deriving DecidableEq, Repr



/-! ## Boot, flash, parameter store, wharf (R524 to R545) -/

/-- A flash operation in progress (R535): the OP, and address, source and length as latched. -/
structure NorOp where
  op   : Nat
  addr : Nat
  src  : Nat
  len  : Nat
  deriving DecidableEq, Repr

/-- A record service request (R540 to R545): a firmware request or a record of the module's own. -/
inductive PsOp where
  | write (key : Nat) (val : List Byte)
  | read (key : Nat) (addr : Nat)
  | compact
  deriving DecidableEq, Repr

structure Boot where
  /-- NOR offset of the booted slot of types 1 to 4, and of the boot record that stood at boot. -/
  slot    : Vector (Option Nat) 4 := Vector.replicate 4 none
  record  : Option Nat := none
  /-- ABI major of the booted SV_0 image. -/
  abi     : Nat := 0
  /-- Key slots (R527): hash of a programmed slot, revocation bit. -/
  keys    : Vector (Option Nat) 4 := #v[some Config.releaseKey, none, none, none]
  revoked : Vector Bool 4 := Vector.replicate 4 false
  nor     : Option NorOp := none
  verify  : Option (Initiator × Nat) := none
  /-- The request that runs, and the module's own records that wait. -/
  ps      : Option (Bool × PsOp) := none
  psWait  : List (Bool × PsOp) := []
  /-- Store addresses of the records, oldest first; of those marked bad (R542). -/
  recs    : List Nat := []
  bad     : List Nat := []
  /-- What the segment headers hold (R539, R545; their form is not given): end of the used part of each segment (16 where none is
  listed), the open segment. -/
  segEnd  : Tbl Nat := []
  segOpen : Nat := 0
  /-- The wharf (R537): address and words of a WRITE not yet accepted (BUSY), the bytes it last returned, status bits LATE, WERR
  and OVR. -/
  wr      : Nat × List Word := (0, [])
  wout    : List Byte := []
  late    : Bool := false
  werr    : Bool := false
  ovr     : Bool := false
  deriving DecidableEq, Repr

/-! ## Encoder ports (R278 to R301) -/

/-- A legal edge, or an illegal transition: its stamp and its acceptance in line time, its direction. -/
structure FbEdge where
  stamp : Nat
  acc   : Nat
  up    : Bool
  ill   : Bool := false
  deriving DecidableEq, Repr

/-- What a port sends at a sampling instant (R294); none is not sent. -/
structure FbOut where
  angle : Option D24 := none
  pos   : Option W64 := none
  vt    : Option W64 := none
  ts    : Option D24 := none
  deriving DecidableEq, Repr

/-- The states of the alignment (R300). -/
inductive AlSt where
  | idle | rest | armed | settle0 | settle1 | holding
  deriving DecidableEq, Repr

structure Fb where
  count  : W64 := 0
  ofs    : W64 := 0
  /-- An offset that takes effect at the next flight boundary. -/
  ofsNew : Option W64 := none
  /-- Level pair AB as accepted, Hall state as filtered. -/
  ab     : BitVec 2 := 0
  hall   : BitVec 3 := 0
  /-- COUNT at the latest flight boundary (R294). -/
  count0 : W64 := 0
  /-- What no sampling instant has used yet, in order of acceptance. -/
  edges  : List FbEdge := []
  /-- No legal edge since the reset or the last illegal transition, as the latest sampling instant saw it. -/
  fresh  : Bool := true
  /-- Stamp and direction of E1, the stamp of B. -/
  e1     : Option (Nat × Bool) := none
  /-- Edges that the latest sampling instant used, and E1 before it: a latch stamp may lie before them (R320). -/
  past   : List FbEdge := []
  e0     : Option (Nat × Bool) := none
  tB     : Nat := 0
  tv     : Bool := false
  vt     : Int := 0
  /-- The latest sampling instant, TV and VT before it. -/
  inst   : Nat := 0
  tv0    : Bool := false
  vt0    : Int := 0
  /-- Length and number of edges of the last timed interval: DL is their quotient. -/
  dlTime : Nat := 0
  dlN    : Nat := 1
  /-- An illegal transition since the last sampling instant. -/
  ill    : Bool := false
  /-- Illegal transitions in the block of flights (R295). -/
  illBlk : Nat := 0
  illN   : Nat := 0
  /-- Serial frames (R288 to R292): latch instant of the frame under way, the latest data, the last two frames with their counts
  and latch instants, discarded frames in a row, the next frame is taken with any change, clock and flight of the last end. -/
  frame  : Option Nat := none
  data   : Option Nat := none
  c0     : Option (W64 × Nat) := none
  c1     : Option (W64 × Nat) := none
  bad    : Nat := 0
  anyD   : Bool := false
  endAt  : Nat := 0
  /-- Conditions that hold: 0 LOSS, 1 EQ, 2 CM, 3 HILL, 4 illegal transitions, 5 serial. -/
  conds  : List Nat := []
  out    : FbOut := {}
  /-- Alignment: state, forced angle, θm1, counts with the clocks of their changes. -/
  al     : AlSt := .idle
  forced : Option D24 := none
  thm1   : D24 := 0
  trace  : List (Nat × W64) := []
  deriving DecidableEq, Repr
/-! ## Print triggers, encoder emulation, latches (R302 to R330) -/

/-- A position model (R303, R304): at τ units of 62.5 ps after `t0` the position, in 2^−32 counts, is
`p + (c1·τ + c2·τ²) / den` up to τ = `ts` and `p + (c1·τ + c2·ts·(2τ − ts)) / den` beyond. -/
structure PsModel where
  p   : W64
  t0  : Int
  c1  : Int
  c2  : Int := 0
  ts  : Int := 0
  den : Nat
  deriving DecidableEq, Repr

/-- A scheduled pulse that has not started (R310): its entry, the entry before it, its leading edge, whether it is late. -/
structure PsPulse where
  entry : W64
  prev  : Option W64
  start : Int
  late  : Bool
  deriving DecidableEq, Repr

structure Trg where
  /-- Ring entries, head first (R307), and the word that LDATA_LO holds. -/
  ring  : List W64 := []
  lo    : Word := 0
  /-- Next periodic entry (R308), and periodic entries that came back to the head (R329). -/
  k     : Nat := 0
  back  : List W64 := []
  /-- The entry that left the head last. -/
  prev  : Option W64 := none
  sched : List PsPulse := []
  /-- Trailing edge of the previous pulse, and of the pulse that is on. -/
  last  : Option Int := none
  act   : Option Int := none
  deriving DecidableEq, Repr

structure Emu where
  c     : Int := 0
  c0    : Int := 0
  /-- ORG is known: position of the last window's model and its distance from ORG. -/
  org   : Option (W64 × Int) := none
  /-- Models of the window that runs and of the next one, each with the distance of its position from ORG, and the boundary at
  which the next one begins. -/
  cur   : Option (PsModel × Int) := none
  next  : Option (PsModel × Int) := none
  /-- Grid point of the previous edge. -/
  last  : Option Int := none
  past  : Bool := false
  ab    : BitVec 2 := 0
  z     : Bool := false
  deriving DecidableEq, Repr

/-- A latched event (R319 to R321, R330); `drop`: it was accepted while the FIFO was full. -/
structure LatEvt where
  stamp   : Nat
  falling : Bool
  seq     : Nat
  step    : Bool
  drop    : Bool
  loss    : Bool := false
  /-- Positions by mask bit; a bit that is not listed is not valid. -/
  pos     : List (Nat × W64)
  deriving DecidableEq, Repr

structure Lat where
  /-- Events whose positions are not complete, complete events, oldest first. -/
  busy  : List LatEvt := []
  fifo  : List LatEvt := []
  seq   : Nat := 0
  loss  : Bool := false
  /-- The correction stream is valid (R322). -/
  corr  : Bool := false
  deriving DecidableEq, Repr

/-- A result of an interval unit (R324). -/
structure TimRes where
  val  : Word
  coin : Bool := false
  ord  : Bool := false
  sat  : Bool := false
  deriving DecidableEq, Repr

structure Tim where
  start : Option Nat := none
  fifo  : List TimRes := []
  deriving DecidableEq, Repr

structure Psync where
  trg    : Vector Trg 16 := Vector.replicate 16 {}
  emu    : Vector Emu 8 := Vector.replicate 8 {}
  lat    : Vector Lat 16 := Vector.replicate 16 {}
  tim    : Vector Tim 8 := Vector.replicate 8 {}
  /-- Models of the remote slots valid in the flight (R304). -/
  slots  : List (Nat × PsModel) := []
  /-- P of each local source with the flight it came in (R303). -/
  prevP  : List (Nat × Nat × W64) := []
  /-- The flight in which line time stepped: from the step to the next flight boundary (R329). -/
  stepIn : Option (Nat × Nat) := none
  /-- Lines that failed calibration and work with taps 0 only (R328); lines swapped in this background round (R327). -/
  coarse : List DelayLine := []
  round  : List DelayLine := []
  deriving DecidableEq, Repr

/-! ## Functional safety (R355 to R381) and safe data (R468 to R477) -/

/-- States of a safety input pair (R367). -/
inductive PairSt where
  | off | discOn | ready | on | discOff | fault
  deriving DecidableEq, Repr

/-- An SS1 or SS2 that runs (R372): the safety cycle of its activation and |v| then, in units of the axis. -/
structure SsRun where
  at_ : Nat
  v0  : Nat
  deriving DecidableEq, Repr

/-- A safety axis in one channel. -/
structure Sax where
  /-- COUNT in the latest cycles, newest first; none where the source was invalid. -/
  hist  : List (Option W64) := []
  ss1   : Option SsRun := none
  ss2   : Option SsRun := none
  /-- The SS1 left its ramp; the SS1 has ended; with SBC_LEAD, the cycle at which STO follows the brake. -/
  off   : Bool := false
  ended : Bool := false
  lead  : Option Nat := none
  /-- Position at SOS entry; furthest point in the permitted direction. -/
  sos   : Option W64 := none
  far   : Option W64 := none
  slsJ  : Nat := 0
  inv   : Bool := false
  /-- Function numbers f in violation or fault. -/
  viol  : List Nat := []
  /-- STO is demanded at once; STO is demanded, at once or because the SS1 has ended (R372, R373). -/
  hard  : Bool := false
  sto   : Bool := false
  brake : Bool := false
  deriving DecidableEq, Repr

/-- What the SAFE block latches for a channel at a boundary (R356). -/
structure SafeSnap where
  /-- STO lands that are asserted. -/
  landA : Bool := false
  landB : Bool := false
  di    : Nat := 0
  /-- Pairs with a cross-fault (R366). -/
  cross : Nat := 0
  hs    : Nat := 0
  ls    : Nat := 0
  vout  : Nat := 0
  vinv  : Bool := true
  /-- The readback belongs to the switches as commanded then. -/
  fresh : Bool := false
  /-- COUNT of SRC_A and SRC_B of each safety axis, none where invalid. -/
  pos   : List (Option W64 × Option W64) := []
  deriving DecidableEq, Repr

/-- One channel: A is SV_1, B is SC. -/
structure SafeCh where
  /-- The safety parameter block and its complement copy (R355). -/
  val   : List Byte := []
  cmp   : List Byte := []
  pair  : Vector PairSt 8 := Vector.replicate 8 .off
  sax   : Vector Sax 16 := Vector.replicate 16 {}
  /-- Groups on which the channel demands STO, by bit. -/
  demand : Nat := 0
  /-- The channel's switch of each SO_k. -/
  so    : Vector Bool 4 := Vector.replicate 4 false
  /-- Clock at which its latest test pulse on each SO_k began (R369). -/
  pulse : Vector (Option Nat) 4 := Vector.replicate 4 none
  /-- Its snapshot. -/
  snap  : SafeSnap := {}
  /-- Its enable latch (R359), cycles without a result, channel lost, lost by a restart, block reloaded and fitting (R361). -/
  latch : Bool := false
  miss  : Nat := 0
  lost  : Bool := false
  restart : Bool := false
  back  : Bool := false
  deriving DecidableEq, Repr

/-- States of a safe-data connection (R474). -/
inductive RxSt where
  | wait | ok | lost | fault
  deriving DecidableEq, Repr

/-- An open comparison window (R473): SEQ, the first copy and its plane (Towline, or CAN), the clock of its end. -/
structure RxWin where
  seq : Nat
  msg : List Byte
  can : Bool
  due : Nat
  deriving DecidableEq, Repr

structure Rx where
  st    : RxSt := .wait
  /-- Last message accepted, last SEQ accepted, last SEQ decided. -/
  msg   : List Byte := []
  seq   : Nat := 0
  done  : Option Nat := none
  win   : List RxWin := []
  /-- Consecutive messages without the Towline copy, without the CAN copy, dual. -/
  missA : Nat := 0
  missB : Nat := 0
  duals : Nat := 0
  /-- Safety cycle of the last acceptance. -/
  at_   : Nat := 0
  deriving DecidableEq, Repr

structure Safe where
  a     : SafeCh := {}
  b     : SafeCh := {}
  /-- Safety cycles counted since reset. -/
  cyc   : Nat := 0
  /-- Lands as the input stage gives them (R362). -/
  landA : Bool := false
  landB : Bool := false
  /-- STO held by a land discrepancy (both lands have asserted since) or by a path readback (R363). -/
  disc  : Bool := false
  discBoth : Bool := false
  path  : Bool := false
  /-- Groups that wait for SAFE_RESTART, restart bits written since the last boundary (R364, R367). -/
  waitG : Nat := 0
  restart : Nat := 0
  /-- SO_k held off by R369. -/
  soFault : Vector Bool 4 := Vector.replicate 4 false
  /-- T_SS1 has run out on an axis, since its SS1 and since its SS2. -/
  ssEnd : Vector Bool 16 := Vector.replicate 16 false
  ss2End : Vector Bool 16 := Vector.replicate 16 false
  /-- Axes whose positions disagree for two cycles (R360). -/
  posBad : Vector Bool 16 := Vector.replicate 16 false
  /-- Function indices in violation or fault; indices that disagreed in the last cycle. -/
  rep   : List Nat := []
  cmp   : List Nat := []
  /-- Block being loaded: its address (R378). -/
  load  : Option Nat := none
  /-- Safe-data table of both channels, its load, whether it was ever confirmed (R471, R511). -/
  sdt   : List Byte := []
  sdtLoad : Option Nat := none
  sdtConf : Bool := false
  /-- The table is armed. -/
  sdtOn : Bool := false
  rx    : Vector Rx 8 := Vector.replicate 8 {}
  /-- SEQ of the next message sent; messages handed to the Towline plane and to the CAN plane. -/
  txSeq : Nat := 0
  txTl  : Option (List Byte) := none
  txCan : Option (List Byte) := none
  deriving DecidableEq, Repr

/-! ## Field I/O (R478 to R496) -/

/-- A frequency window (R485): stamp of its opening edge in 100 ns and edges so far. -/
structure FreqWin where
  t0 : Nat
  n  : Nat
  deriving DecidableEq, Repr

structure Fio where
  /-- Consecutive uplink frames lost (R480). -/
  lost  : Nat := 0
  /-- The field side applies the fail-safe word; the entry has not been reported; clock of the last valid downlink frame. -/
  fsAct : Bool := false
  fsNew : Bool := false
  downAt : Nat := 0
  /-- Filtered states, counters and frequencies on the field side; edges since the last uplink frame. -/
  di    : Nat := 0
  cnt   : Vector Word 8 := Vector.replicate 8 0
  edges : Vector Nat 8 := Vector.replicate 8 0
  freq  : Vector Word 8 := Vector.replicate 8 0
  win   : Vector (Option FreqWin) 8 := Vector.replicate 8 none
  /-- Raw samples in a row that differ from the filtered state (R482). -/
  diRun : Vector Nat 32 := Vector.replicate 32 0
  /-- FIO_CNT_CLR bits that wait for the next uplink frame. -/
  clr   : Nat := 0
  /-- DO command word and fail-safe word as the field side holds them, switches that are on, outputs held off, those held off
  by temperature. -/
  cmd   : Nat := 0
  fs    : Nat := 0
  doOn  : Nat := 0
  held  : Nat := 0
  hot   : Nat := 0
  /-- SO switch commands as the field side holds them, switches that are on. -/
  soA   : Nat := 0
  soB   : Nat := 0
  soHs  : Nat := 0
  soLs  : Nat := 0
  /-- The SO readback came after the last change of the commands. -/
  soNew : Bool := false
  /-- Paired inputs with a test result (R492). -/
  tpSeen : Nat := 0
  /-- L+ below its undervoltage, above its overvoltage threshold (R494). -/
  uv    : Bool := false
  ov    : Bool := false
  /-- Sequence numbers that the next downlink and the next uplink frame of the field link carry (R479). -/
  seqDn : Nat := 0
  seqUp : Nat := 0
  deriving DecidableEq, Repr


/-! ## Acquisition (R414 to R427) -/

/-- A mask unit: its index once SYNC has risen, the SYNC condition in the previous record. -/
structure AcqMask where
  idx  : Option Nat := none
  sync : Option Bool := none
  deriving DecidableEq, Repr

structure Acq where
  /-- Input slots with the last accepted value; slots written since the previous latch. -/
  slots  : Tbl W64 := []
  valid  : List Nat := []
  /-- Samples of each probe, newest first, none where invalid; at most 256. -/
  hist   : Vector (List (Option Int)) 64 := Vector.replicate 64 []
  /-- The pattern held in the previous flight. -/
  held   : Bool := false
  /-- FORCE was written and waits for the latch; the trigger came and its record has not been stored. -/
  force  : Bool := false
  await  : Bool := false
  /-- Record words N + 1 of the capture, records stored since START, flight number of the latest record, slot of the trigger
  record, records stored after it. -/
  size   : Nat := 1
  stored : Nat := 0
  last   : Option Nat := none
  trig   : Option Nat := none
  after  : Nat := 0
  mask   : Vector AcqMask 4 := Vector.replicate 4 {}
  deriving DecidableEq, Repr

/-! ## CAN FD (R457 to R467) -/

structure Can where
  /-- Transmit object whose frame goes next or is on the bus; objects in release (R461, R463). -/
  onBus : Option Nat := none
  rel   : List Nat := []
  /-- TEC with its ninth bit. -/
  tec   : Nat := 0
  /-- Reference messages (R466, R467): sender: stamp of the previous one, if it was sent, and the payload of the last one;
  follower: SEQ and stamp of the last one received. -/
  tmSof : Option W64 := none
  tmMsg : List Byte := []
  tmPrev : Option (Nat × W64) := none
  deriving DecidableEq, Repr

/-! ## Outcomes -/

/-- Why the machine stops with a fault. The manual gives every fault of this hardware an effect on the state, so no meaning
raises one: the type has one constructor, kept for the interface. -/
inductive Fault where
  /-- Raised by nobody. Safe. -/
  | unreachable
  deriving DecidableEq, Repr

/-- Why a command is refused. -/
inductive Refusal where
  /-- The dispatch, for a command that has no meaning yet. Safe. -/
  | notModelled (mnemonic : String)
  deriving DecidableEq, Repr

/-! ## The state -/

structure State where
  /-- Ordering code; fixed for a module, so no command changes it. -/
  part    : Part := .fa48
  /-- Commands that wait, first in first out. -/
  pending : List Instr := []
  /-- Ticks of 4 ns since reset. -/
  clock   : Nat := 0
  /-- The model's own: uses of free values so far. -/
  free    : Nat := 0
  /-- Registers by byte address. -/
  regs    : Tbl Word := []
  /-- Stored complement XOR complement of the stored value, for each CP register; 0 where the pair agrees (R12, R340). -/
  cpDiff  : Tbl Word := []
  /-- Armed CP writes: initiator number, address of the value word, value, clock of the arming (R9 to R11). -/
  cpArmed : List (Nat × Nat × Word × Nat) := []
  /-- HI words latched by a read of LO, by 2^32 × initiator + address of the HI word (R556). -/
  hiLatch : Tbl Word := []
  /-- LO or first words written that wait for their HI write, by 2^32 × initiator + address. -/
  loHold  : Tbl Word := []
  resp    : Resp := .none
  /-- Byte memories by address of R546: tightly coupled RAM at its aliases, trace memory, NOR flash, parameter store. -/
  mem     : List Host.Cell := []
  timers  : List (TimerId × Nat) := []
  /-- Performance counters by 256 × unit + event (R409); units 0, 1 SV_p, 2 + n LE_n, 14 TOW. -/
  perf    : Tbl Nat := []
  time    : TimeSt := {}
  eth     : Eth := {}
  tt      : Tt := {}
  tow     : Tow := {}
  mirror  : Mirror := {}
  le      : Vector Le 12 := Vector.replicate 12 {}
  link    : Vector DieLink 12 := Vector.replicate 12 {}
  ax      : Vector Ax 48 := Vector.replicate 48 {}
  sdd     : Vector Sdd 12 := Vector.replicate 12 {}
  fb      : Vector Fb 48 := Vector.replicate 48 {}
  psync   : Psync := {}
  safe    : Safe := {}
  fio     : Fio := {}
  acq     : Acq := {}
  can     : Vector Can 2 := Vector.replicate 2 {}
  basin   : Basin := {}
  fc      : Fc := {}
  pwr     : Pwr := {}
  boot    : Boot := {}
  sv      : Vector Sv 2 := Vector.replicate 2 {}
  deriving DecidableEq, Repr

/-- The machine right after reset (R555): every register at the reset value of its table (no entry listed), mode Wake, no
domain ready but BK and AO, nothing queued. -/
def State.reset : State := {}

end Sys2Proof.Machine
end

