-- ==== Sys2Proof/Machine/Ops.lean ====
section
/-! DEFINITION. The operations that the commands share: bits, registers, timers, free values, interrupts, safe states and stop
sources, modes, and the fault collector's handling of a report. -/

namespace Sys2Proof.Machine
open Sys2Proof.Machine.Reg

/-! ## Bits -/

/-- Bits `hi` to `lo` of a number. -/
def bits (w hi lo : Nat) : Nat := (w >>> lo) % 2 ^ (hi + 1 - lo)

/-- A field of a register word. -/
def fget (w : Word) (f : Fld) : Nat := bits w.toNat f.hi f.lo

/-- A register word with a field replaced; `v` is taken modulo the width. -/
def fset (w : Word) (f : Fld) (v : Nat) : Word :=
  BitVec.ofNat 32 (w.toNat - fget w f * 2 ^ f.lo + v % 2 ^ (f.hi + 1 - f.lo) * 2 ^ f.lo)

/-- Bit `k` of a number. -/
def nbit (w k : Nat) : Bool := w.testBit k

/-- A Bool as 0 or 1. -/
def b2n (b : Bool) : Nat := if b then 1 else 0

/-- The two's-complement value of the low `n` bits of a number. -/
def sxt (n w : Nat) : Int := if w % 2 ^ n < 2 ^ (n - 1) then (w % 2 ^ n : Nat) else (w % 2 ^ n : Nat) - (2 ^ n : Nat)

/-- The low `n` bits of a two's-complement value. -/
def wrap (n : Nat) (v : Int) : Nat := (v % (2 ^ n : Nat)).toNat

/-- Truncation of R16: an arithmetic shift right. -/
def asr (v : Int) (k : Nat) : Int := v / (2 ^ k : Nat)

/-- Clamp into an interval. -/
def clampI (lo hi v : Int) : Int := if v < lo then lo else if hi < v then hi else v

/-- sat24 of R119. -/
def sat24 (v : Int) : Int := clampI (-8388608) 8388607 v

/-- Saturating increment of an unsigned counter of `n` bits. -/
def satInc (n v : Nat) : Nat := if v + 1 < 2 ^ n then v + 1 else 2 ^ n - 1

/-- Element `i` of a vector; `d` outside it. -/
def vget {α : Type} {k : Nat} (v : Vector α k) (d : α) (i : Nat) : α := (v[i]?).getD d

/-- Element `i` of a list; `d` outside it. -/
def vgetL {α : Type} (l : List α) (d : α) (i : Nat) : α := (l[i]?).getD d

/-! ## CRCs -/

/-- One bit of the CRC-16 of R19 (polynomial 0x1021, not reflected). -/
def crc16Bit (c : Nat) (b : Bool) : Nat :=
  let t := c.testBit 15 != b
  let c' := (c * 2) % 65536
  if t then c' ^^^ 0x1021 else c'

/-- The CRC-16 of R19 over bytes, each most significant bit first. -/
def crc16 (l : List Byte) : Nat :=
  l.foldl (fun c b => [7, 6, 5, 4, 3, 2, 1, 0].foldl (fun c k => crc16Bit c (b.toNat.testBit k)) c) 0xFFFF

/-- One bit of CRC-32C (R49), reflected. -/
def crc32cBit (c : Nat) : Nat := if c.testBit 0 then (c / 2) ^^^ 0x82F63B78 else c / 2

/-- CRC-32C of R49. -/
def crc32c (l : List Byte) : Nat :=
  (l.foldl (fun c b => [0, 1, 2, 3, 4, 5, 6, 7].foldl (fun c _ => crc32cBit c) (c ^^^ b.toNat)) 0xFFFFFFFF) ^^^ 0xFFFFFFFF

/-- The `n` bytes of a number, little-endian (R14). -/
def leBytes : Nat → Nat → List Byte
  | 0, _ => []
  | n + 1, v => BitVec.ofNat 8 v :: leBytes n (v / 256)

/-- The number that bytes spell, little-endian. -/
def leNat : List Byte → Nat
  | [] => 0
  | b :: t => b.toNat + 256 * leNat t

/-! ## Units present (R3) -/

def axisCount : Part → Nat
  | .fa24 => 24
  | _ => 48

def sddCount : Part → Nat
  | .fa48 => 12
  | .la48 => 0
  | .fa24 => 6

def enCount : Part → Nat
  | .fa24 => 3
  | _ => 6

/-- A towpath port the ordering code has (R91). -/
def portPresent (p : Part) (k : Nat) : Bool :=
  k < 48 && (p != .fa24 || !((22 ≤ k && k ≤ 27) || (39 ≤ k && k ≤ 41)))

/-- A queue the ordering code has (R223). -/
def queuePresent (p : Part) (q : Nat) : Bool := q < 80 && (p != .fa24 || !(24 ≤ q && q ≤ 47))

def initNo : Initiator → Nat
  | .sv0 => 0 | .sv1 => 1 | .sc => 2 | .wharf => 3 | .towline => 4 | .jtag => 5

/-! ## Registers -/

/-- The register families of the block an address lies in (R551). -/
def blockDefs (a : Nat) : List RegDef :=
  let b := a / 0x10000
  if b = 0x4000 then RegMap.sys
  else if b = 0x4001 then RegMap.fc
  else if b = 0x4002 then RegMap.tt
  else if b = 0x4003 then RegMap.tow
  else if b = 0x4004 then RegMap.basin
  else if b = 0x4005 then RegMap.time
  else if b = 0x4006 then RegMap.eth
  else if b = 0x4007 ∨ b = 0x4008 then RegMap.can
  else if b = 0x4009 then RegMap.psync
  else if b = 0x400A then RegMap.acq
  else if b = 0x400B then RegMap.perf
  else if b = 0x400C then RegMap.safe
  else if b = 0x400D then RegMap.fio
  else if b = 0x400E then RegMap.host
  else if 0x4010 ≤ b ∧ b < 0x4040 then RegMap.axis
  else if 0x4040 ≤ b ∧ b < 0x404C then RegMap.sdd
  else if 0x2000 ≤ b ∧ b < 0x20C0 ∧ b % 16 = 4 then RegMap.eng
  else []

/-- The register family that owns an address. -/
def regDef (a : Nat) : Option RegDef := (blockDefs a).find? (·.covers (a % 0x10000))

/-- The reset value of the register word at an address (R551 and the register tables). -/
def regReset (p : Part) (a : Nat) : Word :=
  if a = SYS_ID then (match p with | .fa48 => 0x004801B1 | .la48 => 0x004802B1 | .fa24 => 0x002401B1)
  else if a = BASIN_POOL ∧ p = .fa24 then 0x50005000
  else if a / 0x10000 = 0x4004 ∧ BASIN_Q_CFG 48 ≤ a ∧ a < BASIN_Q_CFG 80 ∧ a % 0x10 = 0 then 0x80000000
  else if 0x40400000 ≤ a ∧ a < 0x404C0000 ∧ a % 0x10000 = 0 then BitVec.ofNat 32 (0x2100 + (a / 0x10000 - 0x4040))
  else if p = .la48 ∧ 0x40100000 ≤ a ∧ a < 0x40400000 ∧ a % 0x10000 = 0x100 then 0x00000101
  else if 0x20000000 ≤ a ∧ a < 0x20C00000 ∧ a % 0x100000 = 0x40000 then BitVec.ofNat 32 (0x01020000 + (a / 0x100000 - 0x200))
  else match regDef a with
    | some d => BitVec.ofNat 32 d.reset
    | none => 0

/-- The register word at an address. -/
def State.reg (s : State) (a : Nat) : Word := Tbl.get (regReset s.part a) s.regs a

/-- The state with a register word replaced. -/
def State.setReg (s : State) (a : Nat) (w : Word) : State :=
  { s with regs := Tbl.put (regReset s.part a) s.regs a w }

/-- A field of a register. -/
def State.fld (s : State) (a : Nat) (f : Fld) : Nat := fget (s.reg a) f

/-- A one-bit field of a register. -/
def State.flag (s : State) (a : Nat) (f : Fld) : Bool := s.fld a f != 0

/-- The state with a field of a register replaced. -/
def State.setFld (s : State) (a : Nat) (f : Fld) (v : Nat) : State := s.setReg a (fset (s.reg a) f v)

/-- A saturating count in a field of a register. -/
def State.incFld (s : State) (a : Nat) (f : Fld) : State := s.setFld a f (satInc (f.hi + 1 - f.lo) (s.fld a f))

/-- A sign-extended field. -/
def State.sfld (s : State) (a : Nat) (f : Fld) : Int := sxt (f.hi + 1 - f.lo) (s.fld a f)

/-- The state whose last access answered `r`. -/
def State.answer (s : State) (r : Resp) : State := { s with resp := r }

/-! ## Instances -/

def State.axAt (s : State) (n : Nat) : Ax := vget s.ax {} n
def State.setAx (s : State) (n : Nat) (x : Ax) : State := { s with ax := s.ax.setIfInBounds n x }
def State.leAt (s : State) (e : Nat) : Le := vget s.le {} e
def State.setLe (s : State) (e : Nat) (x : Le) : State := { s with le := s.le.setIfInBounds e x }
def State.sddAt (s : State) (d : Nat) : Sdd := vget s.sdd {} d
def State.setSdd (s : State) (d : Nat) (x : Sdd) : State := { s with sdd := s.sdd.setIfInBounds d x }
def State.linkAt (s : State) (d : Nat) : DieLink := vget s.link {} d
def State.setLink (s : State) (d : Nat) (x : DieLink) : State := { s with link := s.link.setIfInBounds d x }
def State.svAt (s : State) (p : Nat) : Sv := vget s.sv {} p
def State.setSv (s : State) (p : Nat) (x : Sv) : State := { s with sv := s.sv.setIfInBounds p x }
def State.fbAt (s : State) (n : Nat) : Fb := vget s.fb {} n
def State.setFb (s : State) (n : Nat) (x : Fb) : State := { s with fb := s.fb.setIfInBounds n x }
def State.queueAt (s : State) (q : Nat) : Queue := vget s.basin.queues {} q
def State.setQueue (s : State) (q : Nat) (x : Queue) : State :=
  { s with basin := { s.basin with queues := s.basin.queues.setIfInBounds q x } }

/-- `f` applied for 0, 1, … `n` − 1 in this order. -/
def State.each (s : State) (n : Nat) (f : State → Nat → State) : State := (List.range n).foldl f s

/-! ## Units -/

def State.modTt (s : State) (f : Tt → Tt) : State := { s with tt := f s.tt }
def State.modTow (s : State) (f : Tow → Tow) : State := { s with tow := f s.tow }
def State.modMirror (s : State) (f : Mirror → Mirror) : State := { s with mirror := f s.mirror }
def State.modFc (s : State) (f : Fc → Fc) : State := { s with fc := f s.fc }
def State.modPwr (s : State) (f : Pwr → Pwr) : State := { s with pwr := f s.pwr }
def State.modBoot (s : State) (f : Boot → Boot) : State := { s with boot := f s.boot }
def State.modBasin (s : State) (f : Basin → Basin) : State := { s with basin := f s.basin }
def State.modPs (s : State) (f : Psync → Psync) : State := { s with psync := f s.psync }
def State.modSafe (s : State) (f : Safe → Safe) : State := { s with safe := f s.safe }
def State.modFio (s : State) (f : Fio → Fio) : State := { s with fio := f s.fio }
def State.modEth (s : State) (f : Eth → Eth) : State := { s with eth := f s.eth }
def State.modAcq (s : State) (f : Acq → Acq) : State := { s with acq := f s.acq }
def State.modTime (s : State) (f : TimeSt → TimeSt) : State := { s with time := f s.time }

/-! ## Free values, timers, counters -/

/-- A free value: nothing constrains it. -/
def State.fresh (s : State) : Nat := Config.freeNat s.free

/-- The state after a free value was used. -/
def State.useFree (s : State) : State := { s with free := s.free + 1 }

/-- Start (or restart) a timer that expires `dt` ticks from now. -/
def State.startTimer (s : State) (t : TimerId) (dt : Nat) : State :=
  { s with timers := (t, s.clock + dt) :: s.timers.filter (·.1 != t) }

def State.stopTimer (s : State) (t : TimerId) : State := { s with timers := s.timers.filter (·.1 != t) }

/-- The timer runs. -/
def State.timerOn (s : State) (t : TimerId) : Bool := s.timers.any (·.1 == t)

/-- The timer runs and its time has come. -/
def State.due (s : State) (t : TimerId) : Bool := s.timers.any fun e => e.1 == t && e.2 ≤ s.clock

/-- Ticks of 4 ns in a microsecond and in a millisecond. -/
def usTicks : Nat := 250
def msTicks : Nat := 250000

/-- A 48-bit performance counter rises by `k` and saturates (R408). -/
def State.count (s : State) (unit event : Nat) (k : Nat := 1) : State :=
  let a := 256 * unit + event
  let v := Tbl.get 0 s.perf a + k
  { s with perf := Tbl.put 0 s.perf a (if v < 2 ^ 48 then v else 2 ^ 48 - 1) }

/-- Units of `State.count` (R409). -/
def cntSv (p : Nat) : Nat := p
def cntLe (e : Nat) : Nat := 2 + e
def cntTow : Nat := 14

/-! ## Interrupts (R397 to R399, R557) -/

/-- An Event source pulses: it becomes pending in each controller that has it as an edge source. -/
def State.irqPulse (s : State) (n : Nat) : State :=
  s.each 2 fun s p =>
    let v := s.svAt p
    if (Tbl.get (0 : Word) v.icCfg n).toNat.testBit 4 && !v.icEdge.contains n then
      s.setSv p { v with icEdge := v.icEdge ++ [n] }
    else s

/-- A field is replaced; a change of it pulses Event source `k`. -/
def State.setFldPulse (s : State) (k a : Nat) (f : Fld) (v : Nat) : State :=
  let t := s.setFld a f v
  if t.fld a f = s.fld a f then t else t.irqPulse k

/-! ## Domains (R500, R501) -/

/-- Domain indices of R500. -/
def domSv (p : Nat) : Nat := 2 + p
def domSC : Nat := 4
def domLe (e : Nat) : Nat := 5 + e
def domTP : Nat := 17
def domAQ : Nat := 18
def domNW : Nat := 19
def domCN : Nat := 20
def domHB : Nat := 21
def domPS : Nat := 22
def domEn (g : Nat) : Nat := 23 + g
def domAx (n : Nat) : Nat := 29 + n
def domFI : Nat := 77

/-- Domains the ordering code has. -/
def domPresent (p : Part) (i : Nat) : Bool := i < 78 && (p != .fa24 || !((53 ≤ i && i ≤ 76) || (26 ≤ i && i ≤ 28)))

/-- The domain is ready for use: BK and AO always, the others by SYS_PWR_STAT. -/
def State.domOn (s : State) (i : Nat) : Bool :=
  i < 2 || (s.reg (SYS_PWR_STAT (i / 32))).toNat.testBit (i % 32)

/-- Write a domain's ready bit. -/
def State.setReady (s : State) (i : Nat) (b : Bool) : State := s.setFld (SYS_PWR_STAT (i / 32)) ⟨i % 32, i % 32⟩ (b2n b)

/-- A domain is requested on. -/
def State.domReq (s : State) (i : Nat) : Bool := (s.reg (SYS_PWR_REQ (i / 32))).toNat.testBit (i % 32)

def State.setDomReq (s : State) (i : Nat) (b : Bool) : State := s.setFld (SYS_PWR_REQ (i / 32)) ⟨i % 32, i % 32⟩ (b2n b)

/-! ## Modes (R506) -/

def modeCode : Mode → Nat
  | .dormant => 0 | .wake => 1 | .commission => 2 | .hold => 3 | .run => 4 | .degraded => 5 | .safeStop => 6 | .test => 7

def modeOf : Nat → Mode
  | 0 => .dormant | 1 => .wake | 2 => .commission | 3 => .hold | 4 => .run | 5 => .degraded | 6 => .safeStop | _ => .test

def State.mode (s : State) : Mode := modeOf (s.fld SYS_MODE Fld.SYS_MODE_MODE)

/-- The mode changes (interrupt source 3 on a change). In the hardware safe state it is frozen (R508). -/
def State.setMode (s : State) (m : Mode) : State :=
  if s.flag SYS_MODE Fld.SYS_MODE_FROZEN ∨ s.mode = m then s
  else (s.setFld SYS_MODE Fld.SYS_MODE_MODE (modeCode m)).irqPulse 3

def State.hwSafeOn (s : State) : Bool := s.flag FC_STAT Fld.FC_STAT_HWSAFE

def State.running (s : State) : Bool := s.flag TT_STATUS Fld.TT_STATUS_RUNNING

/-- The result of the last mode request (R507). -/
def State.setReqCode (s : State) (c : Nat) : State :=
  let was := s.fld SYS_MODE Fld.SYS_MODE_REQ_CODE
  let s := s.setFld SYS_MODE Fld.SYS_MODE_REQ_CODE c
  if was = 0xFF ∧ c ≠ 0xFF then s.irqPulse 3 else s

/-! ## Line time -/

/-- Tick count of line time (R41). -/
def State.ticks (s : State) : Nat := s.time.line.toNat / 64

/-- Flight length, boundary offset and voyage length of the grid in force: the loaded timetable's, else the default grid
of R587. -/
def State.grid (s : State) : Nat × Nat × Nat :=
  match s.tt.image with
  | some g => (g.flightTicks, g.offset, g.voyage)
  | none => (1250, 0, 1)

/-- The flight number at a tick count (R41). Line time before the first boundary lies in flight −1: the number is kept modulo
2^64 × VOYAGE, which its phase, its 32 and 64 low bits and the line time of its boundary cannot tell from −1. -/
def flightAt (g : Nat × Nat × Nat) (t : Nat) : Nat :=
  ((((t : Int) - (g.2.1 : Int)) / (g.1 : Int)) % ((2 ^ 64 * g.2.2 : Nat) : Int)).toNat

/-- The line-time counter runs: the NW domain is on and its clock has not stopped. -/
def State.lineRuns (s : State) : Bool := s.domOn domNW && !s.fc.stopped.contains domNW

/-- Line time has reached a boundary that the sequencer has not taken yet (R34): the flight it lies in is not the one counted. -/
def State.boundaryReached (s : State) : Bool := s.lineRuns && flightAt s.grid s.ticks != s.tt.flightNo

/-- A flight boundary may fall now. DESIGN CHOICE (log entry 243): while line time does not run, nothing places the boundaries, and one falls
whenever it is commanded. -/
def State.boundaryDue (s : State) : Bool :=
  s.domOn domTP && !s.fc.stopped.contains domTP && (!s.lineRuns || s.boundaryReached)

/-! ## Ranks and switches of a channel (R141, R147, R175, R267) -/

/-- The die that serves a channel (R18). -/
def sddOf (n : Nat) : Nat := n / 4

/-- External mode; fixed on MX48-LA (R180). -/
def State.extMode (s : State) (n : Nat) : Bool := s.part == .la48 || s.flag (GATE_CFG n) Fld.GATE_CFG_EXT

def State.en (s : State) (n : Nat) : Bool := s.flag (PWM_CTRL n) Fld.PWM_CTRL_EN

def State.slotEn (s : State) (n k : Nat) : Bool := nbit (s.fld (PWM_CTRL n) Fld.PWM_CTRL_SLOT_EN) k

/-- The rank of R147 that decides slot `k` of channel `n`. -/
def State.slotRank (s : State) (n k : Nat) : Nat :=
  if s.flag (PWM_STAT n) Fld.PWM_STAT_STO then 1
  else if nbit (s.fld (SC_STAT n) Fld.SC_STAT_LATCH) k then 2
  else if (s.axAt n).held then 3
  else if !s.en n || !s.slotEn n k || !s.flag (PWM_STAT n) Fld.PWM_STAT_SHADOW_VALID then 4
  else 5

/-- The chopper phase of a slot: A for slots 0 and 1, B for 2 and 3. -/
def phaseFld (b : Bool) : Fld := if b then Fld.STP_STATE_B else Fld.STP_STATE_A

def State.chop (s : State) (n : Nat) (b : Bool) : Nat := s.fld (STP_STATE n) (phaseFld b)

/-- Negative polarity p of a phase. -/
def State.polNeg (s : State) (n : Nat) (b : Bool) : Bool :=
  s.flag (STP_DAC n) (if b then Fld.STP_DAC_POL_B else Fld.STP_DAC_POL_A)

/-- Switches of a slot under the chopper (R267): `first` is the phase's first slot. Code 1 DRIVE, 2 fast decay, 3 slow. -/
def chopSwitch (code : Nat) (neg first : Bool) : Bool × Bool :=
  match code with
  | 1 => if first != neg then (true, false) else (false, true)
  | 2 => if first == neg then (true, false) else (false, true)
  | 3 => (false, true)
  | _ => (false, false)

/-- HO and LO of a slot as its rank demands them (R147); in internal mode HO stays off below the bootstrap threshold (R175, R180). -/
def State.wanted (s : State) (n k : Nat) : Bool × Bool :=
  match s.slotRank n k with
  | 3 => (false, s.fld (PWM_SAFE n) ⟨2 * k + 1, 2 * k⟩ == 1)
  | 5 =>
    let b := 2 ≤ k
    let w := if s.chop n b ≠ 0 then chopSwitch (s.chop n b) (s.polNeg n b) (k % 2 == 0)
      else (vget (s.axAt n).ho false k, vget (s.axAt n).lo false k)
    (w.1 && (s.extMode n || !vget (s.axAt n).bstLow false k), w.2)
  | _ => (false, false)

/-- The driver inputs HO and LO of a slot: a switch whose opposite was on turns on after its delay only (R147). -/
def State.driver (s : State) (n k : Nat) : Bool × Bool :=
  let w := s.wanted n k
  (w.1 && vget (s.axAt n).hoFrom 0 k ≤ s.clock, w.2 && vget (s.axAt n).loFrom 0 k ≤ s.clock)

/-- Ticks from an edge to the opposite turn-on: a programmed delay and the interlock of 20 ns, in taps (R141). -/
def delayTicks (dly : Nat) : Nat := (dly + 320 + 63) / 64

/-- What the switches of channel `n` go through when its state `t` has become `s`: where LO is to turn on while HO was on, HO turns off
first and LO turns on DLY_FALL + 20 ns later; the other way round with DLY_RISE (R147). A turn-on starts the blanking (R183). -/
def State.switched (s t : State) (n : Nat) : State :=
  s.each 4 fun s k =>
    let o := t.driver n k
    let w := s.wanted n k
    let x := s.axAt n
    let x := if o.1 && w.2 then { x with loFrom := x.loFrom.setIfInBounds k (s.clock + delayTicks (s.fld (PWM_DLY n k) Fld.PWM_DLY_FALL)) }
      else if o.2 && w.1 then { x with hoFrom := x.hoFrom.setIfInBounds k (s.clock + delayTicks (s.fld (PWM_DLY n k) Fld.PWM_DLY_RISE)) }
      else x
    let x := if w.1 && !o.1 then { x with onAt := x.onAt.setIfInBounds k (some (Nat.max s.clock (vget x.hoFrom 0 k))), scSeen := false }
      else if w.2 && !o.2 then { x with onAt := x.onAt.setIfInBounds k (some (Nat.max s.clock (vget x.loFrom 0 k))), scSeen := false }
      else x
    s.setAx n x

/-! ## Safe states of a channel (R144 to R148) -/

/-- Both switches of every slot off. -/
def Ax.pulsesOff (x : Ax) : Ax :=
  { x with ho := Vector.replicate 4 false, lo := Vector.replicate 4 false, riseE := Vector.replicate 4 none,
           fallE := Vector.replicate 4 none }

/-- A holding brake on slot 3 engages when a rank of 1 to 4 of R147 acts on it (R191): REL and SLOT_EN bit 3 clear. -/
def State.engageBrake (s : State) (n : Nat) : State :=
  if s.fld (GATE_CFG n) Fld.GATE_CFG_SLOT3_FN = 2 ∧ s.flag (HBRK_CTRL n) Fld.HBRK_CTRL_REL then
    let s := (s.setFld (HBRK_CTRL n) Fld.HBRK_CTRL_REL 0).setFld (HBRK_CTRL n) Fld.HBRK_CTRL_PULLING 0
    let s := s.setFld (PWM_CTRL n) ⟨15, 15⟩ 0
    s.stopTimer (.pullIn n)
  else s

/-- The code of SAFE_CAUSE. -/
def safeCauseCode : SafeCause → Nat
  | .firmware => 1
  | .collector _ => 2
  | .engineHalt _ => 3
  | .island _ => 3
  | .linkSilent => 4
  | .hwsafe => 2

/-- A chopper phase goes to OFF (R267): it is in DRIVE no longer (R269). -/
def State.phaseOff (s : State) (n : Nat) (b : Bool) : State :=
  let x := s.axAt n
  (s.setAx n { x with driveAll := x.driveAll.setIfInBounds (b2n b) false }).setFld (STP_STATE n) (phaseFld b) 0

/-- Both chopper phases of a channel in OFF (R267). -/
def State.chopperOff (s : State) (n : Nat) : State := (s.phaseOff n false).phaseOff n true

/-- An alignment past IDLE ends with a code and releases the forced angle at once (R300). -/
def State.alEnd (s : State) (n code : Nat) : State :=
  let x := s.fbAt n
  if x.al = .idle then s
  else
    let s := s.setFb n { x with al := .idle, forced := none, trace := [] }
    let s := (s.setFld (FB_ALSTAT n) Fld.FB_ALSTAT_CODE code).setFld (FB_ANG n) Fld.FB_ANG_FORCED 0
    (s.stopTimer (.alRest n)).stopTimer (.alSettle n)

/-- A trigger of R146 acts on a channel: its switches change at once to rank 3. -/
def State.safeEnter (s : State) (n : Nat) (c : SafeCause) : State :=
  let t := s
  let x := s.axAt n
  let s := if x.held then s else
    (s.setFld (PWM_STAT n) Fld.PWM_STAT_SAFE 1).setFld (PWM_STAT n) Fld.PWM_STAT_SAFE_CAUSE (safeCauseCode c)
  let s := s.setFld (PWM_STAT n) Fld.PWM_STAT_ACTIVE 0
  let s := s.setAx n { x.pulsesOff with safe := if x.safe.contains c then x.safe else x.safe ++ [c], held := true, enDropped := false }
  (((s.chopperOff n).engageBrake n).alEnd n 0x15).switched t n

/-- A trigger ceases; the safe state itself stays held (R148). -/
def State.safeCease (s : State) (n : Nat) (c : SafeCause) : State :=
  let x := s.axAt n
  s.setAx n { x with safe := x.safe.filter (· != c) }

/-- EN of a channel clears: both switches of every slot off at once (R144), precharge ended (R174). -/
def State.clearEn (s : State) (n : Nat) : State :=
  let x := s.axAt n
  let s := s.setFld (PWM_CTRL n) Fld.PWM_CTRL_EN 0
  let s := s.setFld (PWM_STAT n) Fld.PWM_STAT_ACTIVE 0
  let s := (s.setFld (GATE_STAT n) Fld.GATE_STAT_BOOT_DONE 0).setFld (GATE_STAT n) Fld.GATE_STAT_PRECHG_BUSY 0
  let s := s.setFld (BRK_STAT n) Fld.BRK_STAT_ACTIVE 0
  let s := s.setAx n { x.pulsesOff with pre := none, bootHeld := false, started := false }
  ((s.chopperOff n).engageBrake n).alEnd n 0x15

/-- EN clears on every channel. -/
def State.clearAllEn (s : State) : State := s.each (axisCount s.part) fun s n => s.clearEn n

/-! ## Stop sources of a queue (R252) -/

def addOnce (l : List Nat) (k : Nat) : List Nat := if l.contains k then l else l ++ [k]

/-- The sources raised on a queue: STOP_SRC bit, and the fault source behind it. -/
def Queue.srcs (q : Queue) : List (Nat × Nat) :=
  (if q.stopFw then [(0, 0)] else []) ++ q.stopSup.map (fun k => (1, k)) ++ q.stopCol.map (fun k => (2, k)) ++
    (if q.stopSs then [(3, 0)] else []) ++ (if q.stopSafe then [(3, 1)] else []) ++ (if q.stopKer then [(4, 0)] else [])

/-- A source of queue `o` is raised on a queue: of its own, or of its group. -/
def Queue.raise (q : Queue) (o : Nat) (c : Nat × Nat) : Queue :=
  match c.1 with
  | 0 => { q with stopFw := true }
  | 1 => { q with stopSup := addOnce q.stopSup c.2 }
  | 2 => { q with stopCol := addOnce q.stopCol c.2 }
  | 3 => { q with stopGrp := addOnce q.stopGrp o }
  | _ => { q with stopKer := true }

/-- A source that does not hold is raised since the last boundary (R253). -/
def Queue.note (q : Queue) (c : Nat × Nat) : Queue :=
  if q.srcs.contains c || q.rose.contains c then q else { q with rose := q.rose ++ [c] }

def State.stopCollector (s : State) (q src : Nat) : State :=
  s.setQueue q (((s.queueAt q).note (2, src)).raise q (2, src))

def State.stopSupervision (s : State) (q src : Nat) : State :=
  s.setQueue q (((s.queueAt q).note (1, src)).raise q (1, src))

/-- The safety stop source of every queue. -/
def State.stopSafety (s : State) (b : Bool) : State :=
  { s with basin := { s.basin with queues := s.basin.queues.map fun (q : Queue) => { (if b then q.note (3, 1) else q) with stopSafe := b } } }

/-- The raised sources as BASIN_Q_STAT.STOP_SRC shows them. -/
def Queue.stopSrc (q : Queue) : Nat :=
  b2n q.stopFw + 2 * b2n (!q.stopSup.isEmpty) + 4 * b2n (!q.stopCol.isEmpty) + 8 * b2n (q.stopSafe || q.stopSs || !q.stopGrp.isEmpty) + 16 * b2n q.stopKer

/-! ## Safe Stop and Hold (R508) -/

/-- The SSTOP reaction: Run, Degraded and Commission enter Safe Stop; the safety source stops every queue. -/
def State.enterSafeStop (s : State) : State :=
  if s.flag SYS_MODE Fld.SYS_MODE_FROZEN then s
  else if s.mode = .run ∨ s.mode = .degraded ∨ s.mode = .commission then (s.setMode .safeStop).stopSafety true
  else s

/-- Entry into Hold: EN cleared on every channel; leaving Safe Stop clears the safety source. -/
def State.enterHold (s : State) : State :=
  if s.flag SYS_MODE Fld.SYS_MODE_FROZEN then s
  else ((s.setMode .hold).stopSafety false).clearAllEn

/-! ## Retention RAM (R521) -/

def State.ret (s : State) (k : Nat) : Byte := Tbl.get 0 s.pwr.ret k

def retBytes (t : Tbl Byte) : List Byte :=
  ((List.range 62) ++ (List.range 192).map (· + 64)).map fun k => Tbl.get 0 t k

/-- Write bytes from offset `k` and recompute the CRC in bytes 62 and 63. -/
def State.setRet (s : State) (k : Nat) (l : List Byte) : State :=
  let t := (l.zipIdx k).foldl (fun t e => Tbl.put 0 t e.2 e.1) s.pwr.ret
  let c := crc16 (retBytes t)
  let t := Tbl.put 0 (Tbl.put 0 t 62 (BitVec.ofNat 8 c)) 63 (BitVec.ofNat 8 (c / 256))
  { s with pwr := { s.pwr with ret := t } }

/-- RTC bits 46:15 (R520). -/
def State.rtcSeconds (s : State) : Nat := s.pwr.rtc / 32768 % 2 ^ 32

/-- Elapsed motion-degraded minutes (R350). -/
def State.mdMinutes (s : State) : Nat :=
  if s.flag FC_STAT Fld.FC_STAT_MD then s.fc.mdPrior + (s.clock - s.fc.mdStart) / (60000 * msTicks) else s.fc.mdPrior

/-- The power log: bytes 0 to 23 (R521). `hw` is the word of bytes 16 to 19. Until Wake has checked the retention RAM, the
elapsed time it holds stands; until Wake has tested the engines, so do the marks of lost ones. -/
def State.powerLog (s : State) (evt step rail hw : Nat) : State :=
  let md := if s.pwr.retDone then s.mdMinutes else leNat [s.ret 20, s.ret 21]
  let eng := if s.pwr.retDone ∨ 7 ≤ s.pwr.wakeStep then s.fld FC_LOST Fld.FC_LOST_ENG else leNat [s.ret 22, s.ret 23]
  s.setRet 0 (leBytes 1 evt ++ leBytes 1 step ++ leBytes 1 rail ++ leBytes 1 (s.fld SYS_MODE Fld.SYS_MODE_MODE)
    ++ leBytes 8 s.time.line.toNat ++ leBytes 4 s.rtcSeconds ++ leBytes 4 hw ++ leBytes 2 md
    ++ leBytes 2 eng)

/-- The word of bytes 16 to 19 as it stands. -/
def State.hwWord (s : State) : Nat := leNat [s.ret 16, s.ret 17, s.ret 18, s.ret 19]

/-! ## The hardware safe state (R338) -/

/-- Entry into the hardware safe state by a copy mismatch, or by a TP clock stop. No report is made: history, FC_FIRST and
FC_COUNT keep their content. -/
def State.hwSafe (s : State) (tpStop : Bool) : State :=
  if s.hwSafeOn then s else
  let s := s.setFld FC_STAT Fld.FC_STAT_HWSAFE 1
  let s := s.powerLog 5 0 0xFF (if tpStop then 0x21111 else 0x10000)
  let s := s.setFld SYS_MODE Fld.SYS_MODE_FROZEN 1
  let s := s.each (axisCount s.part) fun s n =>
    let s := (s.safeEnter n .hwsafe).setFld (PWM_STAT n) Fld.PWM_STAT_STO 1
    let c := s.fld (SNS_CALSTAT n) Fld.SNS_CALSTAT_CODE
    let s := if c = 1 ∨ c = 2 then (s.setFld (SNS_CALSTAT n) Fld.SNS_CALSTAT_CODE 0x15).stopTimer (.calDecay n) else s
    s.clearEn n
  let s := s.each (sddCount s.part) fun s d => (s.setFld (SDD_STAT d) Fld.SDD_STAT_STOA_ACT 1).setFld (SDD_STAT d) Fld.SDD_STAT_STOB_ACT 1
  let s := { s with safe := { s.safe with a := { s.safe.a with so := Vector.replicate 4 false }, b := { s.safe.b with so := Vector.replicate 4 false } } }
  let s := (s.setFld SAFE_STO Fld.SAFE_STO_GRP_A 0xFFF).setFld SAFE_STO Fld.SAFE_STO_GRP_B 0xFFF
  (s.setFld SAFE_PATH Fld.SAFE_PATH_A_ACT 0xFFF).setFld SAFE_PATH Fld.SAFE_PATH_B_ACT 0xFFF

/-! ## The fault collector (R332 to R337, R349) -/

def classCode : FClass → Nat
  | .corrected => 0 | .contained => 1 | .fatal => 2

def reactCode : React → Nat
  | .log => 0 | .axstop => 1 | .safepwm => 2 | .sstop => 3 | .hwsafe => 4

/-- Source IDs (R335). -/
def srcId (unit inst : Nat) : Nat := 256 * unit + inst

/-- A report that does not count as a double fault although it falls into the continuation window (R349): its source is the
lost engine, in unit 0x01, 0x05 or as the engine's power domain. -/
def lostEngineSource (e src : Nat) : Bool :=
  src == srcId 0x01 e || src == srcId 0x05 e || src == srcId 0x11 (domLe e)

/-- The class and the reaction after the collector's rules: corrected takes LOG; inside the continuation window a contained
or fatal report that counts is fatal with SSTOP. -/
def State.raised (s : State) (r : Report) (counts : Bool) : Report :=
  if r.cls = .corrected then { r with react := .log, cond := none }
  else if counts && s.fc.window && !(s.fc.lostEng.any fun e => lostEngineSource e r.src) then { r with cls := .fatal, react := .sstop }
  else r

/-- The history entry, FC_FIRST and FC_COUNT (R336). -/
def State.record (s : State) (r : Report) : State :=
  let n := s.fld FC_HIST_CTRL Fld.FC_HIST_CTRL_COUNT
  let i := if n = 0 then 0 else (s.fld FC_HIST_CTRL Fld.FC_HIST_CTRL_NEWEST + 1) % 32
  let w0 := BitVec.ofNat 32 (r.src + 2 ^ 16 * classCode r.cls + 2 ^ 18 * reactCode r.react + 2 ^ 24 * (s.fc.seq % 256))
  let lo := BitVec.ofNat 32 s.time.line.toNat
  let hi := BitVec.ofNat 32 (s.time.line.toNat / 2 ^ 32)
  let s := if n = 32 then s.incFld FC_HIST_CTRL Fld.FC_HIST_CTRL_LOST else s.setFld FC_HIST_CTRL Fld.FC_HIST_CTRL_COUNT (n + 1)
  let s := s.setFld FC_HIST_CTRL Fld.FC_HIST_CTRL_NEWEST i
  let s := (((s.setReg (FC_HIST i) w0).setReg (FC_HIST i + 4) r.data).setReg (FC_HIST i + 8) lo).setReg (FC_HIST i + 12) hi
  let s := { s with fc := { s.fc with seq := (s.fc.seq + 1) % 256 } }
  let s := if r.cls ≠ .corrected ∧ !s.flag FC_FIRST Fld.FC_FIRST_VALID then
      (((s.setReg FC_FIRST (BitVec.ofNat 32 (2 ^ 31 + 2 ^ 21 * reactCode r.react + 2 ^ 16 * classCode r.cls + r.src))).setReg
        FC_FIRST_DATA r.data).setReg FC_FIRST_TLO lo).setReg FC_FIRST_THI hi
    else s
  match r.cls with
  | .corrected => s.incFld FC_COUNT Fld.FC_COUNT_CORRECTED
  | .contained => s.incFld FC_COUNT Fld.FC_COUNT_CONTAINED
  | .fatal => s.incFld FC_COUNT Fld.FC_COUNT_FATAL

/-- PENDING and FATAL of FC_STAT follow the pending sources. -/
def State.showPending (s : State) : State :=
  (s.setFld FC_STAT Fld.FC_STAT_PENDING (Nat.min s.fc.pend.length 65535)).setFld FC_STAT Fld.FC_STAT_FATAL
    (b2n (s.fc.pend.any (·.fatal)))

/-- The source of a contained or fatal report is pending until it is acknowledged (R337, R339). -/
def State.pendSource (s : State) (r : Report) : State :=
  if r.cls = .corrected then s else
  let was := s.fc.pend.any fun p => p.src == r.src && p.fatal
  let p : PendSrc := { src := r.src, fatal := was || r.cls == .fatal }
  let conds := match r.cond with
    | some c => if s.fc.conds.contains (r.src, c) then s.fc.conds else s.fc.conds ++ [(r.src, c)]
    | none => s.fc.conds
  State.showPending { s with fc := { s.fc with pend := s.fc.pend.filter (·.src != r.src) ++ [p], conds := conds } }

/-- A unit reports a condition as ceased (R339). -/
def State.cease (s : State) (src cond : Nat) : State :=
  { s with fc := { s.fc with conds := s.fc.conds.filter (· != (src, cond)) } }

/-- The reaction of R333. -/
def State.react (s : State) (r : Report) : State :=
  match r.react with
  | .log => s
  | .axstop => r.axes.foldl (fun s n => s.stopCollector n r.src) s
  | .safepwm => r.axes.foldl (fun s n => (s.safeEnter n (.collector r.src)).stopCollector n r.src) s
  | .sstop => s.enterSafeStop
  | .hwsafe => s.hwSafe false

/-- The collector takes a report: class, record, pending source, interrupt, reaction (R332 to R337). `counts` is false for
the reports that R349 exempts by what they are. -/
def State.report (s : State) (r : Report) (counts : Bool := true) : State :=
  let r' := s.raised r counts
  let s := if r'.cls = .fatal ∧ r.cls ≠ .fatal then { s with fc := { s.fc with double := true } } else s
  (((s.record r').pendSource r').irqPulse 1).react r'

/-- A corrected report. -/
def State.logCorrected (s : State) (src : Nat) (data : Word := 0) : State :=
  s.report { src := src, cls := .corrected, data := data }

/-- A contained report. -/
def State.logContained (s : State) (src : Nat) (react : React := .log) (axes : List Nat := []) (data : Word := 0)
    (cond : Option Nat := none) (counts : Bool := true) : State :=
  s.report { src := src, cls := .contained, react := react, data := data, axes := axes, cond := cond } counts

/-- A fatal report with reaction SSTOP. -/
def State.logFatal (s : State) (src : Nat) (data : Word := 0) (cond : Option Nat := none) : State :=
  s.report { src := src, cls := .fatal, react := .sstop, data := data, cond := cond }

/-- Reports as a unit makes them: corrected, contained, fatal. -/
def corrRep (src : Nat) (data : Word := 0) : Report := { src := src, cls := .corrected, data := data }
def contRep (src : Nat) (data : Word := 0) (cond : Option Nat := none) : Report := { src := src, cls := .contained, data := data, cond := cond }
def fatalRep (src : Nat) : Report := { src := src, cls := .fatal, react := .sstop }

/-- A report among reports in ascending source ID, after those of its source. -/
def insertReport (r : Report) : List Report → List Report
  | [] => [r]
  | q :: t => if q.src ≤ r.src then q :: insertReport r t else r :: q :: t

/-- Reports that arrive in one cycle are taken in ascending source ID (R334). -/
def State.reportAll (s : State) (l : List Report) : State :=
  (l.foldl (fun t r => insertReport r t) []).foldl (fun s r => s.report r) s

/-- An acknowledged source (R339): the stop sources it raised clear, the channels it put into their safe states lose that
trigger, it is no longer pending. -/
def State.release (s : State) (src : Nat) : State :=
  let s := { s with basin := { s.basin with queues := s.basin.queues.map fun (q : Queue) =>
    { q with stopCol := q.stopCol.filter (· != src), stopSup := q.stopSup.filter (· != src) } } }
  let s := { s with ax := s.ax.map fun (x : Ax) => { x with safe := x.safe.filter (· != SafeCause.collector src) } }
  State.showPending { s with fc := { s.fc with pend := s.fc.pend.filter (·.src != src) } }

/-- Section `k` of a timetable. -/
def Image.sec (g : Image) (k : Nat) : Section := vgetL g.sections { locks := [], res := [] } k

/-- The channels whose planned locks the alternate for the first lost engine moves (R349). -/
def State.movedAxes (s : State) : List Nat :=
  match s.fc.lostEng, s.tt.image with
  | some e, some g => ((g.sec 0).locks.filter fun (l : LockEntry) => l.engine == e && l.kind == 0).map LockEntry.axis
  | _, _ => []

/-- The channels of a die (R18) that the ordering code has. -/
def dieAxes (d : Nat) : List Nat := [4 * d, 4 * d + 1, 4 * d + 2, 4 * d + 3]

/-- An action code of R159, R216, R275: 0 flag only, 1 corrected, 2 contained and the stop ramp, 3 contained and the safe
state of the channel. `cond` numbers the supervision; its condition ceases when its count resets. -/
def State.supervisionAction (s : State) (n code cond : Nat) (counts : Bool := true) : State :=
  let src := srcId 0x09 n
  match code with
  | 1 => s.logCorrected src
  | 2 => (s.stopSupervision n src).logContained src .log [] 0 (some cond) counts
  | 3 => s.logContained src .safepwm [n] 0 (some cond) counts
  | _ => s

end Sys2Proof.Machine
end

