-- ==== Sys2Proof/Machine/Access.lean ====
section
/-! DEFINITION. The address map (R546 to R552): which addresses exist, which domain holds a register, the memories behind the
windows, and the shape of every register access: a bus error, or an effect. -/

namespace Sys2Proof.Machine
open Sys2Proof.Machine.Reg

/-! ## Ranges (R546) -/

inductive Range where
  | rom
  /-- Tightly coupled RAM of SV_p; `own` where the pair's own address was used. -/
  | tcm (p : Nat) (own : Bool)
  | basin | mirror | trace | store
  | prog (e : Nat) | lrom (e : Nat) | data (e : Nat) | inactive (e : Nat) | mbox (e : Nat) | mval (e : Nat) | ereg (e : Nat)
  | nor | block | unmapped
  deriving DecidableEq, Repr

/-- A register block the ordering code has (R3, R5). -/
def blockPresent (p : Part) (a : Nat) : Bool :=
  let b := a / 0x10000
  if b ≤ 0x400E then true
  else if 0x4010 ≤ b ∧ b < 0x4040 then b - 0x4010 < axisCount p
  else 0x4040 ≤ b && b < 0x404C && b - 0x4040 < sddCount p

/-- The range of an address, as initiator `i` sees it (R546, R550). -/
def rangeOf (p : Part) (i : Initiator) (a : Nat) : Range :=
  if a < 0x10000 then .rom
  else if 0x08000000 ≤ a ∧ a < 0x08080000 then
    match i with
    | .sv0 => .tcm 0 true
    | .sv1 => .tcm 1 true
    | _ => .unmapped
  else if 0x09000000 ≤ a ∧ a < 0x09080000 then .tcm 0 false
  else if 0x0A000000 ≤ a ∧ a < 0x0A080000 then .tcm 1 false
  else if 0x10000000 ≤ a ∧ a < 0x10200000 then .basin
  else if 0x12000000 ≤ a ∧ a < 0x12080000 then .mirror
  else if 0x14000000 ≤ a ∧ a < 0x14800000 then .trace
  else if 0x1C000000 ≤ a ∧ a < 0x1C200000 then .store
  else if 0x20000000 ≤ a ∧ a < 0x20C00000 then
    let e := (a - 0x20000000) / 0x100000
    let o := a % 0x100000
    if o < 0x8000 then .prog e
    else if 0x10000 ≤ o ∧ o < 0x20000 then .lrom e
    else if 0x20000 ≤ o ∧ o < 0x30000 then .data e
    else if 0x30000 ≤ o ∧ o < 0x38000 then .inactive e
    else if 0x38000 ≤ o ∧ o < 0x38800 then .mbox e
    else if 0x38800 ≤ o ∧ o < 0x38820 then .mval e
    else if 0x40000 ≤ o ∧ o < 0x50000 then .ereg e
    else .unmapped
  else if 0x30000000 ≤ a ∧ a < 0x40000000 then .nor
  else if 0x40000000 ≤ a ∧ a < 0x400F0000 ∨ 0x40100000 ≤ a ∧ a < 0x404C0000 then
    if blockPresent p a then .block else .unmapped
  else .unmapped

/-- The range is a memory, not registers. -/
def Range.isMem : Range → Bool
  | .block | .unmapped | .ereg _ => false
  | _ => true

/-- An engine window: aligned 32-bit accesses only (R548). -/
def Range.isWindow : Range → Bool
  | .prog _ | .lrom _ | .data _ | .inactive _ | .mbox _ | .mval _ | .ereg _ => true
  | _ => false

/-! ## Domains that hold registers (R551, R552) -/

/-- The domain of the range or register at an address is on. -/
def State.powered (s : State) (r : Range) (a : Nat) : Bool :=
  match r with
  | .rom | .store | .nor => s.domOn domHB
  | .tcm p _ => s.domOn (domSv p)
  | .basin | .mirror => s.domOn domTP
  | .trace => s.domOn domAQ
  | .prog e | .lrom e | .data e | .inactive e | .mbox e | .mval e | .ereg e => s.domOn (domLe e)
  | .unmapped => false
  | .block =>
    let b := a / 0x10000
    if b = 0x4000 then s.domOn domTP && s.domOn domHB
    else if b ≤ 0x4004 ∨ b = 0x400B then s.domOn domTP
    else if b ≤ 0x4006 then s.domOn domNW
    else if b ≤ 0x4008 then s.domOn domCN
    else if b = 0x4009 then s.domOn domPS
    else if b = 0x400A then s.domOn domAQ
    else if b = 0x400C then s.domOn domSC
    else if b = 0x400D then if a = FIO_STAT then s.domOn domTP else s.domOn domFI
    else if b = 0x400E then s.domOn domHB
    else if b < 0x4040 then
      let n := b - 0x4010
      let o := a % 0x10000
      if 0x400 ≤ o ∧ o < 0x600 then s.domOn (domEn (n / 8)) else s.domOn (domAx n)
    else (dieAxes (b - 0x4040)).any fun n => s.domOn (domAx n)

/-- An instance of a register family that the ordering code lacks (R5, R549): an absent towpath port or queue. -/
def instanceAbsent (p : Part) (a : Nat) : Bool :=
  (0x40030100 ≤ a && a < 0x40030400 && !portPresent p ((a - 0x40030100) / 0x10)) ||
  (0x40041000 ≤ a && a < 0x40041500 && !queuePresent p ((a - 0x40041000) / 0x10))

/-- A register write reaches its register: the block is present and its domain on. -/
def State.reachable (s : State) (a : Nat) : Bool :=
  let r := rangeOf s.part .sv0 a
  (r == .block || match r with | .ereg _ => true | _ => false) && !instanceAbsent s.part a && s.powered r a

/-- A bus error, nothing else. -/
def State.busErr (s : State) : State := s.answer .busError

/-- A refused write: bus error, and a corrected fault under the unit's source (R556). -/
def State.refuse (s : State) (src : Nat) (data : Word := 0) : State := (s.answer .busError).logCorrected src data

/-- A write of a register: a bus error where the register cannot be reached, else its effect. -/
def State.access (s : State) (a : Nat) (f : State → State) : State :=
  if s.reachable a then f (s.answer .done) else s.busErr

/-- What a plain write leaves in a register (R8): RW bits take the value, a 1 clears a W1C bit, every other bit stays. -/
def mergeWrite (d : RegDef) (old w : Nat) : Word :=
  BitVec.ofNat 32 ((((old &&& (0xFFFFFFFF ^^^ d.rw)) ||| (w &&& d.rw)) &&& (0xFFFFFFFF ^^^ (w &&& d.w1c))))

/-- A plain write of a register. -/
def State.plainWrite (s : State) (a : Nat) (w : Word) : State :=
  match regDef a with
  | some d => s.setReg a (mergeWrite d (s.reg a).toNat w.toNat)
  | none => s

/-! ## Memories -/

/-- What a byte of memory that nothing has written reads as: erased flash reads 0xFF, every other memory 0. -/
def memFill (a : Nat) : Byte := if 0x30000000 ≤ a ∧ a < 0x40000000 then 0xFF else 0

/-- The byte at an address of R546, tightly coupled RAM at its aliases. -/
def State.cell (s : State) (a : Nat) : Byte := Tbl.get (memFill a) s.mem a

/-- Write consecutive bytes. -/
def State.setCells (s : State) (a : Nat) (l : List Byte) : State :=
  { s with mem := (l.zipIdx a).foldl (fun m e => Tbl.put (memFill e.2) m e.2 e.1) s.mem }

/-- The word of consecutive cells, little-endian. -/
def State.cellWord (s : State) (a : Nat) : Word := BitVec.ofNat 32 (leNat [s.cell a, s.cell (a + 1), s.cell (a + 2), s.cell (a + 3)])

/-- Discard the cells of a range. -/
def State.wipe (s : State) (lo hi : Nat) : State := { s with mem := Tbl.keep s.mem fun a => a < lo || hi ≤ a }

/-- The alias at which the cells of SV_p's tightly coupled RAM are kept. -/
def tcmBase (p : Nat) : Nat := 0x09000000 + p * 0x01000000

/-- The table bank a kernel sees: B where TT_STATUS.BANK is 1. -/
def State.bankB (s : State) : Bool := s.flag TT_STATUS Fld.TT_STATUS_BANK

/-- Data memory of an engine: 8,192 words, then the active table bank (R76, R121). -/
def State.leWord (s : State) (e w : Nat) : D24 :=
  let x := s.leAt e
  if w < 0x2000 then Tbl.get 0 x.data w
  else if s.bankB then Tbl.get 0 x.tblB (w % 0x2000) else Tbl.get 0 x.tblA (w % 0x2000)

/-- Write a word of one physical table bank. -/
def Le.setBank (x : Le) (b : Bool) (w : Nat) (v : D24) : Le :=
  if b then { x with tblB := Tbl.put 0 x.tblB w v } else { x with tblA := Tbl.put 0 x.tblA w v }

def State.setLeWord (s : State) (e w : Nat) (v : D24) : State :=
  let x := s.leAt e
  s.setLe e (if w < 0x2000 then { x with data := Tbl.put 0 x.data w v } else x.setBank s.bankB (w % 0x2000) v)

/-- Sign extension of a stored 24-bit word to 32 bits. -/
def sx24 (v : D24) : Word := BitVec.signExtend 32 v

/-- The descriptor at an index of the basin. -/
def State.desc (s : State) (i : Nat) : Desc := Tbl.get 0 s.basin.desc i

/-- The aligned word at an address of a memory; register words are read as they stand, without a side effect. `a` is a
multiple of 4. -/
def State.wordAt (s : State) (i : Initiator) (a : Nat) : Option Word :=
  let r := rangeOf s.part i a
  match r with
  | .unmapped => none
  | .block =>
    if instanceAbsent s.part a then none
    else if a / 0x10000 = 0x400D ∧ ¬ s.powered r a then none
    else if s.powered r a then some (s.reg a) else some 0
  | r =>
    if !s.powered r a then some 0 else
    match r with
    | .rom => some (Config.bootRom a)
    | .tcm p _ => some (s.cellWord (tcmBase p + a % 0x80000))
    | .basin => some (BitVec.ofNat 32 ((s.desc ((a - 0x10000000) / 64)).toNat >>> (8 * (a % 64))))
    | .mirror =>
      let w := a % 0x40000 / 4
      let v := Tbl.get 0 s.mirror.words w
      if a < 0x12040000 then some (sx24 v) else some ((~~~v ^^^ Tbl.get 0 s.mirror.diff w).setWidth 32)
    | .trace | .store | .nor => some (s.cellWord a)
    | .prog e => some (Tbl.get 0 (s.leAt e).prog (a % 0x8000 / 4))
    | .lrom _ => some (Config.loopRom (0x8000 + a % 0x10000 / 4))
    | .data e => some (sx24 (s.leWord e (a % 0x10000 / 4)))
    | .inactive e =>
      let w := a % 0x8000 / 4
      some (sx24 (if s.bankB then Tbl.get 0 (s.leAt e).tblA w else Tbl.get 0 (s.leAt e).tblB w))
    | .mbox e =>
      let v := Tbl.get 0 (s.leAt e).mbox (a % 0x800 / 8)
      some (if a % 8 = 0 then v.setWidth 32 else (v >>> 32).setWidth 32)
    | .mval e =>
      let g := a % 0x20 / 4
      some (BitVec.ofNat 32 ((List.range 32).foldl (fun n k => n + b2n (Tbl.get false (s.leAt e).mvalid (32 * g + k)) * 2 ^ k) 0))
    | .ereg _ => some (s.reg a)
    | _ => none

/-- The byte at an address, none where a read answers with a bus error. -/
def State.byteAt (s : State) (i : Initiator) (a : Nat) : Option Byte :=
  (s.wordAt i (a / 4 * 4)).map fun w => BitVec.ofNat 8 (w.toNat >>> (8 * (a % 4)))

/-- `n` bytes from an address. -/
def State.bytesAt (s : State) (i : Initiator) (a n : Nat) : Option (List Byte) :=
  (List.range n).mapM fun k => s.byteAt i (a + k)

/-- A little-endian number of `n` bytes within a byte list. -/
def leAtOf (l : List Byte) (o n : Nat) : Nat := leNat ((l.drop o).take n)

/-- SHA-256 of bytes (R525), 256 bits. -/
def sha (l : List Byte) : Nat := Config.sha256 l % 2 ^ 256

end Sys2Proof.Machine
end

