-- ==== Sys2Proof/Machine/Pwm.lean ====
section
/-! DEFINITION. Current control and PWM generation (R133 to R163), the supervision counts of the current and slow loops
(R159, R215, R216), and the stepper channel's chopper (R262 to R275). -/

namespace Sys2Proof.Machine
open Sys2Proof.Machine.Reg

/-! ## Gates and ranks (R147) -/

/-- The gate outputs of a slot: without a gate supply above its threshold both stay off (R166, R168). -/
def State.gate (s : State) (n k : Nat) : Bool × Bool :=
  if s.extMode n then s.driver n k
  else if s.fld (SDD_GDS (sddOf n)) Fld.SDD_GDS_MODE = 0 ∨ ¬ s.flag (SDD_STAT (sddOf n)) Fld.SDD_STAT_VGD_OK then (false, false)
  else s.driver n k

/-- ACTIVE: at least one slot switches at rank 5. -/
def State.showActive (s : State) (n : Nat) : State :=
  s.setFld (PWM_STAT n) Fld.PWM_STAT_ACTIVE (b2n ((s.axAt n).started && (List.range 4).any fun k => s.slotRank n k == 5))

/-- What a change of rank entails at once: a chopper phase with a slot below rank 5 goes to OFF (R267), the brake of slot 3
engages (R191), ACTIVE follows. -/
def State.reRank (s : State) (n : Nat) : State :=
  let s := if s.slotRank n 0 < 5 ∨ s.slotRank n 1 < 5 then s.phaseOff n false else s
  let s := if s.slotRank n 2 < 5 ∨ s.slotRank n 3 < 5 then s.phaseOff n true else s
  let s := if s.slotRank n 3 < 5 then s.engageBrake n else s
  s.showActive n

/-- RUN of R163. -/
def State.chRun (s : State) (n : Nat) : Bool :=
  s.en n && !(s.axAt n).held && !s.flag (PWM_STAT n) Fld.PWM_STAT_STO &&
    (s.fld (SC_STAT n) Fld.SC_STAT_LATCH &&& s.fld (PWM_CTRL n) Fld.PWM_CTRL_SLOT_EN) == 0

/-- The SDD channel status (R163, R263). -/
def State.chStatus (s : State) (n : Nat) : Nat :=
  b2n (s.chRun n) + 2 * b2n (s.axAt n).held + 4 * b2n (s.fld (SC_STAT n) Fld.SC_STAT_LATCH != 0)
    + 8 * b2n (s.flag (PWM_STAT n) Fld.PWM_STAT_STO) + 16 * b2n (s.flag (PWM_STAT n) Fld.PWM_STAT_SHADOW_VALID)
    + 256 * b2n (vget (s.axAt n).nochop false 0) + 512 * b2n (vget (s.axAt n).nochop false 1)

/-! ## EN and SAFE_REQ (R137, R138, R144, R146, R148) -/

/-- The checks of R137 in their order, with those of R161, R182, R262 and R531. -/
def State.enChecks (s : State) (n : Nat) : Bool :=
  let per := s.fld (PWM_PERIOD n) Fld.PWM_PERIOD_PERIOD
  let cpf := s.fld (PWM_CPF n) Fld.PWM_CPF_CPF
  let ph := s.fld (PWM_PHASE n) Fld.PWM_PHASE_PHASE
  let nm1 := s.fld (SNS_CFG n) Fld.SNS_CFG_NM1
  let src := s.fld (CL_CFG n) Fld.CL_CFG_VBUS_SRC
  match s.tt.image with
  | none => false
  | some g =>
    320000 ≤ per && per ≤ 32000000 && per % 16 == 0 && 1 ≤ cpf && cpf ≤ 1024 && cpf * per == g.flightTicks * 1024 &&
    ph % 16 == 0 && ph < per &&
    s.fld (PWM_CPF n) Fld.PWM_CPF_BURST_C < cpf &&
    2 * ((nm1 + 1) * 128000) ≤ per &&
    !(s.extMode n && nm1 != 0) &&
    !(s.extMode n && s.fld (STP_CFG n) Fld.STP_CFG_CLASS == 1) &&
    src != 3 && !(s.part == .la48 && src == 0) && !s.flag HOST_BOOT_STAT Fld.HOST_BOOT_STAT_RESTRICT

/-- An abandoned offset calibration (R187). -/
def State.calAbort (s : State) (n code : Nat) : State :=
  if s.fld (SNS_CALSTAT n) Fld.SNS_CALSTAT_CODE = 1 ∨ s.fld (SNS_CALSTAT n) Fld.SNS_CALSTAT_CODE = 2 then
    ((s.setFld (SNS_CALSTAT n) Fld.SNS_CALSTAT_CODE code).stopTimer (.calDecay n)).logCorrected (srcId 0x09 n)
  else s

/-- An accepted EN = 1. -/
def State.enable (s : State) (n : Nat) : State :=
  let s := s.setAx n { s.axAt n with stepNew := true }
  let x := s.axAt n
  let out := x.enDropped && x.safe.isEmpty
  let s := if out then
      (s.setFld (PWM_STAT n) Fld.PWM_STAT_SAFE 0).setFld (PWM_STAT n) Fld.PWM_STAT_SAFE_CAUSE 0
    else s
  let s := (s.setFld (PWM_CTRL n) Fld.PWM_CTRL_EN 1).setFld (PWM_STAT n) Fld.PWM_STAT_SHADOW_VALID 0
  let s := if s.fld (STP_CFG n) Fld.STP_CFG_CLASS = 2 then s.setFld (STP_STAT n) Fld.STP_STAT_MODE 0 else s
  let s := s.setAx n { x with loads := [], started := false, pre := none, bootHeld := false, held := x.held && !out,
                              enDropped := x.enDropped && !out, brkSum := 0, brkN := 0, brkOff := false }
  s.calAbort n 0x14

/-- A write of EN = 0 (R144, R148). -/
def State.disable (s : State) (n : Nat) : State :=
  let x := s.axAt n
  let s := if x.held ∧ x.safe = [] then s.setAx n { x with enDropped := true } else s
  if s.en n then s.clearEn n else s

/-- SAFE_REQ takes a value (R146, R148). -/
def State.safeReq (s : State) (n : Nat) (b : Bool) : State :=
  let was := s.flag (PWM_CTRL n) Fld.PWM_CTRL_SAFE_REQ
  let s := s.setFld (PWM_CTRL n) Fld.PWM_CTRL_SAFE_REQ (b2n b)
  if b ∧ ¬ was then s.safeEnter n .firmware else if was ∧ ¬ b then s.safeCease n .firmware else s

/-- A write of PWM_CTRL. DESIGN CHOICES: EN = 1 while EN is 1 is no enable: it neither checks anything nor clears SHADOW_VALID (log entry 252);
one write that clears SAFE_REQ and EN makes the cause cease first, so that it is the EN = 0 of R148 (log entry 253); while STO acts, EN = 1 is
accepted and STO holds EN at 0 (R194, log entry 254). -/
def State.pwmCtrlWrite (s : State) (n : Nat) (w : Word) : State :=
  let on := fget w Fld.PWM_CTRL_EN = 1
  if s.en n ∧ fget w ⟨3, 2⟩ ≠ s.fld (PWM_CTRL n) ⟨3, 2⟩ then s.refuse (srcId 0x09 n)
  else if on ∧ ¬ s.en n ∧ s.mode ≠ .commission ∧ s.mode ≠ .run ∧ s.mode ≠ .degraded then s.busErr
  else
    let t := s.setFld (PWM_CTRL n) ⟨3, 2⟩ (fget w ⟨3, 2⟩)
    if on ∧ ¬ s.en n ∧ ¬ t.enChecks n then (s.setFld (PWM_STAT n) Fld.PWM_STAT_CFG_ERR 1).busErr
    else
      let u := t.setFld (PWM_CTRL n) Fld.PWM_CTRL_SLOT_EN (fget w Fld.PWM_CTRL_SLOT_EN)
      let u := u.safeReq n (fget w Fld.PWM_CTRL_SAFE_REQ = 1)
      let u := if on then (if s.en n ∨ s.flag (PWM_STAT n) Fld.PWM_STAT_STO then u else u.enable n) else u.disable n
      (u.reRank n).switched s n

/-- Writes that R137, R262 and the power-stage tables refuse while EN is 1. -/
def State.cfgWrite (s : State) (n a : Nat) (w : Word) : State :=
  if s.en n then s.refuse (srcId 0x09 n) else s.plainWrite a w

/-- PWM_SAFE takes 0 or 1 for each slot (R145). -/
def pwmSafeOk (w : Word) : Bool := (List.range 4).all fun k => bits w.toNat (2 * k + 1) (2 * k) < 2

/-! ## From duty to edges (R139 to R142) -/

/-- The edges of a duty, in edge units from the valley (R139). -/
def edges (period d : Nat) : Nat × Nat :=
  let h := period / 2
  let w := d * h / 2 ^ 23
  (h - w, h + w)

/-- bitrev4 of R140. -/
def bitrev4 (c : Nat) : Nat := 8 * bits c 0 0 + 4 * bits c 1 1 + 2 * bits c 2 2 + bits c 3 3

/-- The tap at which an edge word acts in carrier period `c` (R140). -/
def edgeTap (e c : Nat) : Nat := e / 16 + b2n (bitrev4 (c % 16) < e % 16)

/-- A duty word clamped into 0 to 0x7F_FFFF, and whether the clamp acted. -/
def clampDuty (v : D24) : D24 × Bool := if v.toNat < 2 ^ 23 then (v, false) else (0, true)

/-- The brake chopper's duty (R189), Q1.23. -/
def State.chopperDuty (s : State) (n : Nat) : Nat :=
  if (s.axAt n).brkOff then 0 else
  let v := s.fld (SDD_VBUS (sddOf n)) Fld.SDD_VBUS_CODE
  let v0 := s.fld (BRK_CFG n) Fld.BRK_CFG_V_START
  let v1 := s.fld (BRK_CFG n) Fld.BRK_CFG_V_FULL
  let f := if v1 ≤ v0 then (if v0 < v then 2 ^ 23 else 0)
    else if v ≤ v0 then 0 else Nat.min (2 ^ 23) ((v - v0) * 2 ^ 23 / (v1 - v0))
  Nat.min f (s.fld (BRK_LIM n) Fld.BRK_LIM_DMAX * 2 ^ 15)

/-- The holding brake's duty (R191), Q1.23. -/
def State.brakeDuty (s : State) (n : Nat) : Nat :=
  if !s.flag (HBRK_CTRL n) Fld.HBRK_CTRL_REL then 0
  else if s.flag (HBRK_CTRL n) Fld.HBRK_CTRL_PULLING then s.fld (HBRK_CFG n) Fld.HBRK_CFG_PULL_D * 2 ^ 15
  else s.fld (HBRK_CFG n) Fld.HBRK_CFG_HOLD_D * 2 ^ 15

/-- The duty that acts on a slot: precharge and a failed check hold it at 0 (R174), the functions of slot 3 compute their own
(R188). -/
def State.slotDuty (s : State) (n k : Nat) : Nat :=
  let x := s.axAt n
  if (x.pre.isSome || x.bootHeld) && nbit (s.fld (GATE_BOOT n) Fld.GATE_BOOT_MASK) k then 0
  else if k = 3 ∧ s.fld (GATE_CFG n) Fld.GATE_CFG_SLOT3_FN = 1 then s.chopperDuty n
  else if k = 3 ∧ s.fld (GATE_CFG n) Fld.GATE_CFG_SLOT3_FN = 2 then s.brakeDuty n
  else (vget x.duty 0 k).toNat

/-- The edge words of every slot, at an update point. -/
def State.setEdges (s : State) (n : Nat) : State :=
  let s := s.each 4 fun s k =>
    let e := edges (s.fld (PWM_PERIOD n) Fld.PWM_PERIOD_PERIOD) (s.slotDuty n k)
    (s.setReg (PWM_RISE n k) (BitVec.ofNat 32 e.1)).setReg (PWM_FALL n k) (BitVec.ofNat 32 e.2)
  if s.fld (GATE_CFG n) Fld.GATE_CFG_SLOT3_FN = 1 then
    s.setFld (BRK_STAT n) Fld.BRK_STAT_ACTIVE (b2n (s.chopperDuty n != 0 && s.slotRank n 3 == 5))
  else s

/-! ## Shadows (R136, R143, R174, R268) -/

/-- A count of pulses suppressed and duty words clamped. -/
def State.supCount (s : State) (n : Nat) : State := s.incFld (PWM_SUPCNT n) Fld.PWM_SUPCNT_COUNT

/-- A shadow word arrives: word 1 to 4 a duty, 5 to 7 a stepper word. -/
def State.loadWord (s : State) (n word : Nat) (v : D24) : State :=
  let (v, c) := if word ≤ 4 then clampDuty v else (v, false)
  let s := if c then s.supCount n else s
  let x := s.axAt n
  let g := x.loads.filter (·.flight != s.tt.flightNo)
  let old : Shadow := (x.loads.find? (·.flight == s.tt.flightNo)).getD { flight := s.tt.flightNo, at_ := 0, words := [] }
  let s := s.setAx n { x with arrived := true, loads := g ++ [{ old with at_ := s.clock, words := Tbl.insert old.words word v }] }
  if s.en n then s.setFld (PWM_STAT n) Fld.PWM_STAT_SHADOW_VALID 1 else s

/-- Apply one word of a shadow that takes effect. Duties for slot 3 are ignored where the SDD computes them (R188). -/
def State.takeWord (s : State) (n : Nat) (e : Nat × D24) : State :=
  let x := s.axAt n
  let v := e.2
  if e.1 ≤ 4 then
    let k := e.1 - 1
    if k = 3 ∧ s.fld (GATE_CFG n) Fld.GATE_CFG_SLOT3_FN ≠ 0 then s else s.setAx n { x with duty := x.duty.setIfInBounds k v }
  else if e.1 ≤ 6 then
    let i := sxt 24 v.toNat
    let c := Nat.min 1023 (i.natAbs / 2 ^ 13)
    let neg := b2n (i < 0)
    if e.1 = 5 then (s.setFld (STP_DAC n) Fld.STP_DAC_CODE_A c).setFld (STP_DAC n) Fld.STP_DAC_POL_A neg
    else (s.setFld (STP_DAC n) Fld.STP_DAC_CODE_B c).setFld (STP_DAC n) Fld.STP_DAC_POL_B neg
  else
    let m := bits v.toNat 16 16
    let quiet := s.fld (STP_CFG n) Fld.STP_CFG_CLASS = 2
    let s := if quiet ∧ m ≠ s.fld (STP_STAT n) Fld.STP_STAT_MODE then s.incFld (STP_HOVCNT n) Fld.STP_HOVCNT_COUNT else s
    ((s.setFld (STP_OFS n) Fld.STP_OFS_OFS_A (bits v.toNat 7 0)).setFld (STP_OFS n) Fld.STP_OFS_OFS_B (bits v.toNat 15 8)).setFld
      (STP_STAT n) Fld.STP_STAT_MODE m

/-! ## The chopper (R266 to R269) -/

/-- Thresholds HI and LO of a phase (R266). -/
def State.chopHiLo (s : State) (n : Nat) (b : Bool) : Int × Int :=
  let c : Int := s.fld (STP_DAC n) (if b then Fld.STP_DAC_CODE_B else Fld.STP_DAC_CODE_A)
  let o := s.sfld (STP_OFS n) (if b then Fld.STP_OFS_OFS_B else Fld.STP_OFS_OFS_A)
  let h : Int := s.fld (STP_CHOP n) Fld.STP_CHOP_HYST
  (min (c + o + h) 1023, max (c + o - h) 0)

/-- Enter a chopper state. -/
def State.chopTo (s : State) (n : Nat) (b : Bool) (code : Nat) : State :=
  let x := s.axAt n
  let k := b2n b
  let t := s
  let s := s.setFld (STP_STATE n) (phaseFld b) code
  let s := s.setAx n { x with chopAt := x.chopAt.setIfInBounds k s.clock,
                              driveAll := if code = 1 then x.driveAll else x.driveAll.setIfInBounds k false }
  s.switched t n

/-- The slow part of a decay: its DECAY began earlier. -/
def State.chopSlow (s : State) (n : Nat) (b : Bool) : State := (s.setFld (STP_STATE n) (phaseFld b) 3).switched s n

/-- A precharge, or a failed check of it on a slot of the phase, keeps the phase in slow decay: no reference acts (R174, R268). -/
def State.bootHolds (s : State) (n : Nat) (b : Bool) : Bool :=
  (s.axAt n).pre.isSome || ((s.axAt n).bootHeld && bits (s.fld (GATE_BOOT n) Fld.GATE_BOOT_MASK) (2 * b2n b + 1) (2 * b2n b) != 0)

/-- DECAY as STP_CFG.DECAY names it; mixed decay with TFAST = 0 has no fast part. -/
def State.chopDecay (s : State) (n : Nat) (b : Bool) : State :=
  match s.fld (STP_CFG n) Fld.STP_CFG_DECAY with
  | 0 => s.chopTo n b 3
  | 1 => s.chopTo n b 2
  | _ => s.chopTo n b (if s.fld (STP_CHOP n) Fld.STP_CHOP_TFAST = 0 then 3 else 2)

/-- The update-point rows of R267 for one phase; `i` is the phase current in DAC codes, j = p × i. -/
def State.chopUpdate (s : State) (n : Nat) (b : Bool) (i : Int) : State :=
  let k := if b then 2 else 0
  if s.flag (STP_STAT n) Fld.STP_STAT_MODE = false then (if s.chop n b = 0 then s else (s.phaseOff n b).switched s n)
  else if s.bootHolds n b ∧ 5 ≤ s.slotRank n k ∧ 5 ≤ s.slotRank n (k + 1) then (if s.chop n b = 3 then s else s.chopTo n b 3)
  else if s.chop n b ≠ 0 ∨ s.slotRank n k < 5 ∨ s.slotRank n (k + 1) < 5 then s
  else
    let j := if s.polNeg n b then -i else i
    let c := s.fld (STP_DAC n) (if b then Fld.STP_DAC_CODE_B else Fld.STP_DAC_CODE_A)
    if c ≠ 0 ∧ j < (s.chopHiLo n b).2 then s.chopTo n b 1 else s.chopDecay n b

/-- Ticks since a phase entered its state. -/
def State.chopTime (s : State) (n : Nat) (b : Bool) : Nat := s.clock - vget (s.axAt n).chopAt 0 (b2n b)

/-- TON_MIN and TOFF_MIN have elapsed. -/
def State.tonDone (s : State) (n : Nat) (b : Bool) : Bool :=
  100 + 25 * s.fld (STP_CHOP n) Fld.STP_CHOP_TON_MIN ≤ 4 * s.chopTime n b

def State.toffDone (s : State) (n : Nat) (b : Bool) : Bool :=
  125 * s.fld (STP_CHOP n) Fld.STP_CHOP_TOFF_MIN ≤ 4 * s.chopTime n b

def State.chopCode (s : State) (n : Nat) (b : Bool) : Nat :=
  s.fld (STP_DAC n) (if b then Fld.STP_DAC_CODE_B else Fld.STP_DAC_CODE_A)

/-- DRIVE to DECAY, once TON_MIN has elapsed. -/
def State.chopHigh (s : State) (n : Nat) (b : Bool) : State :=
  if s.chop n b = 1 ∧ s.tonDone n b then s.chopDecay n b else s

/-- DECAY to DRIVE, once TOFF_MIN has elapsed and c is not 0. -/
def State.chopLow (s : State) (n : Nat) (b : Bool) : State :=
  if 2 ≤ s.chop n b ∧ s.toffDone n b ∧ s.chopCode n b ≠ 0 ∧ ¬ s.bootHolds n b then s.chopTo n b 1 else s

/-! ## Supervision of the loops (R159, R215, R216, R275) -/

/-- A supervision count was reset: the action may be taken again, and the condition has ceased. -/
def State.supReset (s : State) (n k : Nat) : State :=
  let x := s.axAt n
  (s.setAx n { x with acted := x.acted.setIfInBounds k false }).cease (srcId 0x09 n) k

/-- A count has reached its limit: the action, once. -/
def State.supAct (s : State) (n k count limit code : Nat) (counts : Bool) : State :=
  let x := s.axAt n
  if Nat.max limit 1 ≤ count ∧ ¬ vget x.acted false k then
    (s.setAx n { x with acted := x.acted.setIfInBounds k true }).supervisionAction n code k counts
  else s

/-- A consecutive count held in a field: it rises where `b`, else it resets. -/
def State.runCount (s : State) (n k a : Nat) (f : Fld) (b : Bool) : State :=
  if b then s.incFld a f else (s.setFld a f 0).supReset n k

/-- Set a sticky flag. -/
def State.sticky (s : State) (a k : Nat) (b : Bool) : State := if b then s.setFld a ⟨k, k⟩ 1 else s

/-- The kernel status word, word 0 of the shadow (R152, R159, R163, R275, R276). -/
def State.statusWord (s : State) (n : Nat) (v : Nat) : State :=
  let vlim := nbit v 0
  let lost := nbit v 2
  let s := s.setFld (CL_STAT n) Fld.CL_STAT_VLIM (b2n vlim)
  let s := s.sticky (CL_STAT n) 9 vlim
  let s := [1, 2, 3, 4, 5, 6, 7, 8].foldl (fun s k => s.sticky (CL_STAT n) k (nbit v k)) s
  let s := s.runCount n 0 (CL_STAT n) Fld.CL_STAT_VLIM_RUN vlim
  let s := if vlim then s.incFld (CL_VLIMCNT n) Fld.CL_VLIMCNT_COUNT else s
  let s := if nbit v 1 then s.incFld (CL_SBCNT n) Fld.CL_SBCNT_COUNT else s
  let s := if lost then s.incFld (CL_LBCNT n) Fld.CL_LBCNT_COUNT else s
  let x := s.axAt n
  let s := if lost then s.setAx n { x with lbRun := satInc 8 x.lbRun } else (s.setAx n { x with lbRun := 0 }).supReset n 1
  if s.fld (STP_CFG n) Fld.STP_CFG_CLASS ≠ 0 then
    let st := nbit v 9
    let s := s.setFld (STP_STAT n) Fld.STP_STAT_STALL (b2n st)
    let s := s.sticky (STP_STAT n) 2 st
    let s := if st then s.incFld (STP_STALLCNT n) Fld.STP_STALLCNT_COUNT else s
    s.runCount n 6 (STP_STAT n) Fld.STP_STAT_SG_RUN st
  else s

/-- The loop report (R212, R215, R216). -/
def State.loopReport (s : State) (n : Nat) (v : Nat) : State :=
  let win := bits v 15 12
  let s := if win ≠ s.fld (LP_STAT n) Fld.LP_STAT_WIN then s.incFld (LP_SWCNT n) Fld.LP_SWCNT_COUNT else s
  let s := s.setFld (LP_STAT n) Fld.LP_STAT_WIN win
  let s := s.setReg (LP_REPORT n) (BitVec.ofNat 32 (v % 65536))
  let s := s.sticky (LP_STAT n) 0 (nbit v 1)
  let s := s.sticky (LP_STAT n) 1 (nbit v 2)
  let s := s.sticky (LP_STAT n) 2 (nbit v 4)
  let s := s.sticky (LP_STAT n) 3 (nbit v 5)
  let s := s.sticky (LP_STAT n) 4 (nbit v 6 || nbit v 7)
  let s := s.sticky (LP_STAT n) 5 (nbit v 8)
  let s := s.sticky (LP_STAT n) 6 (nbit v 9)
  let s := s.sticky (LP_STAT n) 7 (nbit v 11)
  let s := s.runCount n 2 (LP_RUNS n) Fld.LP_RUNS_FE_RUN (nbit v 1)
  let s := s.runCount n 3 (LP_RUNS n) Fld.LP_RUNS_SAT_RUN (nbit v 2)
  let s := s.runCount n 4 (LP_RUNS n) Fld.LP_RUNS_WU_RUN (nbit v 4)
  if nbit v 0 ∧ ¬ nbit v 6 ∧ ¬ nbit v 7 then (s.setFld (LP_STAT n) Fld.LP_STAT_HOLD_RUN 0).supReset n 5 else s

/-- A report of the interruption itself on a moved axis does not count as a double fault (R349). -/
def State.axisCounts (s : State) (n k : Nat) : Bool := !((k == 1 || k == 5) && s.movedAxes.contains n)

/-- CL_LIMIT_REACHED: the count of lost bursts, or of VLIM flights, has reached its limit. -/
def execClLimitReached (n : Fin 48) (lostBurst : Bool) (s : State) : Host.Outcome State Fault Refusal :=
  let n := n.val
  if lostBurst then
    .next (s.supAct n 1 (s.axAt n).lbRun (s.fld (CL_LIMIT n) Fld.CL_LIMIT_LB_T) (s.fld (CL_CFG n) Fld.CL_CFG_LB_ACT) (s.axisCounts n 1))
  else
    .next (s.supAct n 0 (s.fld (CL_STAT n) Fld.CL_STAT_VLIM_RUN) (s.fld (CL_LIMIT n) Fld.CL_LIMIT_VLIM_T)
      (s.fld (CL_CFG n) Fld.CL_CFG_VLIM_ACT) true)

/-- LOOP_SUPERVISION_LIMIT: FE, SAT, WU or HOLD has reached its limit. -/
def execLoopSupervisionLimit (n : Fin 48) (which : Fin 4) (s : State) : Host.Outcome State Fault Refusal :=
  let n := n.val
  .next <| match which with
  | 0 => s.supAct n 2 (s.fld (LP_RUNS n) Fld.LP_RUNS_FE_RUN) (s.fld (LP_LIMIT n) Fld.LP_LIMIT_FE_T) (s.fld (LP_CFG n) Fld.LP_CFG_FE_ACT) true
  | 1 => s.supAct n 3 (s.fld (LP_RUNS n) Fld.LP_RUNS_SAT_RUN) (s.fld (LP_LIMIT n) Fld.LP_LIMIT_SAT_T) (s.fld (LP_CFG n) Fld.LP_CFG_SAT_ACT) true
  | 2 => s.supAct n 4 (s.fld (LP_RUNS n) Fld.LP_RUNS_WU_RUN) (s.fld (LP_LIMIT n) Fld.LP_LIMIT_WU_T) (s.fld (LP_CFG n) Fld.LP_CFG_WU_ACT) true
  | 3 => s.supAct n 5 (s.fld (LP_STAT n) Fld.LP_STAT_HOLD_RUN) (s.fld (LP_HOLD n) Fld.LP_HOLD_HOLD_T)
      (s.fld (LP_CFG n) Fld.LP_CFG_HOLD_ACT) (s.axisCounts n 5)

/-- STALL_LIMIT. -/
def execStallLimit (n : Fin 48) (s : State) : Host.Outcome State Fault Refusal :=
  let n := n.val
  .next (s.supAct n 6 (s.fld (STP_STAT n) Fld.STP_STAT_SG_RUN) (s.fld (STP_LIMIT n) Fld.STP_LIMIT_SG_T)
    (s.fld (STP_CFG n) Fld.STP_CFG_SG_ACT) true)

/-! ## A downlink word (R143, R198) -/

/-- A value that reached the die-link endpoint, or on MX48-LA the on-die generators, of channels 4d to 4d + 3. `pos` is its
place among the flits of its reservation. -/
def State.downWord (s : State) (d tag pos : Nat) (v : D24) : State :=
  let n := 4 * d + bits tag 7 6
  if n < axisCount s.part then
    if bits tag 15 12 = 1 then
      let w := bits tag 2 0 + pos
      if w = 0 then s.statusWord n v.toNat else if w ≤ 7 then s.loadWord n w v else s
    else if bits tag 15 12 = 2 then s.loopReport n v.toNat
    else s
  else s

/-! ## The commands of a channel -/

/-- PWM_EN_SET. -/
def execPwmEnSet (n : Fin 48) (w : Word) (s : State) : Host.Outcome State Fault Refusal :=
  .next (s.access (PWM_CTRL n) fun s => s.pwmCtrlWrite n (fset w Fld.PWM_CTRL_EN 1))

/-- PWM_EN_CLEAR. -/
def execPwmEnClear (n : Fin 48) (w : Word) (s : State) : Host.Outcome State Fault Refusal :=
  .next (s.access (PWM_CTRL n) fun s => s.pwmCtrlWrite n (fset w Fld.PWM_CTRL_EN 0))

/-- SAFE_REQ_SET. -/
def execSafeReqSet (n : Fin 48) (w : Word) (s : State) : Host.Outcome State Fault Refusal :=
  .next (s.access (PWM_CTRL n) fun s => s.pwmCtrlWrite n (fset w Fld.PWM_CTRL_SAFE_REQ 1))

/-- SAFE_REQ_CLEAR. -/
def execSafeReqClear (n : Fin 48) (w : Word) (s : State) : Host.Outcome State Fault Refusal :=
  .next (s.access (PWM_CTRL n) fun s => s.pwmCtrlWrite n (fset w Fld.PWM_CTRL_SAFE_REQ 0))

/-- Line time in ticks as a die's time base has it (R23): counted on from the last boundary marker. MX48-LA has no dies, its generators
take line time itself. -/
def State.dieTicks (s : State) (d : Nat) : Nat :=
  match (s.sddAt d).marker with
  | some (t, c) => t + (s.clock - c)
  | none => s.ticks

/-- The carrier index whose valley lies nearest to now (R135, R140). -/
def State.carrierNow (s : State) (n : Nat) : Nat :=
  let per : Int := Nat.max 1 (s.fld (PWM_PERIOD n) Fld.PWM_PERIOD_PERIOD)
  let t : Int := ((s.dieTicks (sddOf n) : Int) - s.grid.2.1) * 1024 - s.fld (PWM_PHASE n) Fld.PWM_PHASE_PHASE
  ((t + per / 2) / per).toNat

/-- What a valley does beside the update: the carrier index, precharge periods, the chopper's block, BST UVLO counting. -/
def State.valley (s : State) (n : Nat) : State :=
  let x := s.axAt n
  let on := s.slotRank n 3 = 5 ∧ s.fld (GATE_CFG n) Fld.GATE_CFG_SLOT3_FN = 1
  let buv := x.started && s.en n && x.bstLow.any id
  let s := if buv then s.incFld (GATE_BUVCNT n) Fld.GATE_BUVCNT_COUNT else s
  s.setAx n { x with carrier := s.carrierNow n, pastPeak := false, buvCounted := buv,
                     pre := x.pre.map (· - 1),
                     brkSum := if on then x.brkSum + s.slotDuty n 3 else x.brkSum,
                     brkN := if on then x.brkN + 1 else x.brkN }

/-- Start of switching: the precharge of R174, which does not act in external mode (R182). -/
def State.startSwitching (s : State) (n : Nat) : State :=
  let x := s.axAt n
  let p := s.fld (GATE_BOOT n) Fld.GATE_BOOT_PRECHG
  let s := s.setAx n { x with started := true, pre := if p = 0 ∨ s.extMode n then none else some p }
  if p = 0 ∨ s.extMode n then s.setFld (GATE_STAT n) Fld.GATE_STAT_BOOT_DONE 1
  else s.setFld (GATE_STAT n) Fld.GATE_STAT_PRECHG_BUSY 1

/-- The tick in which a valley, or a peak, of the carrier falls (R135). -/
def State.carrierAt (s : State) (n : Nat) (peak : Bool) : Bool :=
  let per : Int := Nat.max 1 (s.fld (PWM_PERIOD n) Fld.PWM_PERIOD_PERIOD)
  let t : Int := ((s.dieTicks (sddOf n) : Int) - s.grid.2.1) * 1024 - s.fld (PWM_PHASE n) Fld.PWM_PHASE_PHASE
  decide (((if peak then per / 2 else 0) - t) % per < 1024) && (s.axAt n).upAt.all fun c => decide (c < s.clock)

/-- UPDATE_POINT: a valley, or a peak, of the carrier (R135, R136), in its tick and once. A shadow complete for 64 ns takes effect. -/
def execUpdatePoint (n : Fin 48) (peak : Bool) (iA iB : Int) (s : State) : Host.Outcome State Fault Refusal :=
  let n := n.val
  if !s.domOn (domAx n) || axisCount s.part ≤ n || !s.carrierAt n peak then .next s
  else
    let s := s.setAx n { s.axAt n with upAt := some s.clock }
    let s := if peak then s.setAx n { s.axAt n with pastPeak := true } else s.valley n
    if peak && !s.flag (PWM_CTRL n) Fld.PWM_CTRL_UPD then .next s
    else
      let x := s.axAt n
      let ready := x.loads.filter fun g => g.at_ + 16 ≤ s.clock
      let s := s.setAx n { x with loads := x.loads.filter fun g => !(g.at_ + 16 ≤ s.clock) }
      let s := ready.foldl (fun s g => g.words.foldl (fun s e => s.takeWord n e) s) s
      let s := if !ready.isEmpty && !x.started && s.flag (PWM_STAT n) Fld.PWM_STAT_SHADOW_VALID && s.en n then s.startSwitching n else s
      let s := if s.fld (STP_CFG n) Fld.STP_CFG_CLASS ≠ 0 ∧ ¬ s.extMode n then (s.chopUpdate n false iA).chopUpdate n true iB else s
      .next ((s.setEdges n).showActive n)

/-- The duty that will act on a slot from the next update point on, by the shadows that have arrived. -/
def State.nextDuty (s : State) (n k : Nat) : Nat :=
  let x := s.axAt n
  let d := x.loads.foldl (fun d g => g.words.foldl (fun (d : Vector D24 4) e => if 1 ≤ e.1 ∧ e.1 ≤ 4 then d.setIfInBounds (e.1 - 1) e.2 else d) d) x.duty
  (s.setAx n { x with duty := d }).slotDuty n k

/-- The edge words of slot `k` that will act from the next update point on. -/
def State.nextEdges (s : State) (n k : Nat) : Nat × Nat := edges (s.fld (PWM_PERIOD n) Fld.PWM_PERIOD_PERIOD) (s.nextDuty n k)

/-- Width of the HO pulse after the rising edge `e`, in taps (R142). Its fall is the one in effect then: with UPD = 1 and the peak to
come, that of the next shadow. The flag: its commanded interval is empty. -/
def State.hoWidth (s : State) (n k : Nat) (e : PwmEdge) : Int × Bool :=
  let f := if s.flag (PWM_CTRL n) Fld.PWM_CTRL_UPD ∧ ¬ (s.axAt n).pastPeak then (s.nextEdges n k).2 else (s.reg (PWM_FALL n k)).toNat
  ((edgeTap f e.c : Int) - e.tap - s.fld (PWM_DLY n k) Fld.PWM_DLY_RISE - 320, f ≤ e.word)

/-- Width of the LO pulse after the falling edge `e`, in taps: up to the rise of the next period, by the edges that act in it. -/
def State.loWidth (s : State) (n k : Nat) (e : PwmEdge) : Int :=
  let r := if (s.axAt n).carrier = e.c then (s.nextEdges n k).1 else (s.reg (PWM_RISE n k)).toNat
  ((s.fld (PWM_PERIOD n) Fld.PWM_PERIOD_PERIOD / 16 : Nat) : Int) + edgeTap r (e.c + 1) - e.tap - s.fld (PWM_DLY n k) Fld.PWM_DLY_FALL - 320

/-- The delay and the interlock after an edge have passed, and the opposite switch is off (R141). -/
def State.turnOnDue (s : State) (n k : Nat) (ho : Bool) (e : PwmEdge) : Bool :=
  let dly := s.fld (PWM_DLY n k) (if ho then Fld.PWM_DLY_RISE else Fld.PWM_DLY_FALL)
  (dly + 320) / 64 ≤ s.clock - e.at_ && !vget (if ho then (s.axAt n).lo else (s.axAt n).ho) false k

/-- PWM_EDGE: a rise or fall time, or the delayed opposite turn-on, comes (R141, R142). -/
def execPwmEdge (n : Fin 48) (k : Fin 4) (e : EdgeKind) (s : State) : Host.Outcome State Fault Refusal :=
  let n := n.val
  let k := k.val
  let x := s.axAt n
  if !(s.domOn (domAx n) && s.en n && x.started) then .next s
  else
    let edge (a : Nat) : Option PwmEdge :=
      let w := (s.reg a).toNat
      some { at_ := s.clock, c := x.carrier, word := w, tap := edgeTap w x.carrier }
    let minW : Int := s.fld (PWM_MINPW n) Fld.PWM_MINPW_MINPW
    match e with
    | .rise => .next (s.setAx n { x with lo := x.lo.setIfInBounds k false, riseE := x.riseE.setIfInBounds k (edge (PWM_RISE n k)) })
    | .fall => .next (s.setAx n { x with ho := x.ho.setIfInBounds k false, fallE := x.fallE.setIfInBounds k (edge (PWM_FALL n k)) })
    | .hoOn =>
      match vget x.riseE none k with
      | none => .next s
      | some e =>
        if !s.turnOnDue n k true e then .next s
        else
          let w := s.hoWidth n k e
          let y := { x with riseE := x.riseE.setIfInBounds k none }
          if w.2 then .next (s.setAx n y)
          else if w.1 ≤ 0 ∨ w.1 < minW then .next ((s.setAx n y).supCount n)
          else .next ((s.setAx n { y with ho := x.ho.setIfInBounds k true }).switched s n)
    | .loOn =>
      match vget x.fallE none k with
      | none => .next s
      | some e =>
        if !s.turnOnDue n k false e then .next s
        else
          let w := s.loWidth n k e
          let y := { x with fallE := x.fallE.setIfInBounds k none }
          if w ≤ 0 ∨ w < minW then .next ((s.setAx n y).supCount n)
          else .next ((s.setAx n { y with lo := x.lo.setIfInBounds k true }).switched s n)

/-- CHOPPER_HI. -/
def execChopperHi (n : Fin 48) (b : Bool) (s : State) : Host.Outcome State Fault Refusal := .next (s.chopHigh n b)

/-- TON_MIN_EXPIRY: TON_MIN elapses with the current already at or above HI. -/
def execTonMinExpiry (n : Fin 48) (b : Bool) (s : State) : Host.Outcome State Fault Refusal :=
  .next (s.chopHigh n b)

/-- CHOPPER_LO. -/
def execChopperLo (n : Fin 48) (b : Bool) (s : State) : Host.Outcome State Fault Refusal := .next (s.chopLow n b)

/-- TOFF_MIN_EXPIRY: TOFF_MIN elapses with the current already at or below LO. -/
def execToffMinExpiry (n : Fin 48) (b : Bool) (s : State) : Host.Outcome State Fault Refusal :=
  .next (s.chopLow n b)

/-- CHOPPER_ZERO: the current reaches 0 in fast decay. -/
def execChopperZero (n : Fin 48) (b : Bool) (s : State) : Host.Outcome State Fault Refusal :=
  .next (if s.chop n b = 2 then s.chopSlow n b else s)

/-- TFAST_END: the fast part of mixed decay ends. -/
def execTfastEnd (n : Fin 48) (b : Bool) (s : State) : Host.Outcome State Fault Refusal :=
  .next (if s.chop n b = 2 ∧ 2 ≤ s.fld (STP_CFG n) Fld.STP_CFG_DECAY
      ∧ 125 * s.fld (STP_CHOP n) Fld.STP_CHOP_TFAST ≤ 4 * s.chopTime n b then
    s.chopSlow n b else s)

/-! ## Bursts (R149, R176 to R181) -/

/-- The current value of a slot in internal mode (R177). -/
def burstValue (codes : List Int) (n ofs gcal : Int) : D24 :=
  if codes.contains 8191 then 0x7FFFFF
  else if codes.contains (-8192) then 0x800000
  else
    let a := codes.foldl (· + ·) 0 * 1024 / n
    BitVec.ofInt 24 (sat24 ((a - ofs) * gcal / 2 ^ 22))

/-- The decimated value of a slot in external mode (R181): M = 2^k. -/
def decimated (sum : Int) (k : Nat) : D24 := BitVec.ofInt 24 (sat24 ((sum - 2 ^ (3 * k - 1)) * 2 ^ 24 / 2 ^ (3 * k)))

/-- A VBUS conversion (R178, R190): the overvoltage report on crossing, and its condition. -/
def State.vbusConv (s : State) (d : Nat) (code : Nat) : State :=
  let s := s.setFld (SDD_VBUS d) Fld.SDD_VBUS_CODE code
  let past := s.fld (SDD_THR d) Fld.SDD_THR_VBUS_OV < code
  let x := s.sddAt d
  let s := s.setSdd d { x with ovOn := past }
  if past then
    if x.ovOn then s
    else (s.setFld (SDD_STAT d) Fld.SDD_STAT_VBUS_OV 1).logContained (srcId 0x08 d) .safepwm (dieAxes d) 0 (some 1)
  else s.cease (srcId 0x08 d) 1

/-- The phase-node conversions of a burst: the latest is shown (R179), all count for the means of a stepper channel (R263). -/
def State.phvConv (s : State) (n : Nat) (phv : List (List Int)) : State :=
  let s := s.each 4 fun s k => match (vgetL phv [] k).getLast? with
    | some c => s.setReg (SNS_PHV n k) (BitVec.ofInt 32 (c * 4096))
    | none => s
  let x := s.axAt n
  let sum (k : Nat) : Int := (vgetL phv [] k).foldl (· + ·) 0
  s.setAx n { x with phvA := x.phvA + (sum 0 - sum 1), phvB := x.phvB + (sum 2 - sum 3), phvN := x.phvN + (vgetL phv [] 0).length }

/-- The means of the phase voltages over the flight that ends (R263); a flight without a conversion leaves them. -/
def Ax.phvMean (x : Ax) : Ax :=
  if x.phvN = 0 then x
  else
    let mean (v : Int) : D24 := BitVec.ofInt 24 (sat24 (v * 4096 / (x.phvN : Int)))
    { x with meanA := mean x.phvA, meanB := mean x.phvB, phvA := 0, phvB := 0, phvN := 0 }

/-- BURST. -/
def execBurst (n : Fin 48) (late : Bool) (b : BurstCodes) (s : State) : Host.Outcome State Fault Refusal :=
  let n := n.val
  if !s.domOn (domAx n) || axisCount s.part ≤ n then .next s
  else
    let ext := s.extMode n
    let cnt := s.fld (SNS_CFG n) Fld.SNS_CFG_NM1 + 1
    let val (k : Nat) : D24 :=
      let l := vgetL b.slots [] k
      if ext then decimated (vgetL l 0 0) (s.fld (SNS_CFG n) Fld.SNS_CFG_OSR + 5)
      else burstValue ((List.range cnt).map fun j => vgetL l 0 j) cnt (s.sfld (SNS_OFS n k) Fld.SNS_OFS_OFS) (s.fld (SNS_GCAL n k) Fld.SNS_GCAL_GCAL)
    let s := if s.part = .la48 then s else s.vbusConv (sddOf n) b.vbus.toNat
    let s := if ext then s else s.phvConv n b.phv
    let vec : Vector D24 4 := #v[val 0, val 1, val 2, val 3]
    let vb : D24 := match s.fld (CL_CFG n) Fld.CL_CFG_VBUS_SRC with
      | 0 => if s.part = .la48 then 0 else BitVec.ofNat 24 (b.vbus.toNat * 2048)
      | 1 => decimated b.vbusSum (s.fld (SNS_CFG (s.fld (CL_CFG n) Fld.CL_CFG_VBUS_CH)) Fld.SNS_CFG_OSR + 5)
      | _ => BitVec.ofNat 24 (s.fld (CL_VBUS_FW n) Fld.CL_VBUS_FW_VBUS)
    let w : BurstWords := { i := vec, vbus := vb, status := BitVec.ofNat 24 (s.chStatus n),
                             vA := (s.axAt n).meanA, vB := (s.axAt n).meanB }
    let x := s.axAt n
    if late then
      let s := s.setAx n { x with late := w }
      .next (s.each 4 fun s k => s.setReg (SNS_I n k) (sx24 (vget vec 0 k)))
    else .next (s.setAx n { x with early := w })

/-! ## Flight boundary of a channel -/

/-- What a flight boundary does on a channel: PWM_NOLOAD, HOLD_RUN, NOCHOP, the means of the phase voltages. -/
def State.axisFlight (s : State) (n : Nat) : State :=
  if !s.domOn (domAx n) then s else
  let x := s.axAt n
  let s := if x.enAtStart && s.en n && !x.arrived then s.incFld (PWM_NOLOAD n) Fld.PWM_NOLOAD_COUNT else s
  let s := s.runCount n 5 (LP_STAT n) Fld.LP_STAT_HOLD_RUN (s.chRun n)
  let nc (b : Bool) : Bool := vget x.driveAll false (b2n b) && s.chop n b == 1
  let s := s.sticky (STP_STAT n) 3 (nc false)
  let s := s.sticky (STP_STAT n) 4 (nc true)
  let y := (s.axAt n).phvMean
  s.setAx n { y with arrived := false, enAtStart := s.en n, nochop := #v[nc false, nc true],
                     driveAll := #v[s.chop n false == 1, s.chop n true == 1] }

end Sys2Proof.Machine
end

