-- ==== Sys2Proof/Machine/PowerStage.lean ====
section
/-! DEFINITION. The power stage (R164 to R195): gate supply, bootstrap, short circuit, offset calibration, the fourth slot,
STO inside the drivers, temperature. -/

namespace Sys2Proof.Machine
open Sys2Proof.Machine.Reg

/-- The die exists and one of its channels' domains is on (R501). -/
def State.sddOn (s : State) (d : Nat) : Bool := d < sddCount s.part && (dieAxes d).any fun n => s.domOn (domAx n)

/-- The channels of a die the ordering code has. -/
def State.eachDieAxis (s : State) (d : Nat) (f : State → Nat → State) : State := (dieAxes d).foldl f s

/-! ## Gate supply (R166 to R168) -/

/-- VGD thresholds, falling and rising, in mV (R167). -/
def State.vgdThr (s : State) (d : Nat) : Nat × Nat :=
  match s.fld (SDD_GDS d) Fld.SDD_GDS_MODE with
  | 2 => (4600, 4900)
  | 3 => if s.flag (SDD_GDS d) Fld.SDD_GDS_EXT_GAN then (4600, 4900) else (9600, 10200)
  | _ => (9600, 10200)

/-- BST-SH thresholds, falling and rising, in mV (R167). -/
def State.bstThr (s : State) (d : Nat) : Nat × Nat := if (s.vgdThr d).2 = 4900 then (4300, 4600) else (8600, 9200)

/-- SDD_GDS is accepted while EN is 0 on all four channels (R166). -/
def State.gdsOk (s : State) (d : Nat) : Bool := (dieAxes d).all fun n => !s.en n

/-- SDD_GDS takes a value: the thresholds change, and VGD_OK with them. DESIGN CHOICE (log entry 255): a VGD that the new thresholds put below
makes no undervoltage report, since the period above the old ones is forgotten. -/
def State.gdsApply (s : State) (d : Nat) (w : Word) : State :=
  let s := s.setReg (SDD_GDS d) w
  let ok := fget w Fld.SDD_GDS_MODE ≠ 0 ∧ (s.vgdThr d).2 ≤ s.fld (SDD_VGD d) Fld.SDD_VGD_MV
  let s := s.setFld (SDD_STAT d) Fld.SDD_STAT_VGD_OK (b2n ok)
  s.setSdd d { s.sddAt d with vgdSeen := ok }

/-- VGD_UVLO: VGD falls below its threshold. -/
def execVgdUvlo (d : Fin 12) (mv : BitVec 16) (s : State) : Host.Outcome State Fault Refusal :=
  let d := d.val
  if !s.sddOn d then .next s
  else
    let s := s.setFld (SDD_VGD d) Fld.SDD_VGD_MV mv.toNat
    if s.fld (SDD_GDS d) Fld.SDD_GDS_MODE = 0 ∨ (s.vgdThr d).1 ≤ mv.toNat then .next s
    else
      let x := s.sddAt d
      let s := s.setFld (SDD_STAT d) Fld.SDD_STAT_VGD_OK 0
      if x.vgdSeen then
        let s := s.setFld (SDD_STAT d) Fld.SDD_STAT_VGD_UV 1
        let s := s.setSdd d { x with vgdSeen := false }
        let s := s.eachDieAxis d fun s n => s.calAbort n 0x15
        .next (s.logContained (srcId 0x08 d) .safepwm (dieAxes d) 0 (some 0))
      else .next s

/-- VGD_UVLO_RELEASE: VGD rises through its threshold. -/
def execVgdUvloRelease (d : Fin 12) (mv : BitVec 16) (s : State) : Host.Outcome State Fault Refusal :=
  let d := d.val
  if !s.sddOn d then .next s
  else
    let s := s.setFld (SDD_VGD d) Fld.SDD_VGD_MV mv.toNat
    if s.fld (SDD_GDS d) Fld.SDD_GDS_MODE = 0 ∨ mv.toNat < (s.vgdThr d).2 then .next s
    else
      let s := s.setFld (SDD_STAT d) Fld.SDD_STAT_VGD_OK 1
      let s := s.setSdd d { s.sddAt d with vgdSeen := true }
      .next (s.cease (srcId 0x08 d) 0)

/-- REG_OL: overload of the internal regulator. -/
def execRegOl (d : Fin 12) (s : State) : Host.Outcome State Fault Refusal :=
  let m := s.fld (SDD_GDS d) Fld.SDD_GDS_MODE
  if !s.sddOn d || !(m == 1 || m == 2) then .next s
  else .next ((s.setFld (SDD_STAT d) Fld.SDD_STAT_REG_OL 1).logCorrected (srcId 0x08 d))

/-! ## Bootstrap (R174, R175) -/

/-- PRECHARGE_END: the PRECHG periods are over; BST-SH of each slot, in mV, is compared with the rising threshold. -/
def execPrechargeEnd (n : Fin 48) (bst : List Nat) (s : State) : Host.Outcome State Fault Refusal :=
  let n := n.val
  let x := s.axAt n
  if x.pre ≠ some 0 then .next s
  else
    let mask := s.fld (GATE_BOOT n) Fld.GATE_BOOT_MASK
    let pass := (List.range 4).foldl (fun m k => if (s.bstThr (sddOf n)).2 ≤ vgetL bst 0 k then m + 2 ^ k else m) 0
    let ok := mask &&& pass
    let s := s.setFld (GATE_STAT n) Fld.GATE_STAT_BOOT_OK ok
    let s := (s.setFld (GATE_STAT n) Fld.GATE_STAT_BOOT_DONE 1).setFld (GATE_STAT n) Fld.GATE_STAT_PRECHG_BUSY 0
    if ok = mask then .next (s.setAx n { x with pre := none })
    else
      let s := s.setAx n { x with pre := none, bootHeld := true }
      .next ((s.setFld (GATE_STAT n) Fld.GATE_STAT_BOOT_FAIL 1).logCorrected (srcId 0x08 (sddOf n)))

/-- BOOTSTRAP_UVLO: BST-SH of a slot, in mV: below its falling threshold, or not. -/
def execBootstrapUvlo (n : Fin 48) (k : Fin 4) (bst : Nat) (s : State) : Host.Outcome State Fault Refusal :=
  let n := n.val
  if s.extMode n || !s.domOn (domAx n) then .next s
  else
    let x := s.axAt n
    let low : Bool := bst < (s.bstThr (sddOf n)).1
    let t := s
    let cnt := low && !x.buvCounted && x.started && s.en n
    let s := s.setAx n { x with bstLow := x.bstLow.setIfInBounds k low, buvCounted := x.buvCounted || cnt }
    let s := if low then s.setFld (GATE_STAT n) ⟨12 + k, 12 + k⟩ 1 else s
    .next ((if cnt then s.incFld (GATE_BUVCNT n) Fld.GATE_BUVCNT_COUNT else s).switched t n)

/-! ## Short circuit (R183 to R185) -/

/-- Slots that a trip of `slots` latches on channel `m`, for a trip on channel `n`. -/
def State.scLatched (s : State) (n m : Nat) (slots : Nat) : Nat :=
  match s.fld (GATE_CFG n) Fld.GATE_CFG_SC_SCOPE with
  | 0 => if m = n then slots else 0
  | 1 => if m = n then 15 else 0
  | _ => 15

/-- Set latches of a channel; each newly set one starts its 10 ms. -/
def State.latchSlots (s : State) (m mask : Nat) : State :=
  let old := s.fld (SC_STAT m) Fld.SC_STAT_LATCH
  let s := s.setFld (SC_STAT m) Fld.SC_STAT_LATCH (old ||| mask)
  let s := s.each 4 fun s k => if nbit mask k && !nbit old k then s.startTimer (.scLatch m k) (10 * msTicks) else s
  s.reRank m

/-- The comparator of a slot does not listen: a switch turned on less than 100 ns + BLANK × 25 ns ago (R183). -/
def State.blanked (s : State) (n k : Nat) : Bool :=
  (vget (s.axAt n).onAt none k).any fun c => c ≤ s.clock && decide (4 * (s.clock - c) < 100 + 25 * s.fld (SC_CFG n) Fld.SC_CFG_BLANK)

/-- The comparator of a slot trips at a shunt voltage in mV (R183). -/
def State.scTrips (s : State) (n k : Nat) (mv : Int) : Bool :=
  nbit (s.fld (SC_CFG n) Fld.SC_CFG_EN) k && 20 + s.fld (SC_CFG n) Fld.SC_CFG_THR ≤ mv.natAbs && !s.blanked n k

/-- SC_TRIP: the voltages at SNP and SNN of a channel's slots, in mV. Trips in one interval free of blanking are one event (R185). -/
def execScTrip (n : Fin 48) (snp snn : List Int) (s : State) : Host.Outcome State Fault Refusal :=
  let n := n.val
  let d := sddOf n
  let mask (p : Nat → Bool) : Nat := (List.range 4).foldl (fun m k => if p k then m + 2 ^ k else m) 0
  let mv (k : Nat) : Int := vgetL snp 0 k - vgetL snn 0 k
  let hit := mask fun k => s.scTrips n k (mv k)
  if s.extMode n || !s.domOn (domAx n) || hit == 0 then .next s
  else
    let pos := mask fun k => decide (0 < mv k)
    let p := s.fld (SC_STAT n) Fld.SC_STAT_POL
    let s := s.setFld (SC_STAT n) Fld.SC_STAT_POL ((p &&& (15 ^^^ hit)) ||| (pos &&& hit))
    let s := s.eachDieAxis d fun s m => if s.scLatched n m hit = 0 then s else s.latchSlots m (s.scLatched n m hit)
    if (s.axAt n).scSeen then .next s
    else
      let s := s.setAx n { s.axAt n with scSeen := true }
      let s := s.incFld (SC_CNT n) Fld.SC_CNT_COUNT
      .next (s.logContained (srcId 0x08 d) .log [] 0 (some (3 + n % 4)))

/-- A write of SC_STAT: latches clear only with EN = 0 and 10 ms after they were set (R185). -/
def State.scStatWrite (s : State) (n : Nat) (w : Word) : State :=
  let clr := fget w Fld.SC_STAT_LATCH &&& s.fld (SC_STAT n) Fld.SC_STAT_LATCH
  if clr = 0 then s
  else if s.en n || (List.range 4).any (fun k => nbit clr k && !s.due (.scLatch n k)) then s.refuse (srcId 0x09 n)
  else
    let left := s.fld (SC_STAT n) Fld.SC_STAT_LATCH &&& (15 ^^^ clr)
    let s := s.setFld (SC_STAT n) Fld.SC_STAT_LATCH left
    let s := s.each 4 fun s k => if nbit clr k then s.stopTimer (.scLatch n k) else s
    let s := if left = 0 then s.cease (srcId 0x08 (sddOf n)) (3 + n % 4) else s
    s.reRank n

/-- SC_LATCH_CLEAR. -/
def execScLatchClear (n : Fin 48) (w : Word) (s : State) : Host.Outcome State Fault Refusal :=
  .next (s.access (SC_STAT n) fun s => s.scStatWrite n w)

/-- SC_CFG: THR and BLANK within their ranges (R183). -/
def scCfgOk (w : Word) : Bool := fget w Fld.SC_CFG_THR ≤ 230 && fget w Fld.SC_CFG_BLANK ≤ 28

/-! ## Sensing configuration (R177) -/

/-- Writes of the offset and gain corrections, within their limits. -/
def State.ofsWrite (s : State) (n a : Nat) (w : Word) : State :=
  let v := sxt 24 w.toNat
  if -0x040000 ≤ v ∧ v ≤ 0x040000 then s.plainWrite a w else s.refuse (srcId 0x09 n)

def State.gcalWrite (s : State) (n a : Nat) (w : Word) : State :=
  let v := bits w.toNat 23 0
  if 0x380000 ≤ v ∧ v ≤ 0x480000 then s.plainWrite a w else s.refuse (srcId 0x09 n)

/-- A write of GATE_CFG: SLOT3_FN = 3 is refused, EXT is fixed on MX48-LA (R180, R188). -/
def State.gateCfgWrite (s : State) (n : Nat) (w : Word) : State :=
  if s.en n ∨ fget w Fld.GATE_CFG_SLOT3_FN = 3 then s.refuse (srcId 0x09 n)
  else
    let s := s.plainWrite (GATE_CFG n) w
    if s.part = .la48 then s.setFld (GATE_CFG n) Fld.GATE_CFG_EXT 1 else s

/-! ## Offset calibration (R186, R187) -/

/-- A write of SNS_CAL. -/
def State.snsCalWrite (s : State) (n : Nat) (w : Word) : State :=
  if fget w Fld.SNS_CAL_START = 0 then s.plainWrite (SNS_CAL n) w
  else if s.en n then s.setFld (SNS_CALSTAT n) Fld.SNS_CALSTAT_CODE 0x10
  else
    let s := s.plainWrite (SNS_CAL n) w
    let s := s.setFld (SNS_CALSTAT n) Fld.SNS_CALSTAT_CODE 1
    let s := s.setAx n { s.axAt n with calMask := s.fld (PWM_CTRL n) Fld.PWM_CTRL_SLOT_EN }
    s.startTimer (.calDecay n) (s.fld (SNS_CAL n) Fld.SNS_CAL_CAL_WAIT * 25000)

/-- CAL_START. -/
def execCalStart (n : Fin 48) (w : Word) (s : State) : Host.Outcome State Fault Refusal :=
  .next (s.access (SNS_CAL n) fun s => s.snsCalWrite n (fset w Fld.SNS_CAL_START 1))

/-- CAL_DECAY_END: CAL_WAIT × 100 µs have passed. -/
def execCalDecayEnd (n : Fin 48) (s : State) : Host.Outcome State Fault Refusal :=
  if s.fld (SNS_CALSTAT n) Fld.SNS_CALSTAT_CODE = 1 ∧ s.due (.calDecay n) then
    .next ((s.setFld (SNS_CALSTAT n) Fld.SNS_CALSTAT_CODE 2).stopTimer (.calDecay n))
  else .next s

/-- The new offset of a slot from the sum of its 256 conversions, or decimator outputs (R187). -/
def calOffset (sum : Int) : Int := sum * 1024 / 256

/-- An offset lies within its limits. -/
def calInRange (sum : Int) : Bool := decide (-0x040000 ≤ calOffset sum) && decide (calOffset sum ≤ 0x040000)

/-- CAL_MEASURE_END: the sums of the 256 conversions; `most` and `least` are the largest and the smallest SNS_PHV code over the
calibrated slots at the conversion that had the largest spread. A spread above CAL_VQ abandons the
calibration in both phases (R186). -/
def execCalMeasureEnd (n : Fin 48) (sums : List Int) (most least : Int) (s : State) : Host.Outcome State Fault Refusal :=
  let n := n.val
  let code := s.fld (SNS_CALSTAT n) Fld.SNS_CALSTAT_CODE
  let x := s.axAt n
  if code ≠ 1 ∧ code ≠ 2 then .next s
  else if ¬ s.extMode n ∧ ((s.fld (SNS_CAL n) Fld.SNS_CAL_CAL_VQ : Nat) : Int) < most - least then .next (s.calAbort n 0x11)
  else if code = 1 then .next s
  else if (List.range 4).any (fun k => nbit x.calMask k && !calInRange (vgetL sums 0 k)) then .next (s.calAbort n 0x13)
  else
    let s := s.each 4 fun s k =>
      if nbit x.calMask k then s.setReg (SNS_OFS n k) (BitVec.ofNat 32 (wrap 24 (calOffset (vgetL sums 0 k)))) else s
    .next (s.setFld (SNS_CALSTAT n) Fld.SNS_CALSTAT_CODE 3)

/-- The count change of a flight, saturated to ±255, reaches the SDD while a calibration runs (R186, R294). -/
def State.calCount (s : State) (n : Nat) (delta : Int) : State :=
  let cq := s.fld (SNS_CAL n) Fld.SNS_CAL_CAL_CQ
  if cq ≠ 255 ∧ cq < Nat.min delta.natAbs 255 then s.calAbort n 0x12 else s

/-! ## The fourth slot (R188 to R191) -/

/-- BRAKE_BLOCK_END: a block of 2^WIN carrier periods of the chopper is complete. -/
def execBrakeBlockEnd (n : Fin 48) (s : State) : Host.Outcome State Fault Refusal :=
  let n := n.val
  let x := s.axAt n
  let win := s.fld (BRK_LIM n) Fld.BRK_LIM_WIN
  if s.fld (GATE_CFG n) Fld.GATE_CFG_SLOT3_FN ≠ 1 ∨ x.brkN < 2 ^ win then .next s
  else
    let avg := x.brkSum / 2 ^ win / 2 ^ 7
    let past := s.fld (BRK_LIM n) Fld.BRK_LIM_AVG * 2 ^ 7 * 2 ^ win < x.brkSum
    let s := s.setFld (BRK_STAT n) Fld.BRK_STAT_LAST_AVG avg
    let s := s.setAx n { x with brkSum := 0, brkN := 0, brkOff := past }
    .next (if past then (s.setFld (BRK_STAT n) Fld.BRK_STAT_OL 1).logCorrected (srcId 0x09 n) else s)

/-- VBUS_OV: a VBUS conversion above the threshold. -/
def execVbusOv (d : Fin 12) (code : BitVec 12) (s : State) : Host.Outcome State Fault Refusal :=
  .next (if s.sddOn d then s.vbusConv d code.toNat else s)

/-- A write of HBRK_CTRL (R191). -/
def State.hbrkWrite (s : State) (n : Nat) (w : Word) : State :=
  let rel := fget w Fld.HBRK_CTRL_REL
  let was := s.fld (HBRK_CTRL n) Fld.HBRK_CTRL_REL
  if s.fld (GATE_CFG n) Fld.GATE_CFG_SLOT3_FN ≠ 2 then s.setFld (HBRK_CTRL n) Fld.HBRK_CTRL_REL rel
  else if rel = was then s
  else if rel = 0 then (s.engageBrake n).reRank n
  else
    let s := (s.setFld (HBRK_CTRL n) Fld.HBRK_CTRL_REL 1).setFld (HBRK_CTRL n) Fld.HBRK_CTRL_PULLING 1
    let s := s.startTimer (.pullIn n) (s.fld (HBRK_CFG n) Fld.HBRK_CFG_PULL_T * 25000)
    if s.slotRank n 3 < 5 then s.engageBrake n else s

/-- HBRK_REL_SET. -/
def execHbrkRelSet (n : Fin 48) (w : Word) (s : State) : Host.Outcome State Fault Refusal :=
  .next (s.access (HBRK_CTRL n) fun s => s.hbrkWrite n (fset w Fld.HBRK_CTRL_REL 1))

/-- HBRK_REL_CLEAR. -/
def execHbrkRelClear (n : Fin 48) (w : Word) (s : State) : Host.Outcome State Fault Refusal :=
  .next (s.access (HBRK_CTRL n) fun s => s.hbrkWrite n (fset w Fld.HBRK_CTRL_REL 0))

/-- PULL_IN_END: PULL_T has passed. -/
def execPullInEnd (n : Fin 48) (s : State) : Host.Outcome State Fault Refusal :=
  if s.due (.pullIn n) then .next ((s.setFld (HBRK_CTRL n) Fld.HBRK_CTRL_PULLING 0).stopTimer (.pullIn n)) else .next s

/-! ## STO inside the drivers (R192 to R194) -/

/-- A path of one die acts or is released: its status bit. -/
def State.stoDie (s : State) (d : Nat) (pathA on : Bool) : State :=
  s.setFld (SDD_STAT d) (if pathA then Fld.SDD_STAT_STOA_ACT else Fld.SDD_STAT_STOB_ACT) (b2n on)

/-- STO acts on channel `n`, or is released from it: rank 1 (R147), EN cleared (R194), a calibration abandoned (R187). -/
def State.stoChannel (s : State) (n : Nat) (on : Bool) : State :=
  let t := s
  let s := s.setFld (PWM_STAT n) Fld.PWM_STAT_STO (b2n on)
  if on then ((s.clearEn n).calAbort n 0x15).reRank n else (s.reRank n).switched t n

/-! ## Temperature (R195) -/

/-- 20 ms after TSD, or at 150 °C: the die's channels enter their safe states, as by the TSD fault. -/
def State.tsdAct (s : State) (d : Nat) : State :=
  let src := srcId 0x08 d
  let s := s.stopTimer (.tsd d)
  let pending := s.fc.pend.any fun p => p.src == src
  s.eachDieAxis d fun s n =>
    let s := s.safeEnter n (.collector src)
    if pending then s else s.safeCease n (.collector src)

/-- SDD_TEMP_SAMPLE, in 1/16 °C. -/
def execSddTempSample (d : Fin 12) (t : BitVec 16) (s : State) : Host.Outcome State Fault Refusal :=
  let d := d.val
  if !s.sddOn d then .next s
  else
    let v := t.toInt
    let x := s.sddAt d
    let s := s.setFld (SDD_TEMP d) Fld.SDD_TEMP_T t.toNat
    let warn := ((s.fld (SDD_THR d) Fld.SDD_THR_TWARN : Nat) : Int) * 16 < v
    let hot : Bool := 2240 ≤ v
    let s := s.setSdd d { x with twarnOn := warn, tsdOn := hot }
    let s := if warn ∧ ¬ x.twarnOn then (s.setFld (SDD_STAT d) Fld.SDD_STAT_TWARN 1).logCorrected (srcId 0x08 d) else s
    let s := if hot ∧ ¬ x.tsdOn then
        let s := s.setFld (SDD_STAT d) Fld.SDD_STAT_TSD 1
        (if s.timerOn (.tsd d) then s else s.startTimer (.tsd d) (20 * msTicks)).logContained (srcId 0x08 d) .axstop (dieAxes d) 0 (some 2)
      else if ¬ hot then s.cease (srcId 0x08 d) 2 else s
    .next (if 2400 ≤ v ∧ s.timerOn (.tsd d) then s.tsdAct d else s)

/-- TSD_TIMEOUT. -/
def execTsdTimeout (d : Fin 12) (s : State) : Host.Outcome State Fault Refusal :=
  .next (if s.due (.tsd d) then s.tsdAct d else s)

end Sys2Proof.Machine
end

