-- ==== Sys2Proof/Machine/Feedback.lean ====
section
/-! DEFINITION. Encoder ports (R278 to R301): counting, timed velocity, serial frames, angle and streams, faults, alignment. -/

namespace Sys2Proof.Machine
open Sys2Proof.Machine.Reg

/-! ## The port -/

def State.fbMode (s : State) (n : Nat) : Nat := s.fld (FB_CFG n) Fld.FB_CFG_MODE

/-- The port exists and its island is on. -/
def State.fbOn (s : State) (n : Nat) : Bool := decide (n < axisCount s.part) && s.domOn (domEn (n / 8))

/-- A counting mode: quadrature, Hall. -/
def quadMode (m : Nat) : Bool := m = 1 ∨ m = 2
def serialMode (m : Nat) : Bool := m = 4 ∨ m = 5

/-- FAULT, WAIT and SUSPECT of the group's register (EN_GSTAT). -/
def State.fbShow (s : State) (n : Nat) : State :=
  let a := EN_GSTAT (n / 8 * 8)
  let k := n % 8
  ((s.setFld a ⟨k, k⟩ (s.fld (FB_STAT n) Fld.FB_STAT_FAULT)).setFld a ⟨8 + k, 8 + k⟩ (s.fld (FB_STAT n) Fld.FB_STAT_WAIT)).setFld a
    ⟨16 + k, 16 + k⟩ (s.fld (FB_STAT n) Fld.FB_STAT_SUSPECT)

/-- Source of a port. -/
def fbSrc (n : Nat) : Nat := srcId 0x0A n

/-- The action in FBF_ACT (R159, R296). -/
def State.fbAction (s : State) (n cond : Nat) : State :=
  let src := fbSrc n
  match s.fld (FB_CFG n) Fld.FB_CFG_FBF_ACT with
  | 1 => s.logCorrected src
  | 2 => (s.stopSupervision n src).logContained src .log [] 0 (some cond)
  | 3 => s.logContained src .safepwm [n] 0 (some cond)
  | _ => s

/-- A condition has persisted (R295, R296): FAULT, SUSPECT (R297), the action once. -/
def State.fbFault (s : State) (n cond : Nat) : State :=
  let x := s.fbAt n
  if x.conds.contains cond then s
  else
    let first := x.conds.isEmpty
    let s := s.setFb n { x with conds := x.conds ++ [cond] }
    let s := s.setFld (FB_STAT n) Fld.FB_STAT_FAULT 1
    let s := if cond ≤ 3 then s.setFld (FB_STAT n) ⟨4 + cond, 4 + cond⟩ 1 else s
    let m := s.fbMode n
    let s := if (cond ≤ 2 ∨ cond = 4) ∧ 1 ≤ m ∧ m ≤ 3 then s.setFld (FB_STAT n) Fld.FB_STAT_SUSPECT 1 else s
    let s := (s.alEnd n 0x15).fbShow n
    if first then s.fbAction n cond else s

/-- COUNT changes; the alignment sees it. -/
def State.setCount (s : State) (n : Nat) (c : W64) : State :=
  let x := s.fbAt n
  s.setFb n { x with count := c, trace := if x.al = .idle then [] else x.trace ++ [(s.clock, c)] }

/-! ## Counting (R281, R282, R287) -/

/-- Place of a level pair in the up direction 00, 10, 11, 01. -/
def quadPlace (ab : BitVec 2) : Nat :=
  match ab.toNat with
  | 0 => 0 | 2 => 1 | 3 => 2 | _ => 3

/-- A line of the group failed calibration: TDC_OK is 0 for it, the other lines keep their taps (R328). -/
def State.encFailed (s : State) (n : Nat) : Bool :=
  s.psync.coarse.any fun l => match l with
    | .enc k => k.val / 8 == n / 8
    | _ => false

/-- A stamp as the port's delay line gives it (R326, R328): tick resolution before the calibration and for a line that failed it. -/
def State.encStamp (s : State) (n stamp : Nat) : Nat :=
  if (s.flag (EN_GSTAT (n / 8 * 8)) Fld.EN_GSTAT_TDC_OK || s.encFailed n) && !(s.psync.coarse.contains (.enc (Fin.ofNat 48 n))) then stamp
  else stamp / 64 * 64

/-- A legal transition: COUNT by ±1, the edge with its stamp. -/
def State.fbStep (s : State) (n : Nat) (up : Bool) (stamp : Nat) : State :=
  let x := s.fbAt n
  let s := s.setFb n { x with edges := x.edges ++ [{ stamp := s.encStamp n stamp, acc := s.time.line.toNat, up := up }] }
  let s := s.setFld (FB_STAT n) Fld.FB_STAT_DIR (b2n (!up))
  s.setCount n (if up then x.count + 1 else x.count - 1)

/-- An illegal transition: ILL_MAX of them in one block of flights are a fault. -/
def State.fbIllegal (s : State) (n stamp : Nat) : State :=
  let x := s.fbAt n
  let blk := s.tt.flightNo / 2 ^ s.fld (FB_LIM n) Fld.FB_LIM_ILL_WIN
  let k := if x.illBlk = blk then x.illN + 1 else 1
  let e : FbEdge := { stamp := s.encStamp n stamp, acc := s.time.line.toNat, up := false, ill := true }
  let s := s.setFb n { x with edges := x.edges ++ [e], ill := true, illBlk := blk, illN := k }
  let s := (s.setFld (FB_STAT n) Fld.FB_STAT_ILL_S 1).incFld (FB_ERRCNT n) Fld.FB_ERRCNT_ILL
  let lim := s.fld (FB_LIM n) Fld.FB_LIM_ILL_MAX
  if lim ≠ 0 ∧ lim ≤ k then s.fbFault n 4 else s

/-- ENCODER_EDGE: the decoder takes a new level pair with the stamp of its edge. -/
def execEncoderEdge (n : Fin 48) (ab : BitVec 2) (stamp : W64) (s : State) : Host.Outcome State Fault Refusal :=
  let n := n.val
  let x := s.fbAt n
  if !s.fbOn n || !quadMode (s.fbMode n) || x.ab == ab then .next s
  else
    let d := (quadPlace ab + 4 - quadPlace x.ab) % 4
    let s := s.setFb n { x with ab := ab }
    if d = 2 then .next (s.fbIllegal n stamp.toNat)
    else .next (s.fbStep n ((d == 1) != s.flag (FB_CFG n) Fld.FB_CFG_INV) stamp.toNat)

/-- INDEX_EVENT: Z rises; with ZQ_EN the pair must equal ZQ (R284). -/
def execIndexEvent (n : Fin 48) (s : State) : Host.Outcome State Fault Refusal :=
  let n := n.val
  let x := s.fbAt n
  if !s.fbOn n || !quadMode (s.fbMode n) then .next s
  else if s.flag (FB_CFG n) Fld.FB_CFG_ZQ_EN ∧ x.ab.toNat ≠ s.fld (FB_CFG n) Fld.FB_CFG_ZQ then .next s
  else .next ((s.setReg (FB_ZCNT n) (x.count.setWidth 32)).setFld (FB_STAT n) Fld.FB_STAT_ZSEEN 1)

/-- The sector of a Hall state; 7 is illegal, as is every value above 5. -/
def State.sector (s : State) (n : Nat) (h : BitVec 3) : Option Nat :=
  let k := bits (s.fld (FB_HALL n) Fld.FB_HALL_HMAP) (3 * h.toNat + 2) (3 * h.toNat)
  if k ≤ 5 then some k else none

/-- HALL_CHANGE: a filtered Hall state. In MODE 3 sector changes count (R287). -/
def execHallChange (n : Fin 48) (h : BitVec 3) (stamp : W64) (s : State) : Host.Outcome State Fault Refusal :=
  let n := n.val
  let x := s.fbAt n
  let m := s.fbMode n
  if !s.fbOn n || (m != 2 && m != 3) || x.hall == h then .next s
  else
    let s := (s.setFb n { x with hall := h }).setFld (FB_ANG n) Fld.FB_ANG_HSTATE h.toNat
    if m ≠ 3 then .next s
    else match s.sector n x.hall, s.sector n h with
      | some a, some b =>
        let inv := s.flag (FB_CFG n) Fld.FB_CFG_INV
        if b = (a + 1) % 6 then .next (s.fbStep n (!inv) stamp.toNat)
        else if a = (b + 1) % 6 then .next (s.fbStep n inv stamp.toNat)
        else if a = b then .next s else .next (s.fbIllegal n stamp.toNat)
      | _, _ => .next (s.fbIllegal n stamp.toNat)

/-! ## The sampling instant (R283, R285, R291, R293, R294) -/

/-- 62.5 ps units in a second. -/
def unitHz : Nat := 16000000000

/-- The sampling instant of the flight in progress, in line time. -/
def State.fbInstant (s : State) (n : Nat) : Nat :=
  (s.tt.flightNo * s.grid.1 + s.grid.2.1) * 64 + s.fld (FB_TIME n) Fld.FB_TIME_SI

/-- What the edges up to an instant give: no legal edge since the last illegal transition, B, NB, E1, and whether a reversal lies among
them. -/
structure TimedRun where
  fresh : Bool
  tB    : Nat
  nb    : Nat
  e1    : Option (Nat × Bool)
  rev   : Bool

/-- An edge whose direction differs from that of the edge before it. -/
def TimedRun.turns (r : TimedRun) (e : FbEdge) : Bool :=
  match r.e1 with
  | some (_, up) => up != e.up
  | none => false

/-- The first legal edge after an illegal transition and a reversal edge become B; every other one counts. -/
def TimedRun.take (r : TimedRun) (e : FbEdge) : TimedRun :=
  if e.ill then { r with fresh := true }
  else if r.fresh || r.turns e then { fresh := false, tB := e.stamp, nb := 0, e1 := some (e.stamp, e.up), rev := r.rev || r.turns e }
  else { r with nb := r.nb + 1, e1 := some (e.stamp, e.up) }

/-- The edge counts at instant `t`: it is stamped by `t` and accepted by `t` + 60 ns (R285). -/
def FbEdge.counts (e : FbEdge) (t : Nat) : Bool := decide (e.stamp ≤ t) && decide (e.acc ≤ t + 960)

/-- The timed velocity at instant `t` (R285): the port, NE and REV. -/
def State.fbTimed (s : State) (n t : Nat) (x : Fb) : Fb × Nat × Bool :=
  let used := x.edges.filter (·.counts t)
  let r := used.foldl TimedRun.take { fresh := x.fresh, tB := (x.e1.map (·.1)).getD 0, nb := 0, e1 := x.e1, rev := false }
  let x : Fb := { x with edges := x.edges.filter fun e => !e.counts t, past := used, e0 := x.e1, e1 := r.e1, fresh := r.fresh }
  let x : Fb := { x with inst := t, tv0 := x.tv, vt0 := x.vt }
  match r.e1 with
  | none => ({ x with tv := false }, 0, false)
  | some (t1, up) =>
    let sg : Int := if up then 1 else -1
    let x : Fb := { x with tB := t1 }
    if r.fresh then ({ x with tv := false }, 0, r.rev)
    else if used.any (!·.ill) then
      if r.nb = 0 then ({ x with tv := false }, 0, r.rev)
      else
        let dt := Nat.max 1 (t1 - r.tB)
        ({ x with tv := true, vt := sg * (r.nb * 2 ^ 32 * unitHz / dt : Nat), dlTime := dt, dlN := r.nb }, Nat.min r.nb 255, r.rev)
    else
      let max := Nat.max 1 (s.fld (FB_TIME n) Fld.FB_TIME_TV_MAX) * 1600000
      if max ≤ t - t1 then ({ x with vt := 0, tv := true }, 0, r.rev)
      else if x.tv && decide (x.dlTime < (t - t1) * x.dlN) then ({ x with vt := sg * (2 ^ 32 * unitHz / Nat.max 1 (t - t1) : Nat) }, 0, r.rev)
      else (x, 0, r.rev)

/-- COUNT less the legal edges of a list. -/
def Fb.less (x : Fb) (l : List FbEdge) : W64 :=
  x.count - BitVec.ofInt 64 ((l.filter (!·.ill)).foldl (fun (c : Int) e => if e.up then c + 1 else c - 1) 0)

/-- The port with COUNT as the sampling instant sees it: the edges that do not count yet are not in it (R283, R285, R293). -/
def Fb.seen (x : Fb) : Fb := { x with count := x.less x.edges }

/-- The port as it was at stamp `t`: the edges stamped at or before it, the velocity in force then (R283, R320). -/
def Fb.asAt (x : Fb) (t : Nat) : Fb :=
  let x : Fb := if t < x.inst then { x with tv := x.tv0, vt := x.vt0 } else x
  let l := (x.past ++ x.edges).filter (!·.ill)
  let e1 := match (l.filter (·.stamp ≤ t)).getLast? with
    | some e => some (e.stamp, e.up)
    | none => if x.past.any (!·.ill) then x.e0 else x.e1
  { x with count := x.less (l.filter (t < ·.stamp)), e1 := e1 }

/-- The signed fraction that P carries beyond COUNT + OFS, in 2^−32 counts. -/
def State.fbFrac (s : State) (n t : Nat) (x : Fb) : Int :=
  if serialMode (s.fbMode n) then
    match x.c0, x.c1 with
    | some (a, ta), some (b, tb) =>
      if tb = ta then 0 else Int.fdiv ((b.toInt - a.toInt) * 2 ^ 32 * ((t : Int) - tb)) ((tb : Int) - ta)
    | _, _ => 0
  else
    match x.e1 with
    | some (t1, up) =>
      if s.flag (FB_CFG n) Fld.FB_CFG_INTERP ∧ x.tv then
        let f := Nat.min (x.vt.natAbs * (t - t1) / unitHz) 0xFFFF0000
        if up then f else -f
      else 0
    | none => 0

/-- The position at an instant. -/
def Fb.pos (x : Fb) (frac : Int) : W64 := BitVec.ofInt 64 ((x.count.toInt + x.ofs.toInt) * 2 ^ 32 + frac)

/-- RES (R293). -/
def State.fbRes (s : State) (n : Nat) (x : Fb) : Nat := (x.count.toInt % (Nat.max 1 (s.reg (FB_CPR n)).toNat : Nat)).toNat

/-- The electrical angle, none where it is invalid (R293). -/
def State.fbAngle (s : State) (n : Nat) (x : Fb) (frac : Int) : Option D24 :=
  let m := s.fbMode n
  if m = 3 ∨ s.flag (FB_CFG n) Fld.FB_CFG_ASRC then
    (s.sector n x.hall).map fun k => BitVec.ofNat 24 ((2 * k + 1) * 2 ^ 24 / 12)
  else
    let w := Nat.max 1 (s.reg (FB_CPR n)).toNat * 2 ^ 32
    let xf := (((s.fbRes n x : Int) * 2 ^ 32 + frac) % (w : Int)).toNat
    some (BitVec.ofNat 24 (xf * s.fld (FB_EL n) Fld.FB_EL_PP % w * 2 ^ 24 / w))

/-- The port may send (R294). -/
def State.fbSends (s : State) (n : Nat) (x : Fb) : Bool :=
  s.fbMode n != 0 && x.conds.isEmpty && !s.flag (FB_STAT n) Fld.FB_STAT_WAIT && (!serialMode (s.fbMode n) || x.c1.isSome)

/-- ENCODER_SAMPLING_INSTANT. -/
def execEncoderSamplingInstant (n : Fin 48) (s : State) : Host.Outcome State Fault Refusal :=
  let n := n.val
  if !s.fbOn n || s.fbMode n == 0 then .next s
  else
    let t := s.fbInstant n
    let x := s.fbAt n
    let r := if serialMode (s.fbMode n) then ({ x with tv := false, edges := [] }, 0, false) else s.fbTimed n t x
    let x := r.1
    let frac := s.fbFrac n t x
    let y := x.seen
    let ang := match x.forced with
      | some f => some f
      | none => s.fbAngle n y frac
    let ts := b2n x.tv + 2 * b2n r.2.2 + 4 * b2n x.ill + 256 * r.2.1
    let on := s.fbSends n x
    let out : FbOut := if on then { angle := ang, pos := some (y.pos frac), vt := some (BitVec.ofInt 64 x.vt), ts := some (BitVec.ofNat 24 ts) }
      else { angle := x.forced }
    let s := s.setFb n { x with out := out, ill := false }
    let s := s.setFld (FB_STAT n) Fld.FB_STAT_TV (b2n x.tv)
    .next (match out.angle with
      | some a => s.setFld (FB_ANG n) Fld.FB_ANG_ANGLE a.toNat
      | none => s)

/-! ## Serial frames (R288 to R292) -/

/-- A frame is discarded: SER_T in a row are a fault. -/
def State.fbDiscard (s : State) (n : Nat) : State :=
  let x := s.fbAt n
  let s := s.setFb n { x with frame := none, bad := x.bad + 1, endAt := s.clock }
  let s := (s.setFld (FB_STAT n) Fld.FB_STAT_SER 1).incFld (FB_ERRCNT n) Fld.FB_ERRCNT_SER
  if Nat.max 1 (s.fld (FB_SER2 n) Fld.FB_SER2_SER_T) ≤ x.bad + 1 then s.fbFault n 5 else s

/-- SERIAL_FRAME_START: every EVM1 + 1 flights; not within TM µs of the last end; a frame not ended is a timeout and the start is
skipped. -/
def execSerialFrameStart (n : Fin 48) (s : State) : Host.Outcome State Fault Refusal :=
  let n := n.val
  let x := s.fbAt n
  if !s.fbOn n || !serialMode (s.fbMode n) || s.tt.flightNo % (s.fld (FB_SER n) Fld.FB_SER_EVM1 + 1) != 0 then .next s
  else if x.frame.isSome then .next (s.fbDiscard n)
  else if s.clock < x.endAt + s.fld (FB_SER2 n) Fld.FB_SER2_TM * usTicks ∧ x.endAt ≠ 0 then .next s
  else .next (s.setFb n { x with frame := some (s.fbInstant n) })

/-- One bit of the CRC-8 of R290. -/
def crc8Bit (c : Nat) (b : Bool) : Nat :=
  let t := c.testBit 7 != b
  let c' := c * 2 % 256
  if t then c' ^^^ 0x07 else c'

/-- The check over LEN data bits, ERR and WRN. -/
def crc8 (len data : Nat) (err wrn : Bool) : Nat :=
  let l := (List.range len).map fun k => data.testBit (len - 1 - k)
  (l ++ [err, wrn]).foldl crc8Bit 0xFF

/-- Gray to binary over `len` bits. -/
def ungray (len g : Nat) : Nat :=
  ((List.range len).foldl (fun (a : Nat × Bool) k =>
    let b := g.testBit (len - 1 - k) != a.2
    (2 * a.1 + b2n b, b)) (0, false)).1

/-- SERIAL_FRAME_END: checks, then COUNT by the signed change (R291, R292). -/
def execSerialFrameEnd (n : Fin 48) (f : SerialFrame) (s : State) : Host.Outcome State Fault Refusal :=
  let n := n.val
  let x := s.fbAt n
  let m := s.fbMode n
  match (if s.fbOn n && serialMode m then x.frame else none) with
  | none => .next s
  | some t =>
    let len := s.fld (FB_SER n) Fld.FB_SER_LEN
    let raw := f.data.toNat % 2 ^ len
    let v := if m = 4 ∧ s.flag (FB_SER n) Fld.FB_SER_GRAY then ungray len raw else raw
    let bad := !f.idle || (m == 5 && (!f.preamble || f.err || f.check.toNat != crc8 len raw f.err f.wrn))
    let d : Int := sxt len (v + 2 ^ len - (x.data.getD 0) % 2 ^ len)
    let far : Bool := x.data.isSome && decide ((s.reg (FB_JMAX n)).toNat < d.natAbs)
    if bad || (far && !x.anyD) then .next (s.fbDiscard n)
    else
      let c : W64 := if x.data.isNone then BitVec.ofNat 64 v else x.count + BitVec.ofInt 64 d
      let s := if m = 5 ∧ f.wrn then s.setFld (FB_STAT n) Fld.FB_STAT_WRN 1 else s
      let s := if far then (s.setFld (FB_STAT n) Fld.FB_STAT_SUSPECT 1).fbShow n else s
      let s := s.setFb n { x with frame := none, data := some v, bad := 0, anyD := false, c0 := x.c1, c1 := some (c, t), endAt := s.clock }
      .next (s.setCount n c)

/-! ## Faults (R295 to R297) -/

def condNo : CableCond → Nat
  | .loss => 0 | .eq => 1 | .cm => 2 | .hill => 3 | .illegal => 4 | .serial => 5

/-- Pairs that the mode checks. -/
def State.fbPairs (s : State) (n : Nat) : Nat :=
  match s.fbMode n with
  | 1 => 3 + 4 * s.fld (FB_CFG n) Fld.FB_CFG_ZCHK
  | 2 => 3 + 4 * s.fld (FB_CFG n) Fld.FB_CFG_ZCHK
  | 4 => 1
  | 5 => 1
  | _ => 0

/-- CABLE_FAULT: a condition has persisted for its time. -/
def execCableFault (n : Fin 48) (c : CableCond) (pairs : BitVec 3) (s : State) : Host.Outcome State Fault Refusal :=
  let n := n.val
  let m := s.fbMode n
  if !s.fbOn n then .next s
  else match c with
    | .hill => if m = 2 ∨ m = 3 then .next (s.fbFault n 3) else .next s
    | .illegal => .next s
    | .serial => .next s
    | c =>
      let hit := pairs.toNat &&& s.fbPairs n
      if hit = 0 then .next s
      else .next ((s.setFld (FB_STAT n) Fld.FB_STAT_PAIRS hit).fbFault n (condNo c))

/-- The streams resume: in a serial mode the next valid frame is taken with any change (R297). -/
def State.fbResume (s : State) (n : Nat) : State :=
  if serialMode (s.fbMode n) then s.setFb n { s.fbAt n with anyD := true } else s

/-- FAULT_CLEAR: a condition has been absent for one persistence time. -/
def execFaultClear (n : Fin 48) (c : CableCond) (s : State) : Host.Outcome State Fault Refusal :=
  let n := n.val
  let x := s.fbAt n
  let k := condNo c
  if !s.fbOn n || !x.conds.contains k then .next s
  else
    let left := x.conds.filter (· != k)
    let s := s.setFb n { x with conds := left, bad := if k = 5 then 0 else x.bad, illN := if k = 4 then 0 else x.illN }
    let s := s.cease (fbSrc n) k
    if left.isEmpty then
      let s := s.setFld (FB_STAT n) Fld.FB_STAT_FAULT 0
      let s := if s.flag (FB_CFG n) Fld.FB_CFG_AUTO_RES then s.fbResume n else s.setFld (FB_STAT n) Fld.FB_STAT_WAIT 1
      .next (s.fbShow n)
    else .next s

/-! ## Register writes (R278, R279) -/

/-- FB configuration may not be written: EN is 1 or an alignment is past IDLE. -/
def State.fbLocked (s : State) (n : Nat) : Bool := s.en n || (s.fbAt n).al != .idle

/-- The port after an accepted write of MODE. -/
def State.fbReset (s : State) (n : Nat) : State :=
  let x := s.fbAt n
  let s := x.conds.foldl (fun s c => s.cease (fbSrc n) c) s
  let s := s.setFb n { ({} : Fb) with ofs := x.ofs, ofsNew := x.ofsNew, ab := x.ab, hall := x.hall }
  (((s.setFld (FB_STAT n) Fld.FB_STAT_FAULT 0).setFld (FB_STAT n) Fld.FB_STAT_WAIT 0).setFld (FB_STAT n) Fld.FB_STAT_TV 0).fbShow n

/-- A write of FB_CFG. -/
def State.fbCfgWrite (s : State) (n : Nat) (w : Word) : State :=
  if s.fbLocked n ∨ 6 ≤ fget w Fld.FB_CFG_MODE then s.refuse (fbSrc n)
  else (s.plainWrite (FB_CFG n) w).fbReset n

/-- A write of FB_SER, FB_SER2, FB_CPR, FB_EL, FB_HALL or FB_TIME. -/
def State.fbSetWrite (s : State) (n a : Nat) (w : Word) : State :=
  if s.fbLocked n ∨ (a = FB_CPR n ∧ w.toNat < 2) ∨ (a = FB_EL n ∧ (fget w Fld.FB_EL_PP = 0 ∨ 64 < fget w Fld.FB_EL_PP)) then s.refuse (fbSrc n)
  else s.plainWrite a w

/-- FB_MODE_WRITE. -/
def execFbModeWrite (n : Fin 48) (w : Word) (s : State) : Host.Outcome State Fault Refusal :=
  .next (s.access (FB_CFG n) fun s => s.fbCfgWrite n w)

/-! ## Alignment (R300, R301) -/

def State.setAl (s : State) (n : Nat) (st : AlSt) (code : Nat) : State :=
  (s.setFb n { s.fbAt n with al := st }).setFld (FB_ALSTAT n) Fld.FB_ALSTAT_CODE code

/-- The streamed angle is forced. -/
def State.alForce (s : State) (n : Nat) (v : D24) : State :=
  (s.setFb n { s.fbAt n with forced := some v }).setFld (FB_ANG n) Fld.FB_ANG_FORCED 1

/-- Window of rest, in ticks. -/
def State.restTicks (s : State) (n : Nat) : Nat := Nat.max 1 (s.fld (FB_ALCFG n) Fld.FB_ALCFG_REST_T) * 25000

def State.settleTicks (s : State) (n : Nat) : Nat := Nat.max 1 (s.fld (FB_ALCFG n) Fld.FB_ALCFG_SETTLE) * (10 * msTicks)

/-- At rest: COUNT changed by at most REST_CQ over the window. -/
def State.atRest (s : State) (n : Nat) : Bool :=
  let x := s.fbAt n
  let from_ := s.clock - s.restTicks n
  let old := ((x.trace.filter (·.1 ≤ from_)).getLast?.map (·.2)).toList
  let l := (old ++ (x.trace.filter (from_ < ·.1)).map (·.2) ++ [x.count]).map BitVec.toInt
  l.all fun a => l.all fun b => decide ((a - b).natAbs ≤ s.fld (FB_ALCFG n) Fld.FB_ALCFG_REST_CQ)

/-- AL_START: REST, or refused with code 0x10. -/
def State.alBegin (s : State) (n : Nat) : State :=
  let x := s.fbAt n
  let m := s.fbMode n
  let ok := (quadMode m || serialMode m) && !s.flag (FB_CFG n) Fld.FB_CFG_ASRC && s.en n && !s.flag (FB_STAT n) Fld.FB_STAT_FAULT &&
    !s.flag (FB_STAT n) Fld.FB_STAT_WAIT && !s.flag (FB_STAT n) Fld.FB_STAT_SUSPECT
  if x.al ≠ .idle then s
  else if ok then
    let s := s.setAl n .rest 0x01
    let s := s.setFb n { s.fbAt n with trace := [(s.clock, x.count)] }
    s.startTimer (.alRest n) (s.restTicks n)
  else s.setAl n .idle 0x10

/-- AL_GO in ARMED. -/
def State.alSettle (s : State) (n : Nat) : State :=
  if (s.fbAt n).al = .armed then (s.setAl n .settle0 0x04).startTimer (.alSettle n) (s.settleTicks n) else s

/-- AL_END in HOLDING: the code stays. -/
def State.alRelease (s : State) (n : Nat) : State :=
  let x := s.fbAt n
  if x.al = .holding then (s.setFb n { x with al := .idle, forced := none, trace := [] }).setFld (FB_ANG n) Fld.FB_ANG_FORCED 0 else s

/-- AL_ABORT. -/
def State.alStop (s : State) (n : Nat) : State :=
  match (s.fbAt n).al with
  | .idle => s
  | .holding => s
  | .rest => s.alEnd n 0x14
  | _ => (s.setAl n .holding 0x14).stopTimer (.alSettle n)

/-- A write of FB_CTRL; RESUME while FAULT is 1 is refused (R296). -/
def State.fbCtrlWrite (s : State) (n : Nat) (w : Word) : State :=
  if fget w Fld.FB_CTRL_RESUME = 1 ∧ s.flag (FB_STAT n) Fld.FB_STAT_FAULT then s.busErr
  else
    let s := if fget w Fld.FB_CTRL_RESUME = 1 ∧ s.flag (FB_STAT n) Fld.FB_STAT_WAIT then
        ((s.fbResume n).setFld (FB_STAT n) Fld.FB_STAT_WAIT 0).fbShow n else s
    let s := if fget w Fld.FB_CTRL_AL_START = 1 then s.alBegin n else s
    let s := if fget w Fld.FB_CTRL_AL_GO = 1 then s.alSettle n else s
    let s := if fget w Fld.FB_CTRL_AL_END = 1 then s.alRelease n else s
    if fget w Fld.FB_CTRL_AL_ABORT = 1 then s.alStop n else s

/-- A write of FB_CTRL with one of its bits set. -/
def State.fbCtrl (s : State) (n : Nat) (w : Word) (f : Fld) : State := s.access (FB_CTRL n) fun s => s.fbCtrlWrite n (fset w f 1)

def execResume (n : Fin 48) (w : Word) (s : State) : Host.Outcome State Fault Refusal := .next (s.fbCtrl n w Fld.FB_CTRL_RESUME)
def execAlStart (n : Fin 48) (w : Word) (s : State) : Host.Outcome State Fault Refusal := .next (s.fbCtrl n w Fld.FB_CTRL_AL_START)
def execAlGo (n : Fin 48) (w : Word) (s : State) : Host.Outcome State Fault Refusal := .next (s.fbCtrl n w Fld.FB_CTRL_AL_GO)
def execAlEnd (n : Fin 48) (w : Word) (s : State) : Host.Outcome State Fault Refusal := .next (s.fbCtrl n w Fld.FB_CTRL_AL_END)
def execAlAbort (n : Fin 48) (w : Word) (s : State) : Host.Outcome State Fault Refusal := .next (s.fbCtrl n w Fld.FB_CTRL_AL_ABORT)

/-- ALIGN_REST_END: the rest window of REST ends. -/
def execAlignRestEnd (n : Fin 48) (s : State) : Host.Outcome State Fault Refusal :=
  let n := n.val
  if !s.due (.alRest n) || (s.fbAt n).al != .rest then .next s
  else
    let s := s.stopTimer (.alRest n)
    if s.atRest n then .next ((s.setAl n .armed 0x02).alForce n 0) else .next (s.alEnd n 0x11)

/-- The angle of R293 now. -/
def State.angleNow (s : State) (n : Nat) : D24 :=
  let t := s.time.line.toNat
  let x := (s.fbAt n).asAt t
  (s.fbAngle n x (s.fbFrac n t x)).getD 0

/-- The evaluation of R301. -/
def State.alEvaluate (s : State) (n : Nat) (th1 th2 : D24) : State :=
  let d := (th2 - th1).toInt
  if s.fld (FB_ALCFG n) Fld.FB_ALCFG_TOL * 65536 < (d - 4194304).natAbs then s.setAl n .holding 0x13
  else
    let th := wrap 24 (16777216 - (th1.toNat : Int) + asr (4194304 - d) 1)
    (s.setAl n .holding 0x03).setFld (FB_ALSTAT n) Fld.FB_ALSTAT_THETA th

/-- ALIGN_SETTLE_END: the settling time of SETTLE_0 or SETTLE_1 ends. -/
def execAlignSettleEnd (n : Fin 48) (s : State) : Host.Outcome State Fault Refusal :=
  let n := n.val
  let x := s.fbAt n
  if !s.due (.alSettle n) || (x.al != .settle0 && x.al != .settle1) then .next s
  else
    let s := s.stopTimer (.alSettle n)
    if !s.atRest n then .next (s.setAl n .holding 0x12)
    else if x.al = .settle0 then
      let s := s.setFb n { x with thm1 := s.angleNow n }
      .next (((s.setAl n .settle1 0x05).alForce n 0x400000).startTimer (.alSettle n) (s.settleTicks n))
    else .next (s.alEvaluate n x.thm1 (s.angleNow n))

/-! ## Offset and count -/

/-- FB_OFS pairs: refused while EN is 1; completing HI applies both at the next flight boundary (R283). -/
def State.ofsApply (s : State) (n a : Nat) (w : Word) : State :=
  let s := s.setReg a w
  if a = FB_OFS_HI n then
    s.setFb n { s.fbAt n with ofsNew := some (BitVec.ofNat 64 ((s.reg (FB_OFS_LO n)).toNat + 2 ^ 32 * w.toNat)) }
  else s

/-- A flight boundary: a new offset takes effect; the count change over the flight that ended goes to the SDD (R294). -/
def State.fbBoundary (s : State) (n : Nat) : State :=
  let x := s.fbAt n
  let x : Fb := match x.ofsNew with
    | some o => { x with ofs := o, ofsNew := none }
    | none => x
  let delta := (x.count - x.count0).toInt
  let s := s.setFb n { x with count0 := x.count }
  if s.fbOn n then s.calCount n delta else s

/-- FB_COUNT_LO: the read latches FB_COUNT_HI for the initiator. -/
def State.fbCountRead (s : State) (i : Initiator) (n : Nat) : State :=
  let c := (s.fbAt n).count
  let s : State := { s with hiLatch := Tbl.put 0 s.hiLatch (2 ^ 32 * initNo i + FB_COUNT_HI n) ((c >>> 32).setWidth 32) }
  s.answer (.data (c.setWidth 32))

def execFbCountLo (i : Initiator) (n : Fin 48) (s : State) : Host.Outcome State Fault Refusal :=
  if !blockPresent s.part (FB_COUNT_LO n) then .next s.busErr
  else if !s.reachable (FB_COUNT_LO n) then .next (s.answer (.data 0))
  else .next (s.fbCountRead i n)

end Sys2Proof.Machine
end

