-- ==== Sys2Proof/Machine/PrintSync.lean ====
section
/-! DEFINITION. Print triggers, encoder emulation, latches, interval units and delay-line calibration (R302 to R330). -/

namespace Sys2Proof.Machine
open Sys2Proof.Machine.Reg

def psSrc : Nat := srcId 0x0B 0

/-- The PS domain is on and its island's clock runs. -/
def State.psOn (s : State) : Bool := s.domOn domPS && !s.fc.stopped.contains domPS

def State.trgAt (s : State) (n : Nat) : Trg := vget s.psync.trg {} n
def State.setTrg (s : State) (n : Nat) (x : Trg) : State := s.modPs fun p => { p with trg := p.trg.setIfInBounds n x }
def State.emuAt (s : State) (e : Nat) : Emu := vget s.psync.emu {} e
def State.setEmu (s : State) (e : Nat) (x : Emu) : State := s.modPs fun p => { p with emu := p.emu.setIfInBounds e x }
def State.latAt (s : State) (n : Nat) : Lat := vget s.psync.lat {} n
def State.setLat (s : State) (n : Nat) (x : Lat) : State := s.modPs fun p => { p with lat := p.lat.setIfInBounds n x }
def State.timAt (s : State) (m : Nat) : Tim := vget s.psync.tim {} m
def State.setTim (s : State) (m : Nat) (x : Tim) : State := s.modPs fun p => { p with tim := p.tim.setIfInBounds m x }

/-- A source number names a source of the ordering code (R302). -/
def srcExists (p : Part) (k : Nat) : Bool := k < axisCount p || 48 ≤ k

/-- A 64-bit value in two registers. -/
def State.pair64 (s : State) (lo hi : Nat) : W64 := BitVec.ofNat 64 ((s.reg lo).toNat + 2 ^ 32 * (s.reg hi).toNat)

/-- The line works without calibrated taps (R326, R328). -/
def State.tapsOff (s : State) (l : DelayLine) : Bool := !s.flag PS_STAT Fld.PS_STAT_CAL_DONE || s.psync.coarse.contains l

/-! ## The position model (R303 to R305) -/

/-- The distance that the model travels by instant `t`, times `den`. -/
def PsModel.num (m : PsModel) (t : Int) : Int :=
  let d := t - m.t0
  if d ≤ m.ts then m.c1 * d + m.c2 * d * d else m.c1 * d + m.c2 * m.ts * (2 * d - m.ts)

/-- M(t) − X, times `den`: its sign is exact (R305). -/
def PsModel.diff (m : PsModel) (x : W64) (t : Int) : Int := m.den * (m.p - x).toInt + m.num t

/-- M(t), truncated to Q32.32. -/
def PsModel.at (m : PsModel) (t : Int) : W64 := m.p + BitVec.ofInt 64 (m.num t / m.den)

/-- The last grid point of [lo, hi) at which `p` holds, where `p` holds at `lo` and, once false, stays false. -/
def lastTrue (p : Int → Bool) : Nat → Int → Int → Int
  | 0, lo, _ => lo
  | f + 1, lo, hi =>
    if hi ≤ lo + 1 then lo
    else
      let m := (lo + hi) / 2
      if p m then lastTrue p f m hi else lastTrue p f lo m

/-- A sorted insertion. -/
def insertI (x : Int) : List Int → List Int
  | [] => [x]
  | y :: t => if x ≤ y then x :: y :: t else y :: insertI x t

/-- Stretches of [lo, hi] on which the model is monotone, but for the one grid step that holds its turning point. -/
def PsModel.pieces (m : PsModel) (lo hi : Int) : List (Int × Int) :=
  let v := if m.c2 = 0 then lo else m.t0 + Int.fdiv (-m.c1) (2 * m.c2)
  let cuts := ([v, v + 1, m.t0 + m.ts].filter fun c => decide (lo < c) && decide (c < hi)).foldl (fun l c => insertI c l) []
  let l := [lo] ++ cuts ++ [hi]
  l.zip (l.drop 1)

/-- The slope of the model at a grid point, and its bend before and after it: the quadratic part ends at `ts`. -/
def PsModel.slope (m : PsModel) (t : Int) : Int := m.c1 + 2 * m.c2 * (if t - m.t0 ≤ m.ts then t - m.t0 else m.ts)

/-- The sign of M − X just before and just after a grid point at which it is 0. -/
def PsModel.before (m : PsModel) (t : Int) : Int :=
  if m.slope t ≠ 0 then -(m.slope t).sign else if t - m.t0 ≤ m.ts then m.c2.sign else 0
def PsModel.after (m : PsModel) (t : Int) : Int :=
  if m.slope t ≠ 0 then (m.slope t).sign else if t - m.t0 < m.ts then m.c2.sign else 0

/-- The sign of M − X at the turning point of the quadratic part. -/
def PsModel.turn (m : PsModel) (x : W64) : Int := (4 * m.c2 * (m.den * (m.p - x).toInt) - m.c1 ^ 2).sign * m.c2.sign

/-- The quadratic part turns between two neighbouring grid points. -/
def PsModel.turnsIn (m : PsModel) (q : Int × Int) : Bool :=
  decide (q.2 = q.1 + 1 ∧ q.2 - m.t0 ≤ m.ts ∧ (m.slope q.1).sign * (m.slope q.2).sign = -1)

/-- The last grid point at or before the first crossing of X in [lo, hi), in the directions that count (R309, R310). An upward crossing
is the first instant of zero or above after negative values, a downward one the first instant below zero after others. -/
def PsModel.cross (m : PsModel) (x : W64) (up down : Bool) (lo hi : Int) : Option Int :=
  (m.pieces lo hi).findSome? fun q =>
    let a := m.diff x q.1
    let b := m.diff x q.2
    if a = 0 ∧ (up ∧ m.before q.1 < 0 ∨ down ∧ m.after q.1 < 0) then some q.1
    else if m.turnsIn q then
      if (up ∧ (a < 0 ∧ 0 ≤ m.turn x ∨ m.turn x < 0 ∧ 0 < b)) ∨ (down ∧ (0 < a ∧ m.turn x < 0 ∨ 0 ≤ m.turn x ∧ b < 0)) then some q.1 else none
    else if up ∧ a < 0 ∧ 0 < b then some (lastTrue (fun t => m.diff x t ≤ 0) 80 q.1 q.2)
    else if down ∧ 0 < a ∧ b < 0 then some (lastTrue (fun t => 0 ≤ m.diff x t) 80 q.1 q.2)
    else none

/-- X was crossed before `lo`, as the motion at `lo` shows. -/
def PsModel.passed (m : PsModel) (x : W64) (up down : Bool) (lo : Int) : Bool :=
  let v := m.num (lo + 1) - m.num lo
  let a := m.diff x lo
  (up && decide (0 < v) && decide (0 < a)) || (down && decide (v < 0) && decide (a < 0))

/-- The boundary of flight `f`, in line time (R34). -/
def State.boundaryOf (s : State) (f : Nat) : Int := ((f * s.grid.1 + s.grid.2.1) * 64 : Nat)

/-- What port 30 received in this flight. -/
def State.psInput (s : State) (k : Nat) : Option W64 :=
  (s.tow.inbox.find? fun e => e.1 == 2 ^ 24 * 30 + k && e.2.2 == s.tt.flightNo).map fun e => e.2.1

/-- The model of a source from the values of this flight, none where it is invalid (R302 to R304). -/
def State.modelOf (s : State) (r : PsRoute) : Option PsModel :=
  let f := s.tt.flightNo
  let len : Nat := s.grid.1 * 64
  let k := r.src.val
  if k < 48 then
    if axisCount s.part ≤ k then none
    else
      let t0 := s.boundaryOf f + s.fld (FB_TIME k) Fld.FB_TIME_SI
      match s.psInput r.p, s.psInput r.t with
      | some p, some t =>
        if t.getLsbD 0 then (s.psInput r.v).map fun v => { p := p, t0 := t0, c1 := v.toInt, den := unitHz }
        else (s.psync.prevP.find? fun e => e.1 == k && e.2.1 + 1 == f).map fun e =>
          { p := p, t0 := t0, c1 := (p - e.2.2).toInt, den := len }
      | _, _ => none
  else
    match s.psInput r.p, s.psInput r.v, s.psInput r.t with
    | some p, some va, some fx =>
      let n := (f + 2 ^ 32 - fx.toNat % 2 ^ 32) % 2 ^ 32
      let stale := Nat.max 1 (s.fld PS_RSTALE Fld.PS_RSTALE_STALE_F)
      let hold := Nat.max 1 (s.fld PS_RSTALE Fld.PS_RSTALE_HOLD_F)
      if stale + hold < n then none
      else some { p := p, t0 := s.boundaryOf f - (n * len : Nat), c1 := sxt 32 va.toNat * 2 ^ 24 * (2 * unitHz),
                  c2 := sxt 32 (va.toNat / 2 ^ 32) * 2 ^ 32, ts := (stale * len : Nat), den := 2 * unitHz * unitHz }
    | _, _, _ => none

/-! ## Triggers (R307 to R314) -/

/-- Bring a trigger's ring to its registers. -/
def State.showTrg (s : State) (n : Nat) : State :=
  s.setFld (TRG_LIST n) Fld.TRG_LIST_LEVEL (s.trgAt n).ring.length

/-- TRG_APPEND. -/
def State.trgHiWrite (s : State) (n : Nat) (w : Word) : State :=
  let x := s.trgAt n
  if 4096 ≤ x.ring.length then (s.setFld (TRG_STAT n) Fld.TRG_STAT_FULL 1).busErr
  else (s.setTrg n { x with ring := x.ring ++ [w ++ x.lo] }).showTrg n

def execTrgAppend (n : Fin 16) (w : Word) (s : State) : Host.Outcome State Fault Refusal :=
  .next (s.access (TRG_LDATA_HI n) fun s => s.trgHiWrite n w)

def State.trgOn (s : State) (n : Nat) : Bool := s.flag (TRG_CFG n) Fld.TRG_CFG_EN

/-- A write of TRG_n_LIST. -/
def State.trgListWrite (s : State) (n : Nat) (w : Word) : State :=
  if fget w Fld.TRG_LIST_FLUSH = 0 then s
  else if s.trgOn n then s.busErr
  else
    let x := s.trgAt n
    let rd := s.fld (TRG_LIST n) Fld.TRG_LIST_RD + x.ring.length
    ((s.setTrg n { x with ring := [], prev := none }).setFld (TRG_LIST n) Fld.TRG_LIST_RD rd).showTrg n

/-- TRG_FLUSH. -/
def execTrgFlush (n : Fin 16) (w : Word) (s : State) : Host.Outcome State Fault Refusal :=
  .next (s.access (TRG_LIST n) fun s => s.trgListWrite n w)

/-- Scheduled pulses that have not started are cancelled; their entries return to the head (R314, R329). -/
def State.trgCancel (s : State) (n : Nat) : State :=
  let x := s.trgAt n
  match x.sched with
  | [] => s
  | p :: _ =>
    let es := x.sched.map PsPulse.entry
    if s.flag (TRG_CFG n) Fld.TRG_CFG_MODE then
      (s.setTrg n { x with sched := [], back := es ++ x.back, prev := p.prev, last := x.act }).setFld (TRG_STAT n) Fld.TRG_STAT_DONE 0
    else
      let rd := s.fld (TRG_LIST n) Fld.TRG_LIST_RD + 4096 - es.length % 4096
      ((s.setTrg n { x with sched := [], ring := es ++ x.ring, prev := p.prev, last := x.act }).setFld
        (TRG_LIST n) Fld.TRG_LIST_RD rd).showTrg n

/-- EN of a trigger clears. -/
def State.trgDisable (s : State) (n : Nat) : State :=
  ((s.trgCancel n).setFld (TRG_CFG n) Fld.TRG_CFG_EN 0).setFld (TRG_STAT n) Fld.TRG_STAT_DONE 0

/-- The checks of EN = 1 (R314), with the fields of the word written. -/
def State.trgChecks (s : State) (n : Nat) (w : Word) : Bool :=
  let width := s.fld (TRG_WIDTH n) Fld.TRG_WIDTH_WIDTH
  let pitch := (s.pair64 (TRG_PITCH_LO n) (TRG_PITCH_HI n)).toInt
  let dir := fget w Fld.TRG_CFG_DIR
  srcExists s.part (fget w Fld.TRG_CFG_SRC) && decide (2 ≤ width ∧ width ≤ 250000) && s.flag PS_STAT Fld.PS_STAT_CAL_DONE &&
    (fget w Fld.TRG_CFG_MODE == 0 || (pitch != 0 && (dir != 0 || decide (0 < pitch)) && (dir != 1 || decide (pitch < 0))))

/-- A write of TRG_n_CFG. -/
def State.trgCfgWrite (s : State) (n : Nat) (w : Word) : State :=
  let on := fget w Fld.TRG_CFG_EN = 1
  if on then
    if s.trgOn n then s.refuse psSrc
    else if s.mode ≠ .commission ∧ s.mode ≠ .run ∧ s.mode ≠ .degraded then s.busErr
    else if !s.trgChecks n w then (s.setFld (TRG_STAT n) Fld.TRG_STAT_CFG_ERR 1).busErr
    else (s.setTrg n { s.trgAt n with k := 0, back := [], prev := none }).plainWrite (TRG_CFG n) w
  else if !srcExists s.part (fget w Fld.TRG_CFG_SRC) then s.refuse psSrc
  else (if s.trgOn n then s.trgDisable n else s).plainWrite (TRG_CFG n) w

/-- TRG_EN_SET. -/
def execTrgEnSet (n : Fin 16) (w : Word) (s : State) : Host.Outcome State Fault Refusal :=
  .next (s.access (TRG_CFG n) fun s => s.trgCfgWrite n (fset w Fld.TRG_CFG_EN 1))

/-- TRG_EN_CLEAR. -/
def execTrgEnClear (n : Fin 16) (w : Word) (s : State) : Host.Outcome State Fault Refusal :=
  .next (s.access (TRG_CFG n) fun s => s.trgCfgWrite n (fset w Fld.TRG_CFG_EN 0))

/-- A write of WIDTH, DELAY, COUNT, START or PITCH of a trigger. -/
def State.trgParamWrite (s : State) (n a : Nat) (w : Word) : State :=
  if s.trgOn n then s.refuse psSrc
  else if a = TRG_DELAY n ∧ ¬ (-1048576 ≤ w.toInt ∧ w.toInt ≤ 1048575) then s.busErr
  else s.plainWrite a w

/-- What the evaluation of a trigger's entries has found so far: the trigger, pulses scheduled, entries removed without a
pulse, overlaps, order errors, entries taken from the ring. -/
structure TrgWalk where
  x    : Trg
  n    : Nat := 0
  miss : Nat := 0
  ovl  : Bool := false
  seq  : Bool := false
  took : Nat := 0

/-- The fixed settings of a trigger during a window. -/
structure TrgSet where
  m        : PsModel
  periodic : Bool
  dir      : Nat
  count    : Nat
  start    : W64
  pitch    : W64
  width    : Int
  delay    : Int
  w0       : Int
  w1       : Int
  taps     : Bool

def TrgSet.up (c : TrgSet) : Bool := c.dir != 1
def TrgSet.down (c : TrgSet) : Bool := c.dir != 0

/-- Entry `k` of a periodic trigger (R308). -/
def TrgSet.entry (c : TrgSet) (k : Nat) : W64 := c.start + BitVec.ofNat 64 k * c.pitch

/-- The head entry, none where there is none. -/
def TrgSet.head (c : TrgSet) (x : Trg) : Option W64 :=
  if c.periodic then
    match x.back with
    | e :: _ => some e
    | [] => if c.count ≠ 0 ∧ c.count ≤ x.k then none else some (c.entry x.k)
  else x.ring.head?

/-- The head is removed. -/
def TrgSet.pop (c : TrgSet) (w : TrgWalk) (e : W64) : TrgWalk :=
  if c.periodic then
    match w.x.back with
    | _ :: t => { w with x := { w.x with back := t, prev := some e } }
    | [] => { w with x := { w.x with k := w.x.k + 1, prev := some e } }
  else { w with x := { w.x with ring := w.x.ring.drop 1, prev := some e }, took := w.took + 1 }

/-- The earliest instant of a crossing whose pulse still starts. -/
def TrgSet.lo (c : TrgSet) : Int := c.w0 - (c.w1 - c.w0) - c.delay

/-- Periodic entries from the head on that lie too far in the past (R311). -/
def TrgSet.far (c : TrgSet) (x : Trg) : Nat :=
  let left : Int := if c.count = 0 then 2 ^ 32 else ((c.count - x.k : Nat) : Int)
  (lastTrue (fun j => c.m.passed (c.entry (x.k + j.toNat)) c.up c.down c.lo) 40 0 left).toNat

/-- Evaluate successive heads in list order (R309 to R312). -/
def TrgSet.walk (c : TrgSet) : Nat → TrgWalk → TrgWalk
  | 0, w => w
  | f + 1, w =>
    if 128 ≤ w.n then w
    else match c.head w.x with
    | none => w
    | some e =>
      let order : Bool := c.periodic || match w.x.prev with
        | none => true
        | some p => if c.dir = 0 then decide (0 < (e - p).toInt) else if c.dir = 1 then decide ((e - p).toInt < 0) else true
      if !order then c.walk f { c.pop w e with miss := w.miss + 1, seq := true }
      else match c.m.cross e c.up c.down c.lo (c.w1 - c.delay) with
      | none =>
        if c.m.passed e c.up c.down c.lo then
          if c.periodic && w.x.back.isEmpty then
            let j := c.far w.x
            c.walk f { w with x := { w.x with k := w.x.k + j + 1, prev := some (c.entry (w.x.k + j)) }, miss := w.miss + j + 1 }
          else c.walk f { c.pop w e with miss := w.miss + 1 }
        else w
      | some tc =>
        let te := if c.taps then tc + c.delay else (tc + c.delay) / 64 * 64
        let late : Bool := decide (te < c.w0)
        let st := if late then c.w0 else te
        let clash : Bool := match w.x.last with
          | some l => decide (st < l + 128)
          | none => false
        let v := c.pop w e
        if clash then c.walk f { v with miss := w.miss + 1, ovl := true }
        else
          let p : PsPulse := { entry := e, prev := w.x.prev, start := st, late := late }
          c.walk f { v with x := { v.x with sched := v.x.sched ++ [p], last := some (st + c.width) }, n := w.n + 1 }

/-- The saturating sum of a count in a field. -/
def State.addFld (s : State) (a : Nat) (f : Fld) (k : Nat) : State :=
  s.setFld a f (Nat.min (s.fld a f + k) (2 ^ (f.hi + 1 - f.lo) - 1))

/-- The edges of a trigger in window W(f+1) from a model (R306 to R312). -/
def State.trgWindow (s : State) (n : Nat) (m : PsModel) (w0 w1 : Int) : State :=
  let x := s.trgAt n
  let cfg := s.reg (TRG_CFG n)
  let c : TrgSet := { m := m, periodic := fget cfg Fld.TRG_CFG_MODE = 1, dir := fget cfg Fld.TRG_CFG_DIR, count := (s.reg (TRG_COUNT n)).toNat,
                      start := s.pair64 (TRG_START_LO n) (TRG_START_HI n), pitch := s.pair64 (TRG_PITCH_LO n) (TRG_PITCH_HI n),
                      width := s.fld (TRG_WIDTH n) Fld.TRG_WIDTH_WIDTH * 64, delay := (s.reg (TRG_DELAY n)).toInt, w0 := w0, w1 := w1,
                      taps := !s.tapsOff (.trg (Fin.ofNat 16 n)) }
  let w := c.walk (2 ^ 32) { x := x }
  let s := s.setTrg n w.x
  let s := (s.setFld (TRG_LIST n) Fld.TRG_LIST_RD (s.fld (TRG_LIST n) Fld.TRG_LIST_RD + w.took)).showTrg n
  let s := if w.miss = 0 then s else (s.setFld (TRG_STAT n) Fld.TRG_STAT_MISS 1).addFld (TRG_ERRCNT n) Fld.TRG_ERRCNT_MISS w.miss
  let s := if w.ovl then s.setFld (TRG_STAT n) Fld.TRG_STAT_OVL 1 else s
  let s := if w.seq then s.setFld (TRG_STAT n) Fld.TRG_STAT_SEQERR 1 else s
  if c.periodic ∧ c.count ≠ 0 ∧ c.count ≤ w.x.k ∧ w.x.back = [] then s.setFld (TRG_STAT n) Fld.TRG_STAT_DONE 1 else s

/-! ## Encoder emulation (R315 to R318) -/

def State.emuOn (s : State) (e : Nat) : Bool := s.flag (EMU_CFG e) Fld.EMU_CFG_EN

/-- Y(t) (R315). -/
def State.emuTarget (s : State) (e : Nat) (m : PsModel) (u t : Int) : Int :=
  (s.emuAt e).c0 + ((u * m.den + m.num t) * (s.reg (EMU_NUM e)).toInt) / ((s.reg (EMU_DEN e)).toNat * 2 ^ 32 * m.den : Nat)

/-- The first grid point of [lo, hi) at which Y differs from the emitted count. -/
def State.emuNext (s : State) (e : Nat) (m : PsModel) (u lo hi : Int) : Option Int :=
  let c := (s.emuAt e).c
  if hi ≤ lo then none
  else if s.emuTarget e m u lo ≠ c then some lo
  else
    (m.pieces lo (hi - 1)).findSome? fun q =>
      if s.emuTarget e m u q.2 ≠ c then some (lastTrue (fun t => s.emuTarget e m u t == c) 80 q.1 q.2 + 1) else none

/-- The model of the next window for an emulator (R306, R315). -/
def State.emuWindow (s : State) (e : Nat) (m : PsModel) (w0 : Int) : State :=
  let x := s.emuAt e
  let u : Int := match x.org with
    | none => -(m.num w0 / m.den)
    | some (p, u) => u + (m.p - p).toInt
  s.setEmu e { x with org := some (m.p, u), next := some (m, u) }

/-- Level pairs by place in the order A leading B: 00, 10, 11, 01. -/
def quadOf (k : Nat) : BitVec 2 :=
  match k % 4 with
  | 0 => 0 | 1 => 2 | 2 => 3 | _ => 1

/-- EMU_STEP: the next edge of the window that runs, toward Y. -/
def execEmuStep (e : Fin 8) (s : State) : Host.Outcome State Fault Refusal :=
  let e := e.val
  let x := s.emuAt e
  match x.cur with
  | none => .next s
  | some (m, u) =>
    if !s.psOn || !s.emuOn e then .next s
    else
      let f := s.tt.flightNo
      let w0 := s.boundaryOf f
      let lo := match x.last with
        | some l => if w0 < l + 320 then l + 320 else w0
        | none => w0
      match s.emuNext e m u lo (s.boundaryOf (f + 1)) with
      | none => .next s
      | some t =>
        let up : Bool := decide (x.c < s.emuTarget e m u t)
        let t := if s.tapsOff (.emu (Fin.ofNat 8 e)) then (t + 63) / 64 * 64 else t
        let c := if up then x.c + 1 else x.c - 1
        let fwd := up != s.flag (EMU_CFG e) Fld.EMU_CFG_INV
        let per := s.fld (EMU_Z e) Fld.EMU_Z_ZPER
        let z : Bool := per != 0 && (c - s.fld (EMU_Z e) Fld.EMU_Z_ZPOS) % (per : Int) == 0
        let s := s.setEmu e { x with c := c, last := some t, ab := quadOf (quadPlace x.ab + (if fwd then 1 else 3)), z := z }
        .next (s.setReg (EMU_CNT e) (BitVec.ofInt 32 c))

/-- EN of an emulator clears: A, B and Z hold. -/
def State.emuDisable (s : State) (e : Nat) : State :=
  (s.setEmu e { s.emuAt e with cur := none, next := none, org := none }).setFld (EMU_CFG e) Fld.EMU_CFG_EN 0

/-- A write of EMU_e_CFG. -/
def State.emuCfgWrite (s : State) (e : Nat) (w : Word) : State :=
  let on := fget w Fld.EMU_CFG_EN = 1
  let src := srcExists s.part (fget w Fld.EMU_CFG_SRC)
  if on then
    if s.emuOn e then s.refuse psSrc
    else if !src || s.reg (EMU_DEN e) == 0 || !s.flag PS_STAT Fld.PS_STAT_CAL_DONE then
      (s.setFld (EMU_STAT e) Fld.EMU_STAT_CFG_ERR 1).busErr
    else
      let x := s.emuAt e
      (s.setEmu e { x with c0 := x.c, org := none, cur := none, next := none, past := false }).plainWrite (EMU_CFG e) w
  else if !src then s.refuse psSrc
  else (if s.emuOn e then s.emuDisable e else s).plainWrite (EMU_CFG e) w

/-- EMU_EN_SET. -/
def execEmuEnSet (e : Fin 8) (w : Word) (s : State) : Host.Outcome State Fault Refusal :=
  .next (s.access (EMU_CFG e) fun s => s.emuCfgWrite e (fset w Fld.EMU_CFG_EN 1))

/-- A write of NUM, DEN or Z. -/
def State.emuParamWrite (s : State) (e a : Nat) (w : Word) : State :=
  if s.emuOn e then s.refuse psSrc else s.plainWrite a w

/-! ## The window computation (R306) -/

/-- PSYNC_WINDOW_COMPUTE: from the values that the streams brought in this flight, every edge of the next window. -/
def execPsyncWindowCompute (routes : List PsRoute) (s : State) : Host.Outcome State Fault Refusal :=
  if !s.psOn then .next s
  else
    let f := s.tt.flightNo
    let w0 := s.boundaryOf (f + 1)
    let w1 := s.boundaryOf (f + 2)
    let models := routes.filterMap fun r => (s.modelOf r).map fun m => (r.src.val, m)
    let model := fun (k : Nat) => (models.find? (·.1 == k)).map fun e => e.2
    let slots := (List.range 16).filterMap fun r => (model (48 + r)).map fun m => (r, m)
    let seen := routes.filterMap fun r => if r.src.val < 48 then (s.psInput r.p).map fun p => (r.src.val, f, p) else none
    let s := s.modPs fun p => { p with slots := slots, prevP := seen }
    let s := s.setFld PS_STAT Fld.PS_STAT_RVALID (slots.foldl (fun (n : Nat) e => n ||| 2 ^ e.1) 0)
    let s := s.each 16 fun s n =>
      if !s.trgOn n then s
      else match model (s.fld (TRG_CFG n) Fld.TRG_CFG_SRC) with
      | some m => s.trgWindow n m w0 w1
      | none => s.setFld (TRG_STAT n) Fld.TRG_STAT_HOLD 1
    .next (s.each 8 fun s e =>
      if !s.emuOn e then s
      else match model (s.fld (EMU_CFG e) Fld.EMU_CFG_SRC) with
      | some m => s.emuWindow e m w0
      | none => (s.setEmu e { s.emuAt e with next := none }).setFld (EMU_STAT e) Fld.EMU_STAT_HOLD 1)

/-- A window boundary: the next models come into force, LAG is taken (R316, R318). -/
def State.psBoundary (s : State) : State :=
  let b := s.boundaryOf s.tt.flightNo
  s.each 8 fun s e =>
    let x := s.emuAt e
    let s := s.setEmu e { x with cur := x.next, next := none }
    match x.next with
    | none => s
    | some (m, u) =>
      if !s.emuOn e then s
      else
        let lag := (s.emuTarget e m u b - x.c).natAbs
        let s := (s.setFld (EMU_STAT e) Fld.EMU_STAT_LAG (Nat.min lag 65535)).setFld (EMU_STAT e) Fld.EMU_STAT_LAGGING (b2n (lag != 0))
        let past : Bool := decide (Nat.max 1 (s.fld (EMU_CFG e) Fld.EMU_CFG_LAG_MAX) < lag)
        let s := s.setEmu e { s.emuAt e with past := past }
        if past && !x.past then (s.setFld (EMU_STAT e) Fld.EMU_STAT_OVR 1).logCorrected psSrc else s

/-- TRIGGER_PULSE_START: the leading edge of the next scheduled pulse. -/
def execTriggerPulseStart (n : Fin 16) (s : State) : Host.Outcome State Fault Refusal :=
  let n := n.val
  let x := s.trgAt n
  match x.sched with
  | [] => .next s
  | p :: t =>
    if !s.psOn then .next s
    else
      let s := s.setTrg n { x with sched := t, act := some (p.start + s.fld (TRG_WIDTH n) Fld.TRG_WIDTH_WIDTH * 64) }
      let s := (s.setFld (TRG_STAT n) Fld.TRG_STAT_ACTIVE 1).incFld (TRG_FIRED n) Fld.TRG_FIRED_COUNT
      .next (if p.late then (s.setFld (TRG_STAT n) Fld.TRG_STAT_LATE 1).incFld (TRG_ERRCNT n) Fld.TRG_ERRCNT_LATE else s)

/-- TRIGGER_PULSE_END. -/
def execTriggerPulseEnd (n : Fin 16) (s : State) : Host.Outcome State Fault Refusal :=
  let n := n.val
  let x := s.trgAt n
  match x.act with
  | none => .next s
  | some _ => .next ((s.setTrg n { x with act := none }).setFld (TRG_STAT n) Fld.TRG_STAT_ACTIVE 0)

/-! ## Modes and interruptions (R329) -/

/-- Entry into Hold: EN of every trigger and emulator clears. -/
def State.psHold (s : State) : State :=
  let s := s.each 16 fun s n => if s.trgOn n then s.trgDisable n else s
  s.each 8 fun s e => if s.emuOn e then s.emuDisable e else s

/-- The PS clock stops: trigger outputs inactive, EN of the triggers clears; A, B and Z hold. -/
def State.psStop (s : State) : State :=
  s.each 16 fun s n =>
    let s := if s.trgOn n then s.trgDisable n else s
    (s.setTrg n { s.trgAt n with act := none }).setFld (TRG_STAT n) Fld.TRG_STAT_ACTIVE 0

/-- Line time has stepped by `d`: pulses and steps of the current and the next window are cancelled; the instants of edges that were
emitted, and of a pulse that is on, are told in the new line time. -/
def State.psLineStep (s : State) (d : Int) : State :=
  let s := s.each 16 fun s n =>
    let s := s.trgCancel n
    let x := s.trgAt n
    s.setTrg n { x with last := x.last.map (· + d), act := x.act.map (· + d) }
  let s := s.each 8 fun s e =>
    let x := s.emuAt e
    s.setEmu e { x with cur := none, next := none, last := x.last.map (· + d) }
  s.modPs fun p => { p with stepIn := some (s.time.line.toNat, (s.boundaryOf (s.tt.flightNo + 1)).toNat) }

/-! ## Latches (R319 to R322) -/

/-- The position of a local axis at a stamp (R283 or R291 with t := tL), none where it cannot be formed. -/
def State.axisPosAt (s : State) (n t : Nat) : Option W64 :=
  let x := s.fbAt n
  if axisCount s.part ≤ n ∨ ¬ s.fbOn n ∨ ¬ s.fbSends n x then none
  else
    let x := if serialMode (s.fbMode n) then x else x.asAt t
    some (x.pos (s.fbFrac n t x))

/-- The position of mask bit `k` at a stamp (R320). -/
def State.posAt (s : State) (k t : Nat) : Option W64 :=
  if k < 48 then s.axisPosAt k t
  else (s.psync.slots.find? fun e => e.1 == k - 48).map fun e => e.2.at t

/-- The registration correction of an accepted event (R322). -/
def State.latRegister (s : State) (n t : Nat) : State :=
  match s.posAt (s.fld (LAT_CFG n) Fld.LAT_CFG_REF) t with
  | none => s.setFld (LAT_STAT n) Fld.LAT_STAT_REFINV 1
  | some x =>
    let mp := (s.pair64 (LAT_MP_LO n) (LAT_MP_HI n)).toInt
    let d := (x - s.pair64 (LAT_MO_LO n) (LAT_MO_HI n)).toInt
    let bad : Bool := decide (mp ≤ 0)
    let c := if bad then sxt 48 s.fresh
      else (2 * d + mp) / (2 * mp) * mp - d
    let s := if bad then s.useFree else s
    let lim : Int := 2 ^ 47
    let cc := clampI (-lim) (lim - 1) c
    let s := if cc = c then s else s.setFld (LAT_STAT n) Fld.LAT_STAT_CSAT 1
    let v := wrap 48 cc
    let s := s.setReg (LAT_CORR_LO n) (BitVec.ofNat 32 v)
    let s := (s.setFld (LAT_CORR_HI n) Fld.LAT_CORR_HI_C (v / 2 ^ 32)).setFld (LAT_CORR_HI n) Fld.LAT_CORR_HI_EVT
      (s.fld (LAT_CORR_HI n) Fld.LAT_CORR_HI_EVT + 1)
    s.setLat n { s.latAt n with corr := true }

/-- Show the FIFO level of a latch. -/
def State.showLat (s : State) (n : Nat) : State :=
  let l := (s.latAt n).fifo.length
  (s.setFld (LAT_STAT n) Fld.LAT_STAT_LEVEL l).setFld (LAT_STAT n) Fld.LAT_STAT_NONEMPTY (b2n (l != 0))

/-- The stamp lies in the flight in which line time stepped (R329). -/
def State.inStep (s : State) (t : Nat) : Bool := s.psync.stepIn.any fun w => decide (w.1 ≤ t ∧ t < w.2)

/-- An accepted event of a latch. -/
def State.latch (s : State) (n : Nat) (falling : Bool) (t : Nat) : State :=
  let cfg := s.reg (LAT_CFG n)
  let edge := fget cfg Fld.LAT_CFG_EDGE
  if fget cfg Fld.LAT_CFG_EN = 0 ∨ edge = 0 ∧ falling ∨ edge = 1 ∧ ¬ falling then s
  else
    let x := s.latAt n
    let mask := (s.pair64 (LAT_MASK_LO n) (LAT_MASK_HI n)).toNat
    let pos := (List.range 64).filterMap fun k => if mask.testBit k then (s.posAt k t).map fun p => (k, p) else none
    let held := x.fifo.length + (x.busy.filter (!·.drop)).length
    let e : LatEvt := { stamp := t, falling := falling, seq := x.seq, step := s.inStep t, drop := decide (64 ≤ held), pos := pos }
    let s := s.setLat n { x with busy := x.busy ++ [e], seq := (x.seq + 1) % 65536 }
    if fget cfg Fld.LAT_CFG_REG_EN = 1 then s.latRegister n t else s

/-! ## Interval measurement (R323 to R325) -/

/-- The head result in the unit's registers. -/
def State.showTim (s : State) (m : Nat) : State :=
  let l := (s.timAt m).fifo
  let h : TimRes := l.headD { val := 0 }
  let a := TIM_RSTAT m
  let s := (s.setFld a Fld.TIM_RSTAT_LEVEL l.length).setFld a Fld.TIM_RSTAT_VALID (b2n !l.isEmpty)
  let s := ((s.setFld a Fld.TIM_RSTAT_COINCIDENT (b2n h.coin)).setFld a Fld.TIM_RSTAT_ORDER (b2n h.ord)).setFld a
    Fld.TIM_RSTAT_SAT (b2n h.sat)
  s.setReg (TIM_RES m) h.val

/-- A result enters the FIFO, or is discarded. -/
def State.timResult (s : State) (m : Nat) (r : TimRes) : State :=
  let x := s.timAt m
  if 16 ≤ x.fifo.length then s.setFld (TIM_RSTAT m) Fld.TIM_RSTAT_OVF 1
  else (s.setTim m { x with fifo := x.fifo ++ [r] }).showTim m

/-- A stop with stamp `t`. -/
def State.timStop (s : State) (m t : Nat) : State :=
  let x := s.timAt m
  match x.start with
  | none => s.setFld (TIM_RSTAT m) Fld.TIM_RSTAT_NOSTART_S 1
  | some a =>
    if t < a then s.timResult m { val := 0, ord := true }
    else
      let s := s.setTim m { x with start := none }
      if t = a then s.timResult m { val := 0, coin := true }
      else if t - a < 2 ^ 32 then s.timResult m { val := BitVec.ofNat 32 (t - a) }
      else s.timResult m { val := 0xFFFFFFFF, sat := true }

/-- A start with stamp `t`. -/
def State.timStart (s : State) (m t : Nat) : State :=
  let x := s.timAt m
  let s := if x.start.isSome then s.setFld (TIM_RSTAT m) Fld.TIM_RSTAT_REPL_S 1 else s
  s.setTim m { x with start := some t }

/-- An accepted level change of input `n` at the interval units: a unit that it both stops and starts takes the stop first. -/
def State.timEvent (s : State) (n : Nat) (falling : Bool) (t : Nat) : State :=
  s.each 8 fun s m =>
    let cfg := s.reg (TIM_CFG m)
    if fget cfg Fld.TIM_CFG_EN = 0 then s
    else
      let s := if fget cfg Fld.TIM_CFG_STP = n ∧ fget cfg Fld.TIM_CFG_STP_EDGE = b2n falling then s.timStop m t else s
      if fget cfg Fld.TIM_CFG_STA = n ∧ fget cfg Fld.TIM_CFG_STA_EDGE = b2n falling then s.timStart m t else s

/-- LATCH_EVENT: a level change that held for FILT ticks is accepted, with the stamp of its land crossing. -/
def execLatchEvent (n : Fin 16) (falling : Bool) (stamp : W64) (s : State) : Host.Outcome State Fault Refusal :=
  if !s.psOn then .next s
  else
    let t := if s.tapsOff (.lat n) then stamp.toNat / 64 * 64 else stamp.toNat
    .next ((s.latch n falling t).timEvent n falling t)

/-- The positions of an event when they are complete: a local axis counts every edge stamped at or before the event, also those that its
port accepted since (R320). -/
def State.latPositions (s : State) (e : LatEvt) : List (Nat × W64) :=
  e.pos.map fun q => (q.1, if q.1 < 48 then (s.axisPosAt q.1 e.stamp).getD q.2 else q.2)

/-- LATCH_POSITIONS_COMPLETE: the oldest event whose positions were not complete. -/
def execLatchPositionsComplete (n : Fin 16) (s : State) : Host.Outcome State Fault Refusal :=
  let n := n.val
  let x := s.latAt n
  match x.busy with
  | [] => .next s
  | e :: t =>
    if !s.psOn then .next s
    else if e.drop then
      let s := s.setLat n { x with busy := t, loss := true }
      .next ((s.setFld (LAT_STAT n) Fld.LAT_STAT_OVF 1).incFld (LAT_STAT n) Fld.LAT_STAT_LOST)
    else .next ((s.setLat n { x with busy := t, fifo := x.fifo ++ [{ e with loss := x.loss, pos := s.latPositions e }], loss := false }).showLat n)

/-- The read buffer of a latch input (R330). -/
def latBuf (n : Nat) : Nat := 0x40098000 + n * 0x400

/-- An event goes into the read buffer. -/
def State.latBuffer (s : State) (n : Nat) (e : LatEvt) : State :=
  let b := latBuf n
  let s := (s.setReg b (BitVec.ofNat 32 e.stamp)).setReg (b + 4) (BitVec.ofNat 32 (e.stamp / 2 ^ 32))
  let s := s.setReg (b + 8) (BitVec.ofNat 32 (e.seq + 2 ^ 16 * b2n e.falling + 2 ^ 17 * b2n e.loss + 2 ^ 18 * b2n e.step))
  let v := e.pos.foldl (fun (v : Nat) q => v + 2 ^ q.1) 0
  let s := (s.setReg (b + 0x10) (BitVec.ofNat 32 v)).setReg (b + 0x14) (BitVec.ofNat 32 (v / 2 ^ 32))
  s.each 64 fun s k =>
    let p := ((e.pos.find? (·.1 == k)).map fun q => q.2).getD 0
    (s.setReg (b + 0x200 + 8 * k) (p.setWidth 32)).setReg (b + 0x204 + 8 * k) ((p >>> 32).setWidth 32)

/-- A write of LAT_n_STAT. -/
def State.latStatWrite (s : State) (n : Nat) (w : Word) : State :=
  let s := s.plainWrite (LAT_STAT n) w
  let x := s.latAt n
  match x.fifo with
  | [] => s
  | e :: t => if fget w Fld.LAT_STAT_POP = 0 then s else ((s.setLat n { x with fifo := t }).latBuffer n e).showLat n

/-- LATCH_POP. -/
def execLatchPop (n : Fin 16) (w : Word) (s : State) : Host.Outcome State Fault Refusal :=
  .next (s.access (LAT_STAT n) fun s => s.latStatWrite n w)

/-- A write of LAT_n_CFG (R322). -/
def State.latCfgWrite (s : State) (n : Nat) (w : Word) : State :=
  if !srcExists s.part (fget w Fld.LAT_CFG_REF) then s.refuse psSrc
  else if fget w Fld.LAT_CFG_EN = 1 ∧ fget w Fld.LAT_CFG_REG_EN = 1 ∧ (s.pair64 (LAT_MP_LO n) (LAT_MP_HI n)).toInt ≤ 0 then
    (s.setFld (LAT_STAT n) Fld.LAT_STAT_CSAT 1).busErr
  else
    let rise := fget w Fld.LAT_CFG_EN = 1 ∧ ¬ s.flag (LAT_CFG n) Fld.LAT_CFG_EN
    let s := s.plainWrite (LAT_CFG n) w
    if rise then s.setLat n { s.latAt n with corr := false } else s

/-- What PSYNC streams as the correction of a latch input: {EVT, C}, none before the first update (R322). -/
def State.latCorrection (s : State) (n : Nat) : Option W64 :=
  if (s.latAt n).corr then some (s.pair64 (LAT_CORR_LO n) (LAT_CORR_HI n) &&& 0xFFFFFFFFFFFF |||
    BitVec.ofNat 64 (s.fld (LAT_CORR_HI n) Fld.LAT_CORR_HI_EVT * 2 ^ 48)) else none

/-- A write of TIM_m_CFG: EN = 0 clears the pending start. -/
def State.timCfgWrite (s : State) (m : Nat) (w : Word) : State :=
  let s := s.plainWrite (TIM_CFG m) w
  if fget w Fld.TIM_CFG_EN = 0 then s.setTim m { s.timAt m with start := none } else s

/-- A read of TIM_m_RES removes the head result; a read through JTAG does not (R8). -/
def State.timResRead (s : State) (i : Initiator) (m : Nat) : State :=
  let w := s.reg (TIM_RES m)
  let x := s.timAt m
  if i = .jtag then s.answer (.data w)
  else ((s.setTim m { x with fifo := x.fifo.drop 1 }).showTim m).answer (.data w)

/-- TIM_RES_READ. -/
def execTimResRead (i : Initiator) (m : Fin 8) (s : State) : Host.Outcome State Fault Refusal :=
  .next (if s.domOn domPS then s.timResRead i m else s.answer (.data 0))

/-! ## Delay-line calibration (R326 to R328) -/

/-- The delay lines of the ordering code. -/
def allLines (p : Part) : List DelayLine :=
  ((List.finRange 16).map DelayLine.trg) ++ ((List.finRange 8).map DelayLine.emu) ++ ((List.finRange 16).map DelayLine.lat) ++
    (((List.finRange 48).filter fun n => n.val < axisCount p).map DelayLine.enc)

/-- The register that shows TDC_OK of an encoder port's group. -/
def tdcReg (n : Nat) : Nat := EN_GSTAT (n / 8 * 8)

/-- A line fails calibration (R328). -/
def State.lineFails (s : State) (l : DelayLine) : State :=
  let s := s.modPs fun p => { p with coarse := if p.coarse.contains l then p.coarse else p.coarse ++ [l] }
  let s := (s.setFld PS_STAT Fld.PS_STAT_CAL_FAIL 1).logContained psSrc
  match l with
  | .enc n => s.setFld (tdcReg n) Fld.EN_GSTAT_TDC_OK 0
  | _ => s

/-- DELAY_LINE_CAL_DONE: the initial calibration ends; `failed` are the lines outside 80 to 160 elements. -/
def execDelayLineCalDone (failed : List DelayLine) (s : State) : Host.Outcome State Fault Refusal :=
  if !s.psOn && !s.pwr.starting.contains domPS then .next s
  else
    let s := s.setFld PS_STAT Fld.PS_STAT_CAL_DONE 1
    let s := s.each (enCount s.part) fun s g => if s.domOn (domEn g) then s.setFld (tdcReg (8 * g)) Fld.EN_GSTAT_TDC_OK 1 else s
    .next ((failed.filter fun l => (allLines s.part).contains l).foldl (fun s l => s.lineFails l) s)

/-- DELAY_LINE_SWAP: a twin was measured with so many elements per tick. -/
def execDelayLineSwap (l : DelayLine) (elements : Nat) (s : State) : Host.Outcome State Fault Refusal :=
  if !s.psOn || !s.flag PS_CAL Fld.PS_CAL_BG_EN || !s.flag PS_STAT Fld.PS_STAT_CAL_DONE || !(allLines s.part).contains l then .next s
  else
    let s := if elements < 80 ∨ 160 < elements then s.lineFails l else s
    let done := if s.psync.round.contains l then s.psync.round else s.psync.round ++ [l]
    if (allLines s.part).all fun k => done.contains k then
      .next ((s.modPs fun p => { p with round := [] }).setFld PS_CAL Fld.PS_CAL_ROUNDS (s.fld PS_CAL Fld.PS_CAL_ROUNDS + 1))
    else .next (s.modPs fun p => { p with round := done })

end Sys2Proof.Machine
end

