-- ==== Sys2Proof/Machine/Timetable.lean ====
section
/-! DEFINITION. The timetable sequencer (R40 to R59, R77 to R89, R588): the image and its checks, RUN, table banks, swaps,
alternates, and the loss of an engine (R82 to R87, R342 to R349). -/

namespace Sys2Proof.Machine
open Sys2Proof.Machine.Reg

/-! ## Reading an image (R48 to R54) -/

/-- Little-endian field of `n` bytes at offset `o`. -/
def lf (l : List Byte) (o n : Nat) : Nat := leNat ((l.drop o).take n)

/-- All bytes of a range are 0. -/
def zeroAt (l : List Byte) (o n : Nat) : Bool := ((l.drop o).take n).all (· == 0)

/-- The complement half of an entry agrees with its value half of `n` bytes. -/
def pairOk (l : List Byte) (n : Nat) : Bool := (l.take n).map (fun b => ~~~b) == (l.drop n).take n

def readLock (l : List Byte) : LockEntry :=
  { id := lf l 0 2, phase := lf l 2 1, period := lf l 3 1, start := lf l 4 4, budget := lf l 8 2, engine := lf l 10 1,
    ncommit := lf l 11 1, entry := lf l 12 2, axis := lf l 14 2, resFirst := lf l 16 2, resCount := lf l 18 2,
    stateBase := lf l 20 2, stateWords := lf l 22 2, mirrorFirst := lf l 24 2, kind := lf l 26 1 }

def readRes (l : List Byte) : ResEntry :=
  { src := lf l 0 2, dst := lf l 2 2, slot := lf l 4 4, flits := lf l 8 2, tag := lf l 10 2, kind := lf l 12 1,
    point := lf l 13 1, phase := lf l 14 1, period := lf l 15 1 }

def readPlace (l : List Byte) : Placement := { region := lf l 0 2, words := lf l 2 2, addr := lf l 4 2, copies := lf l 6 2 }

/-- Consecutive pieces of `n` bytes. -/
def pieces (l : List Byte) (o n k : Nat) : List (List Byte) := (List.range k).map fun j => (l.drop (o + n * j)).take n

/-- A directory entry: OFS, LEN, NLOCK, NRES (R50). -/
def dirOf (l : List Byte) (k : Nat) : Nat × Nat × Nat × Nat :=
  let d := (l.drop (64 + 16 * k)).take 16
  (lf d 0 4, lf d 4 4, lf d 8 2, lf d 10 2)

def lockBytes (l : List Byte) (k : Nat) : List (List Byte) := let d := dirOf l k; pieces l d.1 64 d.2.2.1
def resBytes (l : List Byte) (k : Nat) : List (List Byte) := let d := dirOf l k; pieces l (d.1 + 64 * d.2.2.1) 32 d.2.2.2
def placeBytes (l : List Byte) : List (List Byte) := pieces l (lf l 20 4) 8 (lf l 24 4)

def readImage (l : List Byte) : Image :=
  { flightTicks := lf l 8 4, offset := lf l 12 4, voyage := lf l 16 1, spare := lf l 17 1,
    sections := (List.range 13).map fun k => { locks := (lockBytes l k).map readLock, res := (resBytes l k).map readRes },
    places := (placeBytes l).map readPlace }

/-! ## Locks and reservations -/

/-- The lock of a section that owns reservation `r`. -/
def Section.owner (c : Section) (r : Nat) : Option LockEntry := c.locks.find? fun l => l.resFirst ≤ r && r < l.resFirst + l.resCount

/-- The reservations a lock owns, in RES_FIRST order. -/
def Section.owned (c : Section) (l : LockEntry) : List ResEntry := (c.res.drop l.resFirst).take l.resCount

/-- The phase and period in which a reservation runs (R52). -/
def Section.resPhase (c : Section) (r : Nat) (e : ResEntry) : Nat × Nat :=
  match c.owner r with
  | some l => (l.phase, l.period)
  | none => (e.phase, e.period)

/-- Occupation of a lock in ticks (R43). -/
def lockTicks (b : Nat) : Nat := ((b + 16) * 5 + 11) / 12

/-- The deadline of commit point `n` (R63). -/
def Section.deadline (c : Section) (l : LockEntry) (n : Nat) : Nat :=
  match ((c.owned l).filter fun e => (e.kind == 1 || e.kind == 2) && e.point == n).map (·.slot) with
  | [] => l.budget
  | t :: ts => Nat.min l.budget ((((ts.foldl Nat.min t : Nat) : Int) - l.start - 6) * 12 / 5).toNat

/-! ## Checks (R56, R588) -/

def inVoyage (phase period p : Nat) : Bool := p % period == phase

/-- Two half-open intervals overlap. -/
def meet (a b : Nat × Nat) : Bool := a.1 < b.2 && b.1 < a.2

/-- No two intervals of a list overlap. -/
def disjointAll : List (Nat × Nat) → Bool
  | [] => true
  | a :: t => t.all (fun b => !meet a b) && disjointAll t

/-- Check 0x01 over the payload header, the directory and the placement list; `len` is LEN of the image header, the payload bytes
(R526). -/
def layoutOk (len : Nat) (l : List Byte) : Bool :=
  let tot := lf l 28 4
  tot == len && lf l 0 4 == 0x54544D31 && lf l 6 2 == 64 && lf l 18 1 == 13 && 272 ≤ tot && tot ≤ 0x800000 &&
  lf l 20 4 + 8 * lf l 24 4 ≤ tot &&
  (List.range 13).all fun k =>
    let d := dirOf l k
    d.1 + d.2.1 ≤ tot && d.2.1 == 64 * d.2.2.1 + 32 * d.2.2.2

/-- Ranges and reserved fields of a lock entry (R51). -/
def lockFieldsOk (g : Image) (b : List Byte) : Bool :=
  let l := readLock b
  lf b 2 1 < 64 && 1 ≤ l.period && l.period ≤ 64 && l.phase < l.period && g.voyage % l.period == 0 && l.start < 2 ^ 18 && 1 ≤ l.budget &&
  l.engine ≤ 11 && l.ncommit ≤ 4 && (l.axis ≤ 63 || l.axis == 0xFFFF) && l.stateBase < 2 ^ 14 && l.stateWords ≤ 256 &&
  l.kind ≤ 1 && zeroAt b 27 5 &&
  (if l.kind = 0 then 1 ≤ l.ncommit else l.ncommit == 0 && l.resCount == 0) &&
  (l.entry < 0x2000 || (0x8020 ≤ l.entry && l.entry < 0xC000))

/-- A port that the ordering code has (R91). -/
def portExists (p : Part) (n : Nat) : Bool := n ≤ 42 && portPresent p n

/-- Ranges of a reservation entry and its consistency with its owner (R52, R588). DEDUCED: a port that does not exist is outside the
range of SRC_PORT and DST_PORT. -/
def resFieldsOk (p : Part) (g : Image) (c : Section) (r : Nat) (e : ResEntry) : Bool :=
  portExists p e.src && portExists p e.dst && e.slot < 2 ^ 18 && 1 ≤ e.flits && e.flits ≤ 256 && e.kind ≤ 3 && e.point ≤ 4 &&
  match c.owner r with
  | some l => e.kind ≠ 3 && e.phase == 0 && e.period == 0 &&
      (if e.kind = 0 then e.point == 0 else 1 ≤ e.point && e.point ≤ l.ncommit)
  | none => e.kind == 3 && e.point == 0 && 1 ≤ e.period && e.period ≤ 64 && e.phase < e.period && g.voyage % e.period == 0

/-- Lock entries sorted by ENGINE and then by START. -/
def lockSorted : List LockEntry → Bool
  | a :: b :: t => (a.engine < b.engine || (a.engine == b.engine && a.start ≤ b.start)) && lockSorted (b :: t)
  | _ => true

/-- Owned reservations come first, in RES_FIRST order, each owned once. -/
def ownershipOk (c : Section) : Bool :=
  let spans := ((c.locks.filter fun l => 0 < l.resCount).map fun l => (l.resFirst, l.resFirst + l.resCount))
  let own := spans.foldl (fun n s => n + (s.2 - s.1)) 0
  disjointAll spans && spans.all fun s => s.2 ≤ own && s.2 ≤ c.res.length

/-- Check 0x07. DESIGN CHOICE (log entry 244): a bit of COPIES above 11 names no engine and fails the check. -/
def fieldsOk (p : Part) (l : List Byte) : Bool :=
  let g := readImage l
  1250 ≤ g.flightTicks && g.flightTicks ≤ 250000 && g.offset < g.flightTicks && 1 ≤ g.voyage && g.voyage ≤ 64 && g.spare ≤ 11 &&
  zeroAt l 19 1 && zeroAt l 36 28 && g.places.length ≤ 1024 &&
  (g.places.all fun q => 1 ≤ q.words && q.words ≤ 8192 && q.addr ≤ 8191 && q.copies < 2 ^ 12) &&
  (List.range 13).all fun k =>
    let c := g.sec k
    zeroAt ((l.drop (64 + 16 * k)).take 16) 12 4 && c.locks.length ≤ 1024 && c.res.length ≤ 8192 &&
    (lockBytes l k).all (lockFieldsOk g) && lockSorted c.locks && ownershipOk c &&
    (c.res.zipIdx.all fun e => resFieldsOk p g c e.2 e.1)

/-- Check 0x08. -/
def complementsOk (l : List Byte) : Bool :=
  (List.range 13).all fun k => (lockBytes l k).all (pairOk · 32) && (resBytes l k).all (pairOk · 16)

/-- The locks of an engine in a voyage phase, as occupations. -/
def occupations (c : Section) (e p : Nat) : List (Nat × Nat) :=
  (c.locks.filter fun l => l.engine == e && inVoyage l.phase l.period p).map fun l => (l.start, l.start + lockTicks l.budget)

/-- Check 0x09: no overlap, R44. -/
def occupationsOk (g : Image) : Bool :=
  g.sections.all fun c => (List.range g.voyage).all fun p => (List.range 12).all fun e =>
    disjointAll (occupations c e p) && (occupations c e p).all fun o => 16 ≤ o.1 && o.2 ≤ g.flightTicks

/-- Check 0x0A. -/
def loadOk (g : Image) : Bool :=
  g.sections.all fun c => (List.range g.voyage).all fun p => (List.range 12).all fun e =>
    10 * (occupations c e p).foldl (fun n o => n + (o.2 - o.1)) 0 ≤ 9 * g.flightTicks

/-- The spans on a port in a voyage phase (R53). -/
def portSpans (c : Section) (port p : Nat) : List (Nat × Nat) :=
  (c.res.zipIdx.filter fun e => (e.1.src == port || e.1.dst == port) &&
      inVoyage (c.resPhase e.2 e.1).1 (c.resPhase e.2 e.1).2 p).map fun e => (e.1.slot, e.1.slot + e.1.flits + 3)

/-- Check 0x0B. -/
def portsOk (g : Image) : Bool :=
  g.sections.all fun c => (List.range g.voyage).all fun p => (List.range 48).all fun port =>
    disjointAll (portSpans c port p) && (portSpans c port p).all fun o => 16 ≤ o.1 && o.2 ≤ g.flightTicks

/-- Strictly ascending. -/
def ascending : List Nat → Bool
  | a :: b :: t => a < b && ascending (b :: t)
  | _ => true

/-- Check 0x0C. -/
def deadlinesOk (g : Image) : Bool :=
  g.sections.all fun c => c.locks.all fun l => l.kind != 0 ||
    (let ds := (List.range l.ncommit).map fun n => c.deadline l (n + 1)
     ascending ds && ds.all (2 ≤ ·) &&
     (c.owned l).all fun e => e.kind != 2 || (e.point == l.ncommit && e.flits == l.stateWords))

/-- Check 0x0D. -/
def placesOk (g : Image) : Bool :=
  (g.places.all fun p => p.addr + p.words ≤ 8192) &&
  (List.range 12).all fun e => disjointAll ((g.places.filter fun p => nbit p.copies e).map fun p => (p.addr, p.addr + p.words))

/-- Check 0x0E. -/
def spareOk (g : Image) : Bool :=
  ((g.sec 0).locks.all fun l => l.kind != 0 || l.engine != g.spare) &&
  (List.range 12).all fun e => (g.sec (e + 1)).locks.all fun l => l.kind != 0 || l.engine != e

/-- The bit of the ordering code in an image's stepping mask (R6). -/
def maskBit : Part → Nat
  | .fa48 => 0 | .la48 => 1 | .fa24 => 2

/-- Major and minor version fit (R47). -/
def versionFits (v maj min : Nat) : Bool := v / 256 == maj && v % 256 ≤ min

/-- The checks of R56 in their order: the code, and the image if every check passes. `none` bytes give code 0x11. -/
def State.ttCheck (s : State) (a : Nat) : Nat × Option Image :=
  match s.bytesAt .wharf a 272 with
  | none => (0x11, none)
  | some h =>
    match s.bytesAt .wharf (a - 512) 512 with
    | none => (0x11, none)
    | some hd =>
      if !layoutOk (lf hd 12 4) h then (1, none) else
      match s.bytesAt .wharf a (lf h 28 4) with
      | none => (0x11, none)
      | some l =>
        if (crc32c (l.take 32 ++ [0, 0, 0, 0] ++ l.drop 36)) ≠ lf l 32 4 then (2, none) else
        let g := readImage l
        if !nbit (lf hd 32 4) (maskBit s.part) then (3, none)
        else if !versionFits (lf hd 36 2) 1 2 then (4, none)
        else if !versionFits (lf hd 38 2) 1 1 || lf l 4 2 != lf hd 38 2 then (5, none)
        else if lf hd 40 2 / 256 != s.boot.abi then (6, none)
        else if !fieldsOk s.part l || !zeroAt hd 42 6 then (7, none)
        else if !complementsOk l then (8, none)
        else if !occupationsOk g then (9, none)
        else if !loadOk g then (0xA, none)
        else if !portsOk g then (0xB, none)
        else if !deadlinesOk g then (0xC, none)
        else if !placesOk g then (0xD, none)
        else if !spareOk g then (0xE, none)
        else (0, some g)

/-! ## Engines -/

/-- LE_n is marked lost. -/
def State.lost (s : State) (e : Nat) : Bool := nbit (s.fld FC_LOST Fld.FC_LOST_ENG) e

def State.setLost (s : State) (e : Nat) (b : Bool) : State := s.setFld FC_LOST ⟨e, e⟩ (b2n b)

/-- The section that runs. -/
def State.activeSec (s : State) : Section :=
  match s.tt.image with
  | some g => g.sec (s.fld TT_STATUS Fld.TT_STATUS_ACTIVE % 15)
  | none => { locks := [], res := [] }

/-! ## Timetable entries (R340) -/

/-- An entry of the running section is used. Where its halves disagree it is fetched again from the second copy and skipped in this
flight; where those disagree too, the module stops. true: the entry may be used. -/
def State.entryUse (s : State) (res : Bool) (k : Nat) : State × Bool :=
  let r : EntryRef := ⟨s.fld TT_STATUS Fld.TT_STATUS_ACTIVE % 15, res, k⟩
  if !s.tt.torn.contains r then (s, true)
  else if s.tt.torn2.contains r then (s.logFatal (srcId 0x05 0xFF), false)
  else ((s.modTt fun t => { t with torn := t.torn.filter (· != r) }).logCorrected (srcId 0x05 0xFF), false)

/-! ## Roles, planned axes -/

/-- TT_ENG_n_STAT.ROLE of every engine. DESIGN CHOICE (log entry 246): the spare keeps 1 while an alternate runs planned locks on it. -/
def State.showRoles (s : State) : State :=
  s.each 12 fun s e => s.setFld (TT_ENG_STAT e) Fld.TT_ENG_STAT_ROLE
    (match s.tt.image with
     | none => 3
     | some g => if s.lost e then 2 else if g.spare = e then 1 else 0)

/-- Channels whose planned locks LE_n runs. -/
def State.planAxes (s : State) (e : Nat) : List Nat :=
  (((s.activeSec.locks.filter fun (l : LockEntry) => l.engine == e && l.kind == 0).map LockEntry.axis).filter
    (· < axisCount s.part)).eraseDups

/-- EN is 1 on some channel. -/
def State.anyEn (s : State) : Bool := (List.range (axisCount s.part)).any fun n => s.en n

/-! ## Motion-degraded (R84, R350) -/

/-- The motion-degraded sub-state; in Run the module enters Degraded. A timer that runs runs on. -/
def State.startMd (s : State) : State :=
  let left := s.fld FC_DEG Fld.FC_DEG_MD_LIMIT * 60 - s.fc.mdPrior
  let s := if s.flag FC_STAT Fld.FC_STAT_MD then s else
    let s := (s.setFld FC_STAT Fld.FC_STAT_MD 1).modFc fun f => { f with mdStart := s.clock }
    s.startTimer TimerId.mdLimit (left * (60000 * msTicks))
  if s.mode == Mode.run then s.setMode Mode.degraded else s

/-! ## Loss of an engine (R82, R85, R87, R343, R349) -/

/-- The run in progress is discarded, and the cores are held in reset. -/
def Le.dropRun (x : Le) : Le := { x with run := none, pend := [], ds := none, rep := none }

/-- A forced alternate, pending or active, is withdrawn with its lost mark (R87). -/
def State.withdrawForced (s : State) : State :=
  let s := if s.tt.altForced.isSome then s.logCorrected (srcId 0x05 0xFF) else s
  let s := if s.tt.forcedLost ≠ 0 then s.setLost (s.tt.forcedLost - 1) false else s
  { s with tt := { s.tt with altForced := none, forcedOn := false, forcedLost := 0 } }

/-- The loss of LE_e reaches the sequencer and the collector. `src` names the report's source. -/
def State.engineLost (s : State) (e src : Nat) : State :=
  let x := s.leAt e
  let s := s.setLe e { x.dropRun with held := true }
  match s.fc.lostEng with
  | some e' =>
    if e' = e then s
    else
      let s := (s.setLost e true).showRoles
      let s := { s with fc := { s.fc with double := true } }
      s.logFatal src
  | none =>
    let s := s.withdrawForced
    let s := (s.setLost e true).showRoles
    let s := { s with fc := { s.fc with lostEng := some e, window := true, activated := false, voyages := 0 } }
    let s := s.setFld FC_STAT Fld.FC_STAT_WINDOW 1
    let s := s.logContained src .log [] 0 none false
    if s.tt.image.isSome then
      let s := { s with tt := { s.tt with altReal := some (e + 1, s.ticks + 10) } }
      (s.setFld TT_STATUS Fld.TT_STATUS_ALT_PENDING 1).irqPulse 4
    else s

/-! ## Alternates (R82, R83, R346) -/

/-- The engine of a planned lock in section `j`. -/
def Image.homeEngine (g : Image) (j id : Nat) : Option Nat := ((g.sec j).locks.find? fun l => l.id == id && l.kind == 0).map (·.engine)

/-- Planned locks of section `k` that run on another engine than in section `j`, which ran before it. -/
def Image.moved (g : Image) (j k : Nat) : List LockEntry :=
  (g.sec k).locks.filter fun l => l.kind == 0 && g.homeEngine j l.id != some l.engine

/-- A moved lock has no replica it may start from (R344, R346). -/
def State.noReplica (s : State) (g : Image) (l : LockEntry) : Bool := l.engine != g.spare || s.tt.stale.contains l.id

/-- Section `k` becomes active at a flight boundary. -/
def State.activate (s : State) (k : Nat) (real : Bool) : State :=
  match s.tt.image with
  | none => s
  | some g =>
    let j := s.fld TT_STATUS Fld.TT_STATUS_ACTIVE % 15
    let s := (s.setFld TT_STATUS Fld.TT_STATUS_ACTIVE k).setFld TT_STATUS Fld.TT_STATUS_ALT_PENDING 0
    let s := (s.setFld FC_LOST Fld.FC_LOST_ALT k).irqPulse 4
    let s := s.setLe g.spare { s.leAt g.spare with mvalid := [] }
    let bad := (g.moved j k).filter (s.noReplica g)
    let s := { s with tt := { s.tt with blocked := bad.map LockEntry.id, forcedOn := !real,
                                        altReal := if real then none else s.tt.altReal, altForced := none,
                                        forcedLost := if real then 0 else k } }
    let s := if real then s else s.setLost (k - 1) true
    let s := s.showRoles
    let s := bad.foldl (fun s l =>
      (s.incFld FC_LOST Fld.FC_LOST_STALE).logContained (srcId 0x07 0) .safepwm (if l.axis < axisCount s.part then [l.axis] else []) 0 none false) s
    if real then State.startMd { s with fc := { s.fc with activated := true, voyages := 0 } } else s

/-- TT_ALT_FORCE is accepted (R87). -/
def State.altForceOk (s : State) (w : Word) : Bool :=
  let alt := fget w Fld.TT_ALT_FORCE_ALT
  (s.mode == .commission || s.mode == .test) && s.tt.image.isSome && !s.flag TT_STATUS Fld.TT_STATUS_ALT_PENDING &&
    s.fld TT_STATUS Fld.TT_STATUS_ACTIVE == 0 && s.tt.altForced.isNone && 1 ≤ alt && alt ≤ 12

def State.altForceApply (s : State) (w : Word) : State :=
  let s := s.setReg TT_ALT_FORCE w
  if fget w Fld.TT_ALT_FORCE_GO = 1 then
    let s := { s with tt := { s.tt with altForced := some (fget w Fld.TT_ALT_FORCE_ALT) } }
    (s.setFld TT_STATUS Fld.TT_STATUS_ALT_PENDING 1).irqPulse 4
  else s

/-! ## The flight number (R41) -/

/-- The flight number follows line time, with its registers. -/
def State.numberFlight (s : State) : State :=
  let f := flightAt s.grid s.ticks
  let s := s.modTt fun t => { t with flightNo := f }
  let s := s.setReg TT_FLIGHT_NO (BitVec.ofNat 32 f)
  if s.tt.image.isSome then s.setFld TT_VOYAGE Fld.TT_VOYAGE_PHASE (f % s.grid.2.2) else s

/-! ## Load (R55) -/

/-- No timetable is loaded any more; the flight number goes on on the default grid (R587). -/
def State.unload (s : State) : State :=
  let s := if s.tt.forcedLost ≠ 0 then s.setLost (s.tt.forcedLost - 1) false else s
  let s := { s with tt := { s.tt with image := none, altReal := none, altForced := none, forcedOn := false, forcedLost := 0,
                                      cutRuns := [], blocked := [], stale := [], torn := [], torn2 := [] } }
  let s := ((s.setFld TT_STATUS Fld.TT_STATUS_LOADED 0).setFld TT_STATUS Fld.TT_STATUS_ACTIVE 15).setFld TT_STATUS Fld.TT_STATUS_ALT_PENDING 0
  ((s.setReg TT_FLIGHT 0).setReg TT_VOYAGE 0).numberFlight.showRoles

/-- The module accepts a load. -/
def State.loadAllowed (s : State) : Bool := s.mode == .wake || s.mode == .hold || (s.mode == .commission && !s.anyEn)

/-- The first planned lock of a section and voyage phase. -/
def State.setLoadCode (s : State) (c : Nat) : State :=
  let was := s.fld TT_STATUS Fld.TT_STATUS_LOAD_CODE
  let s := s.setFld TT_STATUS Fld.TT_STATUS_LOAD_CODE c
  if was = 0xFF ∧ c ≠ 0xFF then s.irqPulse 4 else s

/-- An accepted LOAD = 1. -/
def State.loadStart (s : State) : State :=
  let a := (s.reg TT_IMG_ADDR).toNat
  let s := { s with tt := { s.tt with loading := some a } }
  let foreign : Bool := match vget s.boot.slot none 3 with
    | some o => a != 0x30000000 + o + 512
    | none => true
  let s := s.setFld HOST_BOOT_STAT Fld.HOST_BOOT_STAT_TT_FOREIGN (b2n foreign)
  let s := (s.setFld TT_CTRL Fld.TT_CTRL_RUN 0).setLoadCode 0xFF
  if s.running then s else s.unload

/-- TCOPY = 1 (R79, R81). -/
def State.tcopyStart (s : State) : State :=
  if s.flag TT_STATUS Fld.TT_STATUS_TCOPY_BUSY ∨ s.flag TT_SWAP Fld.TT_SWAP_ARM then (s.setFld TT_STATUS Fld.TT_STATUS_TWR_ERR 1).busErr
  else s.setFld TT_STATUS Fld.TT_STATUS_TCOPY_BUSY 1

/-- A write of RUN = 0 while RUN is 1 is accepted (R59). -/
def State.stopAllowed (s : State) : Bool := s.mode == .wake || s.mode == .hold || (s.mode == .commission && !s.anyEn)

/-- A write of TT_CTRL. A write whose LOAD is refused changes nothing but LOAD_CODE (R55). -/
def State.ttCtrlWrite (s : State) (w : Word) : State :=
  let run := fget w Fld.TT_CTRL_RUN
  let load := fget w Fld.TT_CTRL_LOAD = 1
  if run = 0 ∧ s.flag TT_CTRL Fld.TT_CTRL_RUN ∧ ¬ s.stopAllowed then s.refuse (srcId 0x05 0xFF)
  else if load ∧ s.fld TT_STATUS Fld.TT_STATUS_LOAD_CODE = 0xFF then s.refuse (srcId 0x05 0xFF)
  else if load ∧ ¬ s.loadAllowed then (s.setLoadCode 0x10).busErr
  else
    let s := (s.setFld TT_CTRL Fld.TT_CTRL_RUN run).setFld TT_CTRL Fld.TT_CTRL_TEST_EN (fget w Fld.TT_CTRL_TEST_EN)
    let s := if fget w Fld.TT_CTRL_TCOPY = 1 then s.tcopyStart else s
    if load then s.loadStart else s

/-- TT_RUN. -/
def execTtRun (_i : Initiator) (w : Word) (s : State) : Host.Outcome State Fault Refusal :=
  .next (s.access TT_CTRL fun s => s.ttCtrlWrite w)

/-- TT_LOAD. -/
def execTtLoad (_i : Initiator) (w : Word) (s : State) : Host.Outcome State Fault Refusal :=
  .next (s.access TT_CTRL fun s => s.ttCtrlWrite (fset w Fld.TT_CTRL_LOAD 1))

/-- TT_LOAD_COMPLETE: the checks end, once the sequencer has stopped. An engine that is marked lost keeps its mark, and its
alternate is activated in the first flight (R350). -/
def execTtLoadComplete (s : State) : Host.Outcome State Fault Refusal :=
  match s.tt.loading with
  | none => .next s
  | some a =>
    if s.running then .next s else
    let r := s.ttCheck a
    let s := { s with tt := { s.tt with loading := none } }
    match r.2 with
    | none => .next (s.setLoadCode r.1)
    | some g =>
      let s := { s with tt := { s.tt with image := some g } }
      let s := (s.setFld TT_STATUS Fld.TT_STATUS_LOADED 1).setFld TT_STATUS Fld.TT_STATUS_ACTIVE 0
      let s := s.setReg TT_FLIGHT (BitVec.ofNat 32 g.flightTicks)
      let s := s.setFld TT_VOYAGE Fld.TT_VOYAGE_VOYAGE g.voyage
      let s := match s.fc.lostEng with
        | some e => (s.modTt fun t => { t with altReal := some (e + 1, 0) }).setFld TT_STATUS Fld.TT_STATUS_ALT_PENDING 1
        | none => s
      .next (s.numberFlight.showRoles.setLoadCode 0)

/-- TCOPY. -/
def execTcopy (_i : Initiator) (w : Word) (s : State) : Host.Outcome State Fault Refusal :=
  .next (s.access TT_CTRL fun s => s.ttCtrlWrite (fset w Fld.TT_CTRL_TCOPY 1))

/-- TCOPY_DONE. DESIGN CHOICE (log entry 245): the copy takes the whole active bank when it ends, over any word of the table-write service that
was acknowledged meanwhile. -/
def execTcopyDone (s : State) : Host.Outcome State Fault Refusal :=
  if !s.flag TT_STATUS Fld.TT_STATUS_TCOPY_BUSY then .next s
  else
    let b := s.bankB
    let s := { s with le := s.le.map fun (x : Le) => if b then { x with tblA := x.tblB } else { x with tblB := x.tblA } }
    .next (s.setFld TT_STATUS Fld.TT_STATUS_TCOPY_BUSY 0)

/-! ## The table-write service (R78, R81) -/

/-- Engines that a write of mask `copies` reaches: on, and not lost. -/
def State.reachableCopies (s : State) (copies : Nat) : Nat :=
  (List.range 12).foldl (fun n e => n + b2n (nbit copies e && s.domOn (domLe e) && !s.lost e) * 2 ^ e) 0

/-- A write of TT_TWR_DATA. -/
def State.twrWrite (s : State) (w : Word) : State :=
  if s.flag TT_SWAP Fld.TT_SWAP_ARM then (s.setFld TT_STATUS Fld.TT_STATUS_TWR_ERR 1).busErr
  else
    let ofs := s.fld TT_TWR_ADDR Fld.TT_TWR_ADDR_OFFSET
    let reg := s.fld TT_TWR_ADDR Fld.TT_TWR_ADDR_REGION
    let s := s.setFld TT_TWR_ADDR Fld.TT_TWR_ADDR_OFFSET (ofs + 1)
    match (s.tt.image.map Image.places).bind fun l => l.find? fun p => p.region == reg with
    | none => s.setFld TT_STATUS Fld.TT_STATUS_TWR_ERR 1
    | some p =>
      if p.words ≤ ofs then s.setFld TT_STATUS Fld.TT_STATUS_TWR_ERR 1
      else
        let c := s.reachableCopies p.copies
        let s := if c ≠ p.copies % 2 ^ 12 then s.setFld TT_STATUS Fld.TT_STATUS_TWR_ERR 1 else s
        if c = 0 then s else
        let e : TableWrite := { copies := c, word := p.addr + ofs, value := BitVec.ofNat 24 w.toNat }
        let s := s.modTt fun t => { t with writes := t.writes ++ [e] }
        s.setFld TT_TWR_OUT Fld.TT_TWR_OUT_OUT s.tt.writes.length

/-- TT_TWR_DATA. -/
def execTtTwrData (_i : Initiator) (w : Word) (s : State) : Host.Outcome State Fault Refusal :=
  .next (s.access TT_TWR_DATA fun s => s.twrWrite w)

/-- TWR_ACK: the copies of the oldest write that can still be reached acknowledge it, and the word stands in their inactive banks; for a
copy whose engine was lost or switched off since, the write is dropped with TWR_ERR (R78, R86). -/
def execTwrAck (s : State) : Host.Outcome State Fault Refusal :=
  match s.tt.writes with
  | [] => .next s
  | t :: ts =>
    let b := s.bankB
    let c := s.reachableCopies t.copies
    let s := { s with tt := { s.tt with writes := ts } }
    let s := if c ≠ t.copies % 2 ^ 12 then s.setFld TT_STATUS Fld.TT_STATUS_TWR_ERR 1 else s
    let s := s.each 12 fun s e => if nbit c e then s.setLe e ((s.leAt e).setBank (!b) t.word t.value) else s
    .next (s.setFld TT_TWR_OUT Fld.TT_TWR_OUT_OUT ts.length)

/-- TT_SWAP: an arm is refused while a copy or a write is outstanding or TWR_ERR is 1 (R81). -/
def State.swapOk (s : State) (w : Word) : Bool :=
  fget w Fld.TT_SWAP_ARM == 0 ||
  (!s.flag TT_STATUS Fld.TT_STATUS_TCOPY_BUSY && s.fld TT_TWR_OUT Fld.TT_TWR_OUT_OUT == 0 && !s.flag TT_STATUS Fld.TT_STATUS_TWR_ERR)

def State.swapApply (s : State) (w : Word) : State :=
  (s.setReg TT_SWAP w).setFld TT_STATUS Fld.TT_STATUS_SWAP_PENDING (fget w Fld.TT_SWAP_ARM)

/-- The armed swap is made (R77). -/
def State.swapNow (s : State) : State :=
  let s := (s.setFld TT_SWAP Fld.TT_SWAP_ARM 0).setFld TT_STATUS Fld.TT_STATUS_SWAP_PENDING 0
  (s.setFld TT_STATUS Fld.TT_STATUS_BANK (1 - s.fld TT_STATUS Fld.TT_STATUS_BANK)).irqPulse 4

/-- SLACK_READ: a read of TT_ENG_n_SLACK; a read through JTAG does not clear it (R8). -/
def execSlackRead (i : Initiator) (e : Fin 12) (s : State) : Host.Outcome State Fault Refusal :=
  let a := TT_ENG_SLACK e
  if !s.reachable a then .next (s.answer (.data 0))
  else
    let v := s.reg a
    let s := if i = .jtag then s else s.setReg a 0xFFFF
    .next (s.answer (.data v))

end Sys2Proof.Machine
end

