-- ==== Sys2Proof/Machine/Link.lean ====
section
/-! DEFINITION. Die links (R19 to R23, R39, R146), island stops (R26, R341), and the towpath with the state mirror (R28, R29,
R67, R70 to R76, R121, R344). -/

namespace Sys2Proof.Machine
open Sys2Proof.Machine.Reg

/-! ## Die links -/

/-- Source of a die link. -/
def linkSrc (d : Nat) : Nat := srcId 0x15 d

/-- Both lanes are up. -/
def State.lanesUp (s : State) (d : Nat) : Bool := s.flag (SDD_STAT d) Fld.SDD_STAT_LANE0_UP && s.flag (SDD_STAT d) Fld.SDD_STAT_LANE1_UP

/-- A link that is lost (R22, R146): one contained report with SAFEPWM for the die's channels, a running calibration ends. -/
def State.linkFault (s : State) (d : Nat) : State :=
  let x := s.linkAt d
  if x.faulted then s
  else
    let s := s.setLink d { x with faulted := true }
    let s := s.eachDieAxis d fun s n => s.calAbort n 0x15
    s.logContained (linkSrc d) .safepwm (dieAxes d) 0 (some 0)

/-- A valid frame or keep-alive: the silence ends, its trigger ceases; the condition ceases while both lanes are up. -/
def State.linkAlive (s : State) (d : Nat) : State :=
  let x := s.linkAt d
  let s := s.setLink d { x with lastAlive := s.clock, silent := false, faulted := false }
  let s := if x.silent then s.eachDieAxis d fun s n => s.safeCease n .linkSilent else s
  s.cease (linkSrc d) 0

/-- The header of a frame (R19): type, length, sequence number, flags. -/
def frameLen (f : LinkFrame) : Nat := ((f.bytes[1]?).getD 0).toNat
def frameSeq (f : LinkFrame) : Nat := ((f.bytes[2]?).getD 0).toNat

/-- Length and CRC of a frame are right: header, payload of LEN bytes up to 88, then the CRC, most significant byte first. -/
def frameOk (f : LinkFrame) : Bool :=
  let n := f.bytes.length
  n == frameLen f + 6 && frameLen f ≤ 88 &&
    crc16 (f.bytes.take (n - 2)) == ((f.bytes[n - 2]?).getD 0).toNat * 256 + ((f.bytes[n - 1]?).getD 0).toNat

def dirNo : LinkDir → Nat
  | .up => 0 | .down => 1

/-- The words of a downlink frame, each with its place among consecutive words of one tag (R143). -/
def placeWords (l : List (Nat × D24)) : List (Nat × Nat × D24) :=
  (l.foldl (fun (acc : List (Nat × Nat × D24) × Nat × Nat) e =>
    let k := if acc.2.1 = e.1 + 1 then acc.2.2 + 1 else 0
    (acc.1 ++ [(e.1, k, e.2)], e.1 + 1, k)) ([], 0, 0)).1

/-- The words a burst gives to the uplink frame (R151, R177, R263). -/
def BurstWords.all (b : BurstWords) : List D24 := b.i.toList ++ [b.vbus, b.status, b.vA, b.vB]

/-- The words of the latest bursts of a die's channels. -/
def State.dieWords (s : State) (d : Nat) : List D24 :=
  (dieAxes d).flatMap fun n => (s.axAt n).early.all ++ (s.axAt n).late.all

/-- The words of an uplink frame wait at the endpoint for the reservations that send them on. The die sends nothing but what its bursts
gave (log entry 248). -/
def State.upWords (s : State) (d : Nat) (l : List (Nat × D24)) : State :=
  let x := s.linkAt d
  s.setLink d { x with up := x.up ++ (l.filter fun w => (s.dieWords d).contains w.2).map fun w => (w.1, w.2, s.tt.flightNo) }

/-- A good frame is acknowledged and delivered in sequence. After a retry the next number is that of the frame sent next: those sent meanwhile were
dropped (R39). -/
def State.linkDeliver (s : State) (d : Nat) (dir : LinkDir) (f : LinkFrame) : State :=
  let k := dirNo dir
  let s := s.linkAlive d
  let x := s.linkAt d
  let n := if vget x.retry false k then vget x.txSeq 0 k else (frameSeq f + 1) % 256
  let s := s.setLink d { x with rxSeq := x.rxSeq.setIfInBounds k n, txSeq := x.txSeq.setIfInBounds k n,
                                retry := x.retry.setIfInBounds k false, acked := x.acked.setIfInBounds k (some (frameSeq f)) }
  match dir with
  | .up => s.upWords d f.words
  | .down => (placeWords f.words).foldl (fun s e => s.downWord d e.1 e.2.1 e.2.2) s

/-- Frame `q` is dropped and reported lost under its sequence number (R20); four within 64 flights are an SDD fault (R22). -/
def State.linkDrop (s : State) (d q : Nat) : State :=
  let x := s.linkAt d
  let now := s.tt.flightNo
  let recent := (x.drops ++ [now]).filter fun f => now < f + 64
  let s := s.setLink d { x with drops := recent }
  let s := s.incFld (SDD_LINKCNT d) Fld.SDD_LINKCNT_DROPPED
  let s := s.logCorrected (linkSrc d) (BitVec.ofNat 32 q)
  if 4 ≤ recent.length then s.linkFault d else s

/-- The outstanding retry ends without its frame: the next number is that of the frame sent next. -/
def State.retryDrop (s : State) (d k : Nat) : State :=
  let x := s.linkAt d
  (s.setLink d { x with rxSeq := x.rxSeq.setIfInBounds k (vget x.txSeq 0 k), retry := x.retry.setIfInBounds k false }).linkDrop d
    (vget x.rxSeq 0 k)

/-- A flight ends, and with it the link reservation in which an outstanding retry could complete (R20). Words from an earlier
flight that nothing sent on are gone (R21). -/
def State.linkBoundary (s : State) (d : Nat) : State :=
  let s := s.each 2 fun s k => if vget (s.linkAt d).retry false k then s.retryDrop d k else s
  let x := s.linkAt d
  s.setLink d { x with up := x.up.filter fun w => s.tt.flightNo ≤ w.2.2 + 1 }

/-- DIE_LINK_FRAME: a frame arrives. While a retry is outstanding every other frame is out of sequence, and dropped (R39). -/
def execDieLinkFrame (d : Fin 12) (dir : LinkDir) (f : LinkFrame) (s : State) : Host.Outcome State Fault Refusal :=
  let d := d.val
  let x := s.linkAt d
  let k := dirNo dir
  if !s.sddOn d || !s.lanesUp d then .next s
  else if frameOk f ∧ frameSeq f = vget x.rxSeq 0 k then .next (s.linkDeliver d dir f)
  else
    let s := s.logCorrected (linkSrc d)
    let x := s.linkAt d
    if vget x.retry false k then
      let q := if frameOk f then frameSeq f else vget x.txSeq 0 k
      .next ((s.setLink d { x with txSeq := x.txSeq.setIfInBounds k ((q + 1) % 256) }).linkDrop d q)
    else
      let n := (vget x.rxSeq 0 k + 1) % 256
      .next (s.setLink d { x with retry := x.retry.setIfInBounds k true, txSeq := x.txSeq.setIfInBounds k n })

/-- DIE_LINK_RETRY: the outstanding retry completes, or cannot complete within its reservation (R20, R39). -/
def execDieLinkRetry (d : Fin 12) (dir : LinkDir) (f : LinkFrame) (fits : Bool) (s : State) : Host.Outcome State Fault Refusal :=
  let d := d.val
  let x := s.linkAt d
  let k := dirNo dir
  if !s.sddOn d || !s.lanesUp d || !vget x.retry false k then .next s
  else if !fits then .next (s.retryDrop d k)
  else
    let s := s.incFld (SDD_LINKCNT d) Fld.SDD_LINKCNT_RETRIES
    if frameOk f ∧ frameSeq f = vget x.rxSeq 0 k then .next (s.linkDeliver d dir f) else .next (s.logCorrected (linkSrc d))

/-- DIE_LINK_LANE_LOSS. -/
def execDieLinkLaneLoss (d : Fin 12) (lane : Fin 2) (s : State) : Host.Outcome State Fault Refusal :=
  if !s.sddOn d then .next s
  else .next ((s.setFld (SDD_STAT d) ⟨8 + lane, 8 + lane⟩ 0).linkFault d)

/-- DIE_LINK_KEEPALIVE. -/
def execDieLinkKeepalive (d : Fin 12) (s : State) : Host.Outcome State Fault Refusal :=
  .next (if s.sddOn d ∧ s.lanesUp d then s.linkAlive d else s)

/-- DIE_LINK_SILENT: 512 ns without a valid keep-alive or frame. -/
def execDieLinkSilent (d : Fin 12) (s : State) : Host.Outcome State Fault Refusal :=
  let d := d.val
  let x := s.linkAt d
  if !s.sddOn d || s.clock < x.lastAlive + 128 || x.silent then .next s
  else
    let s := s.setLink d { x with silent := true }
    let s := s.eachDieAxis d fun s n => s.safeEnter n .linkSilent
    .next (s.linkFault d)

/-! ## Island stops (R26, R341) -/

def islandNo : Island → Nat
  | .le n => domLe n | .sv p => domSv p | .sc => domSC | .tp => domTP | .nw => domNW | .aq => domAQ | .cn => domCN
  | .hb => domHB | .ps => domPS | .en g => domEn g

/-- Every channel into its safe state. -/
def State.allSafe (s : State) (c : SafeCause) : State := s.each (axisCount s.part) fun s n => s.safeEnter n c

/-- ISLAND_CLOCK_STOP: the clock of an island stops, or a debug halt stops it. A clock stop of TP (R146) is the hardware safe state,
whose cause SAFE_CAUSE shows as the collector's, code 2 (DESIGN CHOICE: log entry 258). -/
def execIslandClockStop (isl : Island) (halt : Bool) (s : State) : Host.Outcome State Fault Refusal :=
  let k := islandNo isl
  if !s.domOn k then .next s
  else
    let s := s.modFc fun f => { f with stopped := addOnce f.stopped k }
    match isl, halt with
    | .le n, true => .next ((s.planAxes n).foldl (fun s a => s.safeEnter a (.engineHalt n)) s)
    | .le n, false => .next (s.engineLost n (srcId 0x01 n))
    | .tp, true => .next (s.allSafe .linkSilent)
    | .tp, false => .next (s.hwSafe true)
    | .nw, true => .next (s.allSafe (.island 0))
    | .ps, true => .next (s.psStop.allSafe (.island 1))
    | .nw, false => .next ((s.allSafe (.island 0)).logFatal (srcId 0x11 k) 0 (some 0))
    | .ps, false => .next ((s.psStop.allSafe (.island 1)).logFatal (srcId 0x11 k) 0 (some 0))
    | _, _ => .next s

/-! ## Towpath: planes and credits (R28, R71, R75) -/

def State.badPlane (s : State) (p : Nat) (b : Bool) : Bool :=
  s.flag (TOW_PORT_STAT p) (if b then Fld.TOW_PORT_STAT_B_BAD else Fld.TOW_PORT_STAT_A_BAD)

/-- A CRC error at a port: the 16th of a plane in one voyage marks that plane of the port faulty (R341). -/
def State.flitCrcError (s : State) (p : Nat) (b : Bool) : State :=
  let n := Tbl.get 0 (if b then s.tow.errB else s.tow.errA) p + 1
  let s := s.modTow fun t => if b then { t with errB := Tbl.put 0 t.errB p n } else { t with errA := Tbl.put 0 t.errA p n }
  let s := (s.logCorrected (srcId 0x04 p)).count cntTow (if b then 9 else 8)
  if n = 16 ∧ ¬ s.badPlane p b then
    let s := s.setFld (TOW_PORT_STAT p) (if b then Fld.TOW_PORT_STAT_B_BAD else Fld.TOW_PORT_STAT_A_BAD) 1
    s.setFld TOW_STATUS (if b then Fld.TOW_STATUS_B_FAULT else Fld.TOW_STATUS_A_FAULT) 1
  else s

/-! ## Delivery (R29, R121) -/

/-- The destination takes pairs of flits, by TAG bit 8 as R121 and R414 say for engines and ACQ, and DEDUCED for the ports whose
rules do not say it (log entry 249). Die links and the mirror take 24-bit words. -/
def wideAt (r : ResEntry) : Bool := !(16 ≤ r.dst && r.dst < 28) && r.dst != 29 && nbit r.tag 8

/-- A one-flit value arrives whole and with the reservation's tag. -/
def narrowOk (r : ResEntry) (f : W64) : Bool :=
  bits f.toNat 47 24 == 0xFFFFFF - bits f.toNat 23 0 && bits f.toNat 63 48 == r.tag

/-- Write a mailbox entry and its valid bit. -/
def State.mailbox (s : State) (e k : Nat) (v : W64) : State :=
  let x := s.leAt e
  (s.setLe e { x with mbox := Tbl.put 0 x.mbox (k % 256) v, mvalid := Tbl.put false x.mvalid (k % 256) true }).count (cntLe e) 10

/-- An accepted value at place `k` of its reservation reaches its destination. -/
def State.accept (s : State) (r : ResEntry) (k : Nat) (v : W64) : State :=
  if r.dst < 12 then s.mailbox r.dst (r.tag % 256 + k) v
  else if 16 ≤ r.dst ∧ r.dst < 28 then
    if s.part = .la48 then s.downWord (r.dst - 16) r.tag k (v.setWidth 24) else s
  else if r.dst = 29 then s
  else if r.dst = 31 then
    let j := (r.tag + k) % 256
    s.modAcq fun q => { q with slots := Tbl.put 0 q.slots j v, valid := addOnce q.valid j }
  else
    let key := 2 ^ 24 * r.dst + 256 * r.tag + k
    s.modTow fun t => { t with inbox := (key, v, s.tt.flightNo) :: t.inbox.filter (·.1 != key) }

/-- Replace an open reservation. -/
def State.setOpen (s : State) (o : OpenRes) : State :=
  s.modTow fun t => { t with opened := t.opened.map fun (p : OpenRes) => if p.idx = o.idx then o else p }

/-- A good flit arrives at place `k`. -/
def State.flitArrive (s : State) (o : OpenRes) (k : Nat) (f : W64) : State :=
  let r := o.res
  let s := s.count cntTow 1
  if wideAt r then
    let o' := { o with got := o.got ++ [(k, f)] }
    match o.got.find? (·.1 == k - 1) with
    | some (_, v) =>
      if k % 2 = 1 ∧ f = ~~~v then (s.setOpen { o' with ok := o.ok ++ [k - 1, k] }).accept r (k / 2) v else s.setOpen o'
    | none => s.setOpen o'
  else if narrowOk r f then
    (s.setOpen { o with got := o.got ++ [(k, f)], ok := o.ok ++ [k] }).accept r k (BitVec.signExtend 64 (f.setWidth 24))
  else s.setOpen { o with got := o.got ++ [(k, f)] }

/-- The reservation entry `r` of the section that runs. -/
def State.resAt (s : State) (r : Nat) : Option ResEntry := s.activeSec.res[r]?

/-- A plane joins the two ports of a reservation. -/
def State.planeJoins (s : State) (r : ResEntry) (b : Bool) : Bool := !(s.badPlane r.src b || s.badPlane r.dst b)

/-- The flit's first sending goes on plane B because plane A is marked faulty at a port. -/
def State.firstOnB (s : State) (r : ResEntry) : Bool := !s.planeJoins r false

/-- Some plane joins the two ports. -/
def State.joined (s : State) (r : ResEntry) : Bool := s.planeJoins r false || s.planeJoins r true

/-- The one-flit form of R29. -/
def flitOf (v tag : Nat) : W64 :=
  let v := v % 2 ^ 24
  BitVec.ofNat 64 (v + (0xFFFFFF - v) * 2 ^ 24 + tag * 2 ^ 48)

/-- The entries in which NW streams an object it holds (R240, R453). -/
def SubObj.entries (o : SubObj) : List W64 := [o.p, BitVec.ofNat 64 (o.v.toNat + 2 ^ 32 * o.a.toNat), o.fx.setWidth 64]

/-- What the unit behind a port has to send: 64-bit values and 24-bit values. none where the spec does not list what it sends. -/
def State.sends (s : State) (p : Nat) : Option (List W64 × List D24) :=
  if p = 30 then some ((List.range 16).filterMap s.latCorrection, [])
  else if p = 32 then some (s.eth.subs.toList.flatMap fun (o : Option SubObj) => (o.map SubObj.entries).getD [], [])
  else if p = 35 then
    some ([(s.reg FIO_DI).setWidth 64, (s.reg FIO_DO).setWidth 64 &&& 0xFFFF], [(s.reg FIO_DO).setWidth 24 &&& 0xFFFF])
  else if 36 ≤ p ∧ p < 42 then
    let l := (List.range 8).map fun k => (s.fbAt (8 * (p - 36) + k)).out
    some (l.flatMap fun (o : FbOut) => o.pos.toList ++ o.vt.toList, l.flatMap fun (o : FbOut) => o.angle.toList ++ o.ts.toList)
  else if 16 ≤ p ∧ p < 28 then some ([], s.dieWords (p - 16))
  else none

/-- A flit is the one that carries a value of `v` at place `k`. -/
def carries (r : ResEntry) (k : Nat) (v : List W64 × List D24) (f : W64) : Bool :=
  if wideAt r then v.1.contains (if k % 2 = 0 then f else ~~~f) else v.2.any fun d => f == flitOf d.toNat r.tag

/-- What the sender offers next, with its place in the reservation. An engine sends what its commit points published, and leaves
out the places it did not stage (R122); the basin what it delivered when the reservation opened (R231); a die link the next word of
the reservation's tag that an uplink frame brought (R21); any other sender the flit named, where it is one that the unit has to send
(R294, R322, R414, R453). -/
def State.offered (s : State) (o : OpenRes) (flit : W64) : Option (Nat × W64) :=
  let r := o.res
  if r.kind = 1 ∨ r.kind = 2 ∨ r.src = 28 then
    (s.tow.out.filter fun f => f.1 == o.idx && o.sent ≤ f.2.1).foldl (fun (b : Option (Nat × W64)) f => match b with
      | some g => if f.2.1 < g.1 then some f.2 else b
      | none => some f.2) none
  else if s.part ≠ .la48 ∧ 16 ≤ r.src ∧ r.src < 28 then
    ((s.linkAt (r.src - 16)).up.find? fun w => w.1 == r.tag).map fun w => (o.sent, flitOf w.2.1.toNat r.tag)
  else match s.sends r.src with
    | none => some (o.sent, flit)
    | some v => if carries r o.sent v flit then some (o.sent, flit) else none

/-- The word that a die link sends leaves its endpoint. -/
def State.taken (s : State) (r : ResEntry) : State :=
  if 16 ≤ r.src ∧ r.src < 28 then
    let x := s.linkAt (r.src - 16)
    s.setLink (r.src - 16) { x with up := x.up.eraseP fun w => w.1 == r.tag }
  else s

/-- The receiver of a flit finds its CRC right, or an error: then the flit is due on the other plane, if that one joins the
ports (R28). -/
def State.flitAt (s : State) (o : OpenRes) (b crcOk : Bool) (k : Nat) (flit : W64) : State :=
  if crcOk then s.flitArrive o k flit
  else (s.setOpen (if s.planeJoins o.res (!b) then { o with resend := o.resend ++ [(k, flit)] } else o)).flitCrcError o.res.dst b

/-- TOWPATH_FLIT_RECEIVE: a flit of reservation `r` is offered on a plane; `crcOk` says what the receiver finds. -/
def execTowpathFlitReceive (r : Nat) (plane : Plane) (crcOk : Bool) (flit : W64) (s : State) : Host.Outcome State Fault Refusal :=
  if !s.domOn domTP then .next s
  else match s.tow.opened.find? (·.idx == r) with
  | none =>
    match s.resAt r with
    | none => .next s
    | some e => .next (s.setFld (TOW_PORT_STAT e.src) Fld.TOW_PORT_STAT_REFUSED 1)
  | some o =>
    let e := o.res
    let b := plane == .b
    if !s.joined e then .next (s.setOpen { o with refused := true })
    else match (if b then o.resend else []) with
    | (k, v) :: l =>
      if !s.planeJoins e true then .next s
      else
        let s := (s.incFld TOW_RESENDS Fld.TOW_RESENDS_COUNT).incFld (TOW_PORT_RESENDCNT e.src) Fld.TOW_PORT_RESENDCNT_COUNT
        let s := s.count cntTow 5
        let o := { o with resend := l }
        .next (if crcOk then s.flitArrive o k v else (s.setOpen o).flitCrcError e.dst b)
    | [] =>
      if b != s.firstOnB e then .next s
      else match s.offered o flit with
      | none => .next s
      | some (k, flit) =>
        if o.tokens = 0 then .next (s.setOpen { o with refused := true })
        else
          let o := { o with tokens := o.tokens - 1, sent := k + 1 }
          let s := s.modTow fun t => { t with sentNow := Tbl.put 0 t.sentNow e.src (Tbl.get 0 t.sentNow e.src + 1) }
          let s := (s.taken e).setOpen o
          let c := s.fld (TOW_PORT_CRED e.src) Fld.TOW_PORT_CRED_VC0
          if c = 0 then .next (s.setOpen { o with waiting := o.waiting ++ [(k, flit, crcOk)] })
          else .next ((s.setFld (TOW_PORT_CRED e.src) Fld.TOW_PORT_CRED_VC0 (c - 1)).flitAt o b crcOk k flit)

/-- Depth of the receiver buffers (R75). -/
def vcDepth : Nat → Nat
  | 0 => 8 | 1 => 16 | 2 => 8 | _ => 4

/-- CREDIT_RETURN: a credit comes back; a waiting VC_0 flit of the port goes out with it (R71). -/
def execCreditReturn (p : Fin 48) (vc : Fin 4) (s : State) : Host.Outcome State Fault Refusal :=
  let p := p.val
  let f : Fld := ⟨8 * vc + 7, 8 * vc⟩
  if !s.domOn domTP || !portPresent s.part p then .next s
  else
    let c := s.fld (TOW_PORT_CRED p) f
    match (if vc = 0 then s.tow.opened.find? (fun (o : OpenRes) => o.res.src == p && !o.waiting.isEmpty) else none) with
    | some o =>
      match o.waiting with
      | [] => .next s
      | (k, v, ok) :: ws => .next (s.flitAt { o with waiting := ws } (s.firstOnB o.res) ok k v)
    | none => .next (if c < vcDepth vc then s.setFld (TOW_PORT_CRED p) f (c + 1) else s)

/-! ## Reservations (R70 to R73) -/

/-- The mailbox entries a reservation covers. -/
def covered (r : ResEntry) : List Nat :=
  (List.range (if nbit r.tag 8 then (r.flits + 1) / 2 else r.flits)).map fun k => (r.tag % 256 + k) % 256

/-- A mirror write whose every flit arrived and matched enters the array with the flight number (R67). -/
def State.mirrorWrite (s : State) (o : OpenRes) (l : LockEntry) : State :=
  if (List.range o.res.flits).all fun k => o.ok.contains k then
    let s := o.got.foldl (fun s e => s.modMirror fun m =>
      { m with words := Tbl.put 0 m.words (l.mirrorFirst + e.1) (e.2.setWidth 24), diff := Tbl.put 0 m.diff (l.mirrorFirst + e.1) 0 }) s
    s.modMirror fun m => { m with flights := Tbl.put 0 m.flights l.id s.tt.flightNo, fwd := addOnce m.fwd l.id }
  else s

/-- RESERVATION_SPAN_END: the reservation closes; a refusal is recorded once (R73). -/
def execReservationSpanEnd (r : Nat) (s : State) : Host.Outcome State Fault Refusal :=
  match s.tow.opened.find? (·.idx == r) with
  | none => .next s
  | some o =>
    let e := o.res
    let own := s.activeSec.owner r
    let s := s.modTow fun t => { t with opened := t.opened.filter (·.idx != r), out := t.out.filter (·.1 != r) }
    let s := match own with
      | some l => if e.kind = 2 ∧ e.dst = 29 then s.mirrorWrite o l else s
      | none => s
    let open_ := if e.dst < 12 then ((covered e).filter fun k => !Tbl.get false (s.leAt e.dst).mvalid k).length else 0
    let s := if open_ = 0 then s else s.count (cntLe e.dst) 11 open_
    if !(o.refused || !o.waiting.isEmpty) then .next s
    else
      let s := s.setFld (TOW_PORT_STAT e.src) Fld.TOW_PORT_STAT_REFUSED 1
      let s := match own with
        | some l => (s.setFld (TT_ENG_STAT l.engine) Fld.TT_ENG_STAT_REFUSED 1).setFld (TT_ENG_STAT l.engine) Fld.TT_ENG_STAT_LAST_LOCK l.id
        | none => s
      let s := s.incFld (TOW_PORT_REFCNT e.src) Fld.TOW_PORT_REFCNT_COUNT
      let s := s.count cntTow 6
      .next (s.logContained (srcId 0x04 e.src) .log [] (BitVec.ofNat 32 (e.src * 65536 + e.tag)))

/-! ## State mirror (R340, R344) -/

/-- The lock as the alternate for its engine places it. -/
def Image.replicaOf (g : Image) (id : Nat) : Option (LockEntry × LockEntry) :=
  match (g.sec 0).locks.find? fun l => l.id == id && l.kind == 0 with
  | none => none
  | some l => ((g.sec (l.engine + 1)).locks.find? fun a => a.id == id && a.engine == g.spare).map fun a => (l, a)

end Sys2Proof.Machine
end

