-- ==== Sys2Proof/Machine/Flags.lean ====
section
/-! DEFINITION. Flag computations of both Hermisil profiles: SR of the loop profile (R96, R118), the flags of ST of the supervisor
profile (R387, R407). A flag result is a mask and a value. -/

namespace Sys2Proof.Machine

/-- Bits of SR (R96). -/
def srZ : Nat := 1
def srN : Nat := 2
def srV : Nat := 4
def srL : Nat := 8
def srMV : Nat := 16
def srDZ : Nat := 32
def srSS : Nat := 64
def srFM : Nat := 128

/-- Flags written: those of the mask take the value. -/
structure Flg where
  mask : Nat := 0
  val  : Nat := 0
  deriving DecidableEq, Repr

/-- Z and N of an exact result. -/
def flZN (v : Int) : Flg := { mask := srZ + srN, val := b2n (v == 0) * srZ + b2n (decide (v < 0)) * srN }

/-- V, and the sticky SS where a result saturated or overflowed (R118). -/
def flV (v : Bool) : Flg := { mask := srV, val := b2n v * srV }

def flSS (v : Bool) : Flg := if v then { mask := srSS, val := srSS } else {}

def flL (v : Bool) : Flg := { mask := srL, val := b2n v * srL }

def flDZ (v : Bool) : Flg := { mask := srDZ, val := b2n v * srDZ }

def flMV (v : Bool) : Flg := { mask := srMV, val := b2n v * srMV }

/-- Both. -/
def Flg.and (a b : Flg) : Flg := { mask := a.mask ||| b.mask, val := a.val ||| b.val }

/-- V and SS together. -/
def flVS (v : Bool) : Flg := (flV v).and (flSS v)

/-- Flags put into a status word. -/
def Flg.into (f : Flg) (sr : Word) : Word := BitVec.ofNat 32 ((sr.toNat &&& (0xFFFFFFFF ^^^ f.mask)) ||| (f.val &&& f.mask))

/-- The condition of a BRC over SR (R97). -/
def condHolds (c : Nat) (sr : Word) : Bool :=
  let n := sr.toNat
  let z := nbit n 0
  let neg := nbit n 1
  match c with
  | 0 => true
  | 1 => z
  | 2 => !z
  | 3 => neg
  | 4 => !neg
  | 5 => !neg && !z
  | 6 => neg || z
  | 7 => nbit n 2
  | 8 => !nbit n 2
  | 9 => nbit n 3
  | 10 => !nbit n 3
  | 11 => nbit n 4
  | 12 => !nbit n 4
  | 13 => nbit n 5
  | 14 => !nbit n 5
  | _ => false

/-- The flags of ST (R407) as SR has them: Z, N and V. -/
def stAsSr (st : Word) : Word :=
  let n := st.toNat
  BitVec.ofNat 32 (b2n (nbit n 3) * srZ + b2n (nbit n 2) * srN + b2n (nbit n 1) * srV)

/-- The condition of a BRC over ST (R387): 0 to 8 as over SR, 9 LO, 10 HS. -/
def svCond (c : Nat) (st : Word) : Bool :=
  if c = 9 then nbit st.toNat 0 else if c = 10 then !nbit st.toNat 0 else condHolds c (stAsSr st)

/-- Z and N of a result put into ST. -/
def stZN (st : Word) (v : Int) : Word :=
  BitVec.ofNat 32 ((st.toNat &&& 0xFFFFFFF3) + b2n (v == 0) * 8 + b2n (decide (v < 0)) * 4)

/-- C put into ST. -/
def stC (st : Word) (c : Bool) : Word := BitVec.ofNat 32 ((st.toNat &&& 0xFFFFFFFE) + b2n c)

/-- Signed value of a word, of a 24-bit and of a 56-bit register. -/
def sx (v : Word) : Int := v.toInt
def sd (v : D24) : Int := v.toInt
def sa (v : BitVec 56) : Int := v.toInt

/-- An exact value as a 24-bit result, wrapping: value, overflow. -/
def wrap24 (v : Int) : D24 × Bool := (BitVec.ofInt 24 v, sat24 v != v)

/-- An exact value saturated to 24 bits: value, saturated. -/
def clip24 (v : Int) : D24 × Bool := (BitVec.ofInt 24 (sat24 v), sat24 v != v)

/-- An exact value as a 56-bit accumulator, wrapping (R102): value, overflow. -/
def wrap56 (v : Int) : BitVec 56 × Bool := (BitVec.ofInt 56 v, decide (v < -(2 ^ 55) ∨ 2 ^ 55 ≤ v))

/-- sat of SAT (R118): into −1 to 1 − 2^−47 of Q9.47. -/
def sat47 (v : Int) : Int := clampI (-(2 ^ 47)) (2 ^ 47 - 1) v

end Sys2Proof.Machine
end

