-- ==== Sys2Proof/Machine/Operands.lean ====
section
/-! DEFINITION. Operands of the loop profile: the fields of an instruction word and their legality (R92 to R94, R118, R119), the
register files (R95), circular addressing (R98), results under way (R105, R107) and memory as a lock sees it (R66). -/

namespace Sys2Proof.Machine
open Sys2Proof.Machine.Reg

/-! ## Fields of an instruction word (R92) -/

def insOp (w : Nat) : Nat := bits w 31 26
def insRd (w : Nat) : Nat := bits w 25 22
def insRa (w : Nat) : Nat := bits w 21 18
def insRb (w : Nat) : Nat := bits w 17 14
def insRc (w : Nat) : Nat := bits w 13 10
def insFn (w : Nat) : Nat := bits w 9 0
def insImm (w : Nat) : Nat := bits w 17 0

/-- The fn value of an operation of 5 bits; its sh field must be 0 but for an immediate shift. -/
def fn5Ok (fn : Nat) (top : Nat) : Bool := fn % 32 ≤ top && (fn < 32 || (10 ≤ fn % 32 && fn % 32 ≤ 12))

/-- The shift of SHA in fn[9:4]. -/
def shaShift (fn : Nat) : Int := sxt 6 (fn / 16)

/-- The loop profile's instruction words (R93, R94). -/
def leLegal (w : Nat) : Bool :=
  let rd := insRd w
  let ra := insRa w
  let rb := insRb w
  let fn := insFn w
  let rest := w % 2 ^ 26
  match insOp w with
  | 0x00 => rest == 0
  | 0x01 => fn5Ok fn 12
  | 0x02 => true
  | 0x03 => ra == 0
  | 0x04 => ra == 0
  | 0x05 => fn % 32 ≤ 14 && (fn < 32 || fn % 32 == 10 || fn % 32 == 11)
  | 0x06 => ra == 0
  | 0x07 => fn < 256 && fn % 16 ≤ 4 && fn / 16 ≤ 5 && (fn % 16 != 2 && fn % 16 != 3 || rd < 8) && (fn / 16 != 2 && fn / 16 != 3 || ra < 8)
  | 0x08 => fn < 32 && fn / 2 ≤ 8 && ra < 4
  | 0x09 =>
    rd < 4 && (match fn % 16 with
    | 0 => fn < 16
    | 1 => fn < 16
    | 2 => fn < 16 && ra < 4 && rb < 4
    | 3 => fn < 16 && ra < 4 && rb < 4
    | 4 => ra < 4 && decide (-32 ≤ shaShift fn) && decide (shaShift fn ≤ 8)
    | 5 => fn < 16 && ra < 4
    | 6 => fn < 16 && ra < 4
    | _ => false)
  | 0x0A => true
  | 0x0B => true
  | 0x0C => true
  | 0x0D => bits w 24 24 == 0 && bits w 20 20 == 0 && bits w 16 16 == 0
  | 0x0E => w % 2 ^ 18 == 0
  | 0x0F => 1 ≤ bits w 7 4
  | 0x10 => fn == 0
  | 0x11 => fn == 0
  | 0x12 => fn == 0
  | 0x13 => fn == 0 && rd % 2 == 0
  | 0x14 => fn ≤ 1 && rd % 2 == 0
  | 0x15 => fn == 0 && rd % 2 == 0 && ra % 2 == 0 && rb % 2 == 0
  | 0x16 => fn == 0 && rd % 2 == 0 && ra % 2 == 0 && rb % 2 == 0
  | 0x17 => fn == 0 && rd % 4 == 0 && ra % 2 == 0
  | 0x18 => fn < 32 && ra % 2 == 0 && rb % 2 == 0
  | 0x19 => fn ≤ 1 && rd % 2 == 0 && ra % 2 == 0 && rb % 2 == 0
  | 0x1A => rd < 8
  | 0x20 => true
  | 0x21 => true
  | 0x22 => true
  | 0x23 => true
  | 0x24 => true
  | 0x25 => rd % 2 == 0
  | 0x26 => true
  | 0x27 => ra == 0 && insImm w == 0
  | 0x28 => ra == 0 && insImm w == 0 && rd % 2 == 0
  | 0x30 => rd != 15
  | 0x31 => rd == 0
  | 0x32 => fn == 0
  | 0x33 => w % 512 == 0 && (nbit w 25 || 1 ≤ bits w 20 9)
  | 0x34 => 2 ≤ w % 512 && (nbit w 25 || 1 ≤ bits w 20 9)
  | 0x35 => rest == 0
  | 0x38 => rest == 0
  | 0x39 => rest == 0
  | 0x3A => rest == 0
  | _ => false

/-! ## Registers of the settled bank -/

def LeBank.xr (b : LeBank) (r : Nat) : Word := vget b.x 0 r
def LeBank.dr (b : LeBank) (r : Nat) : D24 := vget b.d 0 r
def LeBank.ar (b : LeBank) (r : Nat) : BitVec 56 := vget b.a 0 r
def LeBank.pr (b : LeBank) (r : Nat) : BitVec 14 := vget b.p 0 r

/-- A register pair, the second register in the upper half. -/
def LeBank.pair (b : LeBank) (r : Nat) : Nat := (b.xr r).toNat + 2 ^ 32 * (b.xr (r + 1)).toNat

/-- SR.FM (R96). -/
def LeBank.frac (b : LeBank) : Bool := nbit b.sr.toNat 7

/-- A post-modify of Pi by a step (R98). A LEN above 8,192 is not defined: the pointer is then free. -/
def LeBank.stepped (b : LeBank) (i : Nat) (step : Int) (free : Nat) : BitVec 14 :=
  let p : Nat := (b.pr i).toNat
  let base : Nat := (vget b.pb 0 i).toNat
  let len := bits (vget b.m 0 i).toNat 29 16
  if len = 0 then BitVec.ofInt 14 (p + step)
  else if 8192 < len then BitVec.ofNat 14 free
  else
    let o : Nat := (p + 16384 - base) % 16384
    BitVec.ofNat 14 (base + (((o : Int) + step) % (len : Int)).toNat)

/-- Pi post-modified by Mi. -/
def LeBank.post (b : LeBank) (i free : Nat) : LeBank :=
  { b with p := b.p.setIfInBounds i (b.stepped i (sxt 14 (vget b.m 0 i).toNat) free) }

/-- Pi loaded: PBi takes the same value (R98). -/
def LeBank.loadP (b : LeBank) (i : Nat) (v : BitVec 14) : LeBank :=
  { b with p := b.p.setIfInBounds i v, pb := b.pb.setIfInBounds i v }

/-! ## Results under way (R105, R107) -/

/-- The word lies in the persistent state region of a lock (R66). -/
def inState (l : LockEntry) (a : Nat) : Bool := l.stateBase ≤ a && a < l.stateBase + l.stateWords

/-- A result reaches its register or memory word. -/
def Le.land (x : Le) (r : LeRes) : Le :=
  match r with
  | .x r v => { x with bank := { x.bank with x := x.bank.x.set r v } }
  | .d r v => { x with bank := { x.bank with d := x.bank.d.set r v } }
  | .a r v => { x with bank := { x.bank with a := x.bank.a.set r v } }
  | .sr m v => { x with bank := { x.bank with sr := (x.bank.sr &&& ~~~m) ||| (v &&& m), fl := (x.bank.fl &&& ~~~m) ||| (v &&& m) } }
  | .srMove m v => { x with bank := { x.bank with sr := (x.bank.sr &&& ~~~m) ||| (v &&& m) } }
  | .mem a v =>
    match x.run with
    | some r =>
      if inState r.lock a.toNat then { x with run := some { r with state := Tbl.insert r.state a.toNat v } }
      else { x with data := Tbl.put 0 x.data a.toNat v }
    | none => { x with data := Tbl.put 0 x.data a.toNat v }

/-- Results whose issue cycle has come reach their registers, oldest first. -/
def Le.settle (x : Le) (cyc : Nat) : Le :=
  (x.pend.filter fun p => p.due ≤ cyc).foldl (fun x p => x.land p.res) { x with pend := x.pend.filter fun p => cyc < p.due }

/-- Every result under way reaches its register or word (R116). -/
def Le.flush (x : Le) : Le := x.pend.foldl (fun x p => x.land p.res) { x with pend := [] }

/-- Memory writes under way are taken in (R66). -/
def Le.flushMem (x : Le) : Le :=
  let isMem (p : LePend) : Bool := match p.res with
    | .mem _ _ => true
    | _ => false
  (x.pend.filter isMem).foldl (fun x p => x.land p.res) { x with pend := x.pend.filter fun p => !isMem p }

/-- Two results write the same register whole. -/
def sameReg (a b : LeRes) : Bool :=
  match a, b with
  | .x r _, .x q _ => r == q
  | .d r _, .d q _ => r == q
  | .a r _, .a q _ => r == q
  | _, _ => false

/-- The issue cycle at hand. -/
def Le.now (x : Le) : Nat := match x.run with
  | some r => r.cyc
  | none => 0

/-- An instruction of `c` cycles gives a result usable at i+n. A younger result replaces an older one still under way to the
same register. -/
def Le.late (x : Le) (c n : Nat) (r : LeRes) : Le :=
  let due := x.now + c - 1 + n
  { x with pend := (x.pend.filter fun p => !(sameReg p.res r && due ≤ p.due)) ++ [{ due := due, res := r }] }

/-- Results into X, D and accumulator registers, flags and memory (seen at i+3). Flags are seen at i+2: R105 says so of a BRC; DESIGN
CHOICE (log entry 264): a MOVE from SR sees the flags of an ordinary instruction then too, not before. -/
def Le.toX (x : Le) (c n r : Nat) (v : Word) : Le := if h : r < 16 then x.late c n (.x ⟨r, h⟩ v) else x
def Le.toD (x : Le) (c n r : Nat) (v : D24) : Le := if h : r < 16 then x.late c n (.d ⟨r, h⟩ v) else x
def Le.toA (x : Le) (r : Nat) (v : BitVec 56) : Le := if h : r < 4 then x.late 1 2 (.a ⟨r, h⟩ v) else x
def Le.toF (x : Le) (c : Nat) (f : Flg) : Le :=
  if f.mask = 0 then x else x.late c 2 (.sr (BitVec.ofNat 32 f.mask) (BitVec.ofNat 32 f.val))
def Le.toM (x : Le) (c : Nat) (a : Nat) (v : D24) : Le := x.late c 3 (.mem (BitVec.ofNat 14 a) v)

/-- An accumulator as an accumulating multiply sees it: with results under way (accumulate forwarding, R105). -/
def Le.accFwd (x : Le) (r : Nat) : BitVec 56 :=
  x.pend.foldl (fun v p => match p.res with
    | .a q w => if q.val = r then w else v
    | _ => v) (x.bank.ar r)

/-! ## Memory as the lock sees it -/

/-- A data-memory word as a load of the engine reads it, table bank B where `b`: the staged value of a state word where one
exists (R66). -/
def Le.peek (x : Le) (b : Bool) (a : Nat) : D24 :=
  let a := a % 16384
  let raw : D24 := if a < 0x2000 then Tbl.get 0 x.data a
    else if b then Tbl.get 0 x.tblB (a % 0x2000) else Tbl.get 0 x.tblA (a % 0x2000)
  match x.run with
  | some r => if inState r.lock a then (Tbl.find? r.state a).getD raw else raw
  | none => raw

/-- What an instruction does: a kernel fault, or its cycles and the engine after it. -/
inductive LeOut where
  | kf (cause : Nat)
  | ok (cycles : Nat) (x : Le)

/-- A store of one word: cause 0x03 in the table area. -/
def Le.storeWord (x : Le) (c a : Nat) (v : D24) : Option Le := if 8192 ≤ a % 16384 then none else some (x.toM c (a % 16384) v)

end Sys2Proof.Machine
end

