-- ==== Sys2Proof/Machine/Engine.lean ====
section
/-! DEFINITION. A loop engine and its lock-keeper: the start of a lock, the issue of an instruction, cut-offs and kernel faults,
commit points, the end of a lock, the loss of an engine, debug (R60 to R69, R105 to R117, R121 to R123, R130 to R132, R343). -/

namespace Sys2Proof.Machine
open Sys2Proof.Machine.Reg

/-- The engine is halted on a debug event. -/
def State.leHalted (s : State) (e : Nat) : Bool := s.flag (ENG_DBG e) Fld.ENG_DBG_HALTED

def State.leDbg (s : State) (e : Nat) : Bool := s.flag (ENG_DBG e) Fld.ENG_DBG_DBG_EN

/-! ## Histograms (R412) -/

/-- The bin of a measured value. -/
def histBin (v shift : Nat) : Nat := if v < 2 ^ shift then 0 else Nat.min 15 (Nat.log2 v - shift + 1)

/-- A value is measured: kind and selector of the source, `any` where the histogram takes every source. -/
def State.measure (s : State) (kind v : Nat) (sel : Nat → Bool) : State :=
  s.each 8 fun s h =>
    if s.fld (HIST_CFG h) Fld.HIST_CFG_KIND = kind ∧ sel (s.fld (HIST_CFG h) Fld.HIST_CFG_SEL) then
      s.incFld (HIST_BIN h (histBin v (s.fld (HIST_CFG h) Fld.HIST_CFG_SHIFT))) ⟨31, 0⟩
    else s

/-! ## Cut-offs and kernel faults (R62, R68, R69, R113 to R116, R131) -/

/-- The contained or corrected fault of a missed deadline (R68). A LIMIT of 0 acts as 1. -/
def State.missed (s : State) (e id : Nat) : State :=
  let lim := Nat.max 1 (s.fld TT_OVR_LIMIT Fld.TT_OVR_LIMIT_LIMIT)
  let n := Tbl.get 0 s.tt.cutRuns id + 1
  if lim ≤ n then
    (s.modTt fun t => { t with cutRuns := Tbl.put 0 t.cutRuns id 0 }).logContained (srcId 0x05 e) .log [] (BitVec.ofNat 32 id)
  else (s.modTt fun t => { t with cutRuns := Tbl.put 0 t.cutRuns id n }).logCorrected (srcId 0x05 e)

/-- The record of R131. -/
def State.engRecord (s : State) (e cause id : Nat) (b : LeBank) : State :=
  if s.flag (ENG_FAULT e) Fld.ENG_FAULT_VALID then s
  else ((s.setReg (ENG_FAULT e) (BitVec.ofNat 32 (id * 65536 + 256 + cause))).setReg (ENG_FAULT_PC e) (b.pc.setWidth 32)).setReg
    (ENG_FAULT_SR e) (b.sr &&& 0xFF)

/-- The running lock of LE_e is cut off: causes 0x80 to 0x83, or a kernel fault. -/
def State.cutOff (s : State) (e cause : Nat) : State :=
  let x := s.leAt e
  match x.run with
  | none => s
  | some r =>
    let y := x.flush
    let sh : LeBank := { y.shadow with pc := if cause < 0x80 then 0x8010 else 0x8000 }
    let s := s.setLe e { y with run := none, ds := none, rep := none, frozen := true, shadow := sh }
    if r.lock.kind ≠ 0 then s.incFld (TT_ENG_TESTCNT e) ⟨31, 0⟩
    else
      let s := s.count (cntLe e) (if cause < 0x80 then 5 else 4)
      let s := s.engRecord e cause r.lock.id y.bank
      let s := (s.incFld (TT_ENG_OVRCNT e) ⟨31, 0⟩).setFld (TT_ENG_STAT e) Fld.TT_ENG_STAT_OVR 1
      let s := s.setFld (TT_ENG_STAT e) Fld.TT_ENG_STAT_LAST_LOCK r.lock.id
      let s := if cause = 0x81 then s.setFld (TT_ENG_STAT e) Fld.TT_ENG_STAT_LATE 1
        else if cause = 0x82 then s.setFld (TT_ENG_STAT e) Fld.TT_ENG_STAT_EXCESS 1 else s
      s.missed e r.lock.id

/-- LOCK_CUT_OFF: the lock needs a cycle with no token left, or engine memory has an ECC error that cannot be corrected. That error is a
contained fault of the engine (R341), of the in-service test in an idle lock (R353), beside the cut-off. -/
def execLockCutOff (e : Fin 12) (ecc : Bool) (s : State) : Host.Outcome State Fault Refusal :=
  match (s.leAt e).run with
  | none => .next s
  | some r =>
    if s.leHalted e then .next s
    else if ecc then .next ((s.cutOff e 0x83).logContained (if r.lock.kind = 0 then srcId 0x01 e else srcId 0x13 0x01))
    else if r.tokens = 0 then .next (s.cutOff e 0x80) else .next s

/-! ## Entry points of the loop ROM (R128) -/

/-- The kernels a lock may enter, as instruction addresses. -/
def romEntries : List Nat :=
  [0x8020, 0x8100, 0x8180, 0x8200, 0x8280, 0x8290, 0x82A0, 0x82C0, 0x8300, 0x8380, 0x8400, 0x8480, 0x8500]

/-! ## Lock start (R42, R45, R130) -/

/-- The register bank at lock start. -/
def startBank (l : LockEntry) (x1 x2 : Word) : LeBank :=
  let b : LeBank := {}
  { b with
    x := ((b.x.setIfInBounds 0 (BitVec.ofNat 32 l.id)).setIfInBounds 1 x1).setIfInBounds 2 x2
    p := (b.p.setIfInBounds 0 (BitVec.ofNat 14 l.stateBase)).setIfInBounds 7 0x2000
    pb := (b.pb.setIfInBounds 0 (BitVec.ofNat 14 l.stateBase)).setIfInBounds 7 0x2000
    sr := 0x80
    pc := BitVec.ofNat 16 l.entry }

/-- Modes in which planned locks run; R508 lets the others run none. -/
def lockMode : Mode → Bool
  | .commission | .run | .degraded | .safeStop => true
  | _ => false

/-- Lock `l` of the running section may start on LE_e in this flight. -/
def State.lockMayStart (s : State) (e : Nat) (l : LockEntry) (voyage : Nat) : Bool :=
  s.running && !s.tt.stepped && l.engine == e && inVoyage l.phase l.period (s.tt.flightNo % voyage) && s.domOn (domLe e) && !s.lost e &&
  !(s.leAt e).held && !s.leHalted e && !s.fc.stopped.contains (domLe e) &&
  (if l.kind = 0 then lockMode s.mode && !s.flag HOST_BOOT_STAT Fld.HOST_BOOT_STAT_RESTRICT && !s.tt.blocked.contains l.id else s.flag TT_CTRL Fld.TT_CTRL_TEST_EN)

/-- A breakpoint match (R112): the engine arrives at BP_ADDR while a lock runs and debug is enabled. The event waits until it is taken. -/
def State.bpMatch (s : State) (e : Nat) : Bool :=
  let x := s.leAt e
  x.run.isSome && s.leDbg e && s.flag (ENG_DBG e) Fld.ENG_DBG_BP_EN && s.fld (ENG_DBG e) Fld.ENG_DBG_BP_ADDR == x.bank.pc.toNat

def State.arrive (s : State) (e : Nat) : State := if s.bpMatch e then s.setLe e { s.leAt e with evt := true } else s

/-! ## Issue of an instruction -/

/-- Placement classes: repeatable (R109); not repeatable; not in a delay slot (R106); a jump, which may not stand among the last
three of a body either (R111); REP, which may not be the last of a body. -/
inductive LeClass where
  | rep | plain | flow | jump | repeater
  deriving DecidableEq, Repr

/-- The last instruction of the innermost body. -/
def Le.atEnd (x : Le) (pc : Nat) : Bool :=
  match x.bank.loops with
  | l :: _ => l.fin == pc
  | [] => false

/-- Placement faults (cause 0x05). -/
def Le.misplaced (x : Le) (k : LeClass) (pc : Nat) : Bool :=
  (x.ds.isSome && (x.atEnd pc || (k != .rep && k != .plain))) ||
  (x.rep.isSome && k != .rep) ||
  (k == .jump && x.bank.loops.any fun l => l.sta ≤ pc && pc ≤ l.fin && l.fin < pc + 3) ||
  (k == .repeater && x.atEnd pc)

/-- The address after `pc` with the loop stack: the body of a level whose end is reached starts again or its level is popped. -/
def afterLoops : List LoopLvl → Nat → Nat × List LoopLvl
  | [], pc => (pc + 1, [])
  | l :: t, pc =>
    if l.fin ≠ pc then (pc + 1, l :: t)
    else if 1 < l.cnt then (l.sta, { l with cnt := l.cnt - 1 } :: t)
    else afterLoops t pc

/-- The engine goes to an address; an entry point of the loop ROM runs its kernel as if called (R129). -/
def Le.goto (x : Le) (pc : Nat) : Le :=
  let pc := pc % 65536
  let x := { x with bank := { x.bank with pc := BitVec.ofNat 16 pc } }
  if romEntries.contains pc then { x with run := x.run.map fun r => { r with rom := some pc, called := true } } else x

/-- The engine goes on after the instruction at `pc`. -/
def Le.advance (x : Le) (pc : Nat) : Le :=
  match x.ds with
  | some d =>
    if 1 < d.left then { x with ds := some { d with left := d.left - 1 } }.goto (pc + 1)
    else match d.target with
      | some t => { x with ds := none }.goto t.toNat
      | none => { x with ds := none }.goto (pc + 1)
  | none =>
    let n := afterLoops x.bank.loops pc
    { x with bank := { x.bank with loops := n.2 } }.goto n.1

/-- One repetition is done, or the instruction is. -/
def Le.done (x : Le) (pc : Nat) : Le :=
  match x.rep with
  | some n => if 1 < n then { x with rep := some (n - 1) } else { x with rep := none }.advance pc
  | none => x.advance pc

/-- Tokens and cycles of an instruction are spent (R60). -/
def LeRun.spend (r : LeRun) (c : Nat) : LeRun := { r with cyc := r.cyc + c, tokens := r.tokens - c }

/-- The engine has a lock whose own code runs: not halted, not in a kernel of the loop ROM. -/
def State.leIssues (s : State) (e : Nat) : Bool :=
  match (s.leAt e).run with
  | some r => r.rom.isNone && !s.leHalted e && !s.fc.stopped.contains (domLe e)
  | none => false

/-- The engine as its next instruction finds it. -/
def State.leReady (s : State) (e : Nat) : Le := let x := s.leAt e; x.settle x.now

/-- Instruction addresses (R124). -/
def fetchOk (pc : Nat) : Bool := pc < 0x2000 || (0x8020 ≤ pc && pc < 0xC000)

/-- LE_e issues an instruction of class `k` whose operation is `f`: a function of the table bank, a free value and the engine.
`macs` counts MAC unit operations. `stay` is true where the operation sets the next address itself. -/
def State.leIns (s : State) (e : Nat) (k : LeClass) (f : Bool → Nat → Le → LeOut) (macs : Nat := 0) (stay : Bool := false) : State :=
  if !s.leIssues e then s
  else
    let x := s.leReady e
    let pc := x.bank.pc.toNat
    match x.run with
    | none => s
    | some r =>
      if r.tokens = 0 then s.cutOff e 0x80
      else if !fetchOk pc then s.cutOff e 0x02
      else if x.misplaced k pc then s.cutOff e 0x05
      else match f s.bankB s.fresh x with
        | .kf c => s.cutOff e c
        | .ok c y =>
          if r.tokens < c then s.cutOff e 0x80
          else
            let y := { y with run := y.run.map fun (q : LeRun) => q.spend c }
            let y := if stay then y else y.done pc
            let y := { y with evt := y.evt || y.stepOne, stepOne := false }
            let s := ((s.setLe e y).arrive e).useFree
            let s := s.count (cntLe e) 1
            if macs = 0 then s else s.count (cntLe e) 8 macs

/-! ## Commit points (R64 to R66, R119, R122) -/

/-- The flits of a staged word: a value that the tag of its reservation completes to the one-flit form of R29, or a value and
its complement. -/
def stagedFlits (f : StagedFlit) : List (Bool × W64 × Option Nat) :=
  if f.wide then [(true, f.data, none), (true, ~~~f.data, none)] else [(false, f.data, f.word)]

/-- Flits of a word in the staging. -/
def StagedFlit.size (f : StagedFlit) : Nat := if f.wide then 2 else 1

/-- The output reservations of a commit point in RES_FIRST order, each with its index. -/
def Section.outputs (c : Section) (l : LockEntry) (k : Nat) : List (Nat × ResEntry) :=
  ((c.owned l).zipIdx l.resFirst).filterMap fun e => if e.1.kind = 1 ∧ e.1.point = k then some (e.2, e.1) else none

/-- The i-th flit staged for a point goes out as the i-th flit of its output reservations (R122); a word of the PWM shadow that K_STEP names
goes to the place that holds it, where one of them does (R143, R277). -/
def placeFlits (outs : List (Nat × ResEntry)) (staged : List StagedFlit) : List (Nat × Nat × W64) :=
  let slots := outs.flatMap fun o => (List.range o.2.flits).map fun k => (o.1, k, o.2.tag)
  (slots.zip (staged.flatMap stagedFlits)).map fun z =>
    let f := z.2
    let at_ := (f.2.2.bind fun w => slots.find? fun o => o.2.2 / 4096 == 1 && o.2.2 % 8 + o.2.1 == w).getD z.1
    (at_.1, at_.2.1, if f.1 then f.2.1 else flitOf f.2.1.toNat at_.2.2)

/-- The mirror reservation of a lock. -/
def Section.mirrorOf (c : Section) (l : LockEntry) : Option Nat :=
  ((c.owned l).zipIdx l.resFirst).findSome? fun e => if e.1.kind = 2 then some e.2 else none

/-- Publish flits on the towpath: the newest of each place counts. -/
def State.publish (s : State) (l : List (Nat × Nat × W64)) : State :=
  s.modTow fun t => { t with out := t.out.filter (fun o => !l.any fun n => n.1 == o.1 && n.2.1 == o.2.1) ++ l }

/-- The section in which a run's lock stands. -/
def State.runSec (s : State) (r : LeRun) : Section :=
  match s.tt.image with
  | some g => g.sec r.sec
  | none => { locks := [], res := [] }

/-- The final point: the staged state region goes to data memory and to the mirror (R66). -/
def State.applyState (s : State) (e : Nat) (r : LeRun) : State :=
  let s := r.state.foldl (fun s w => s.setLeWord e (w.1 % 16384) w.2) s
  let s := match r.keep with
    | some k => s.setQueue k.1 { s.queueAt k.1 with keep := k.2 }
    | none => s
  match (s.runSec r).mirrorOf r.lock with
  | none => s
  | some m => s.publish ((List.range r.lock.stateWords).map fun k =>
      (m, k, flitOf (s.leWord e ((r.lock.stateBase + k) % 16384)).toNat ((s.runSec r).res[m]?.map ResEntry.tag |>.getD 0)))

/-- Commit point `commits` + 1 is decided. `x` is the engine with its memory writes taken in; `next` lets it go on. -/
def State.commitPoint (s : State) (e : Nat) (x : Le) (r : LeRun) (next : Le → Le) : State :=
  let k := r.commits + 1
  let c := s.runSec r
  let room : Nat := (c.outputs r.lock k).foldl (fun (n : Nat) o => n + o.2.flits) 0
  let n : Nat := r.staged.foldl (fun (n : Nat) f => n + f.size) 0
  let s := s.setLe e x
  if r.lock.ncommit < k ∨ room < n then (s.count (cntLe e) 7).cutOff e 0x82
  else if r.tokens < 2 ∨ c.deadline r.lock k < r.cyc + 2 then (s.count (cntLe e) 7).cutOff e (if r.tokens < 2 then 0x80 else 0x81)
  else
    let s := s.publish (placeFlits (c.outputs r.lock k) r.staged)
    let last : Bool := k == r.lock.ncommit
    let s := if last then s.applyState e r else s
    let y := s.leAt e
    let r' : LeRun := { r.spend 2 with commits := k, staged := [], state := if last then [] else r.state }
    let s := (s.setLe e (next { y with run := some r' })).arrive e
    let s := (s.count (cntLe e) 6).count (cntLe e) 1
    if last then
      let left := r'.tokens
      let s := if left < s.fld (TT_ENG_SLACK e) ⟨15, 0⟩ then s.setFld (TT_ENG_SLACK e) ⟨15, 0⟩ left else s
      s.measure 4 left fun sel => sel % 16 == e || sel % 16 == 15
    else s

/-- END of a run (R68, R123): tokens, staging and state that are left are forfeited. -/
def State.endRun (s : State) (e : Nat) (x : Le) (r : LeRun) : State :=
  let s := s.setLe e { x.flush.dropRun with run := none, evt := x.evt || x.stepOne, stepOne := false }
  if r.lock.kind = 0 then s.modTt fun t => { t with cutRuns := Tbl.put 0 t.cutRuns r.lock.id 0 } else s

/-! ## Loss of an engine (R117, R343) -/

/-- ENGINE_LOCKSTEP_MISMATCH. -/
def execEngineLockstepMismatch (e : Fin 12) (s : State) : Host.Outcome State Fault Refusal :=
  if !s.domOn (domLe e) || (s.leAt e).held then .next s else .next (s.engineLost e (srcId 0x01 e))

/-! ## Debug (R26, R112, R132) -/

/-- The engine resumes: its island runs again and the trigger of its channels ceases. -/
def State.leResume (s : State) (e : Nat) : State :=
  if !s.leHalted e then s
  else
    let s := s.setFld (ENG_DBG e) Fld.ENG_DBG_HALTED 0
    let s := s.modFc fun f => { f with stopped := f.stopped.filter (· != domLe e) }
    s.each 48 fun s n => s.safeCease n (.engineHalt e)

/-- A write of ENG_DBG: refused but from JTAG. -/
def State.engDbgWrite (s : State) (i : Initiator) (e : Nat) (w : Word) : State :=
  if i != .jtag then s.refuse (srcId 0x01 e)
  else
    let halted := s.leHalted e
    let s := s.plainWrite (ENG_DBG e) w
    let s := if fget w Fld.ENG_DBG_STEP = 1 then
        let s := s.setLe e { s.leAt e with stepOne := true }
        s.leResume e
      else s
    if s.leHalted e then (if fget w Fld.ENG_DBG_HALT_REQ = 0 then s.leResume e else s) else if halted then s else s.arrive e

/-- HALT_REQ: a JTAG write of ENG_DBG with HALT_REQ = 1. -/
def execHaltReq (e : Fin 12) (s : State) : Host.Outcome State Fault Refusal :=
  .next (s.access (ENG_DBG e) fun s => s.engDbgWrite .jtag e (fset (s.reg (ENG_DBG e)) Fld.ENG_DBG_HALT_REQ 1))

/-- RESUME_FROM_HALT: a JTAG write of ENG_DBG with HALT_REQ = 0. -/
def execResumeFromHalt (e : Fin 12) (s : State) : Host.Outcome State Fault Refusal :=
  .next (s.access (ENG_DBG e) fun s => s.engDbgWrite .jtag e (fset (s.reg (ENG_DBG e)) Fld.ENG_DBG_HALT_REQ 0))

/-- SINGLE_STEP: a JTAG write of ENG_DBG with STEP = 1. -/
def execSingleStep (e : Fin 12) (s : State) : Host.Outcome State Fault Refusal :=
  .next (s.access (ENG_DBG e) fun s => s.engDbgWrite .jtag e (fset (s.reg (ENG_DBG e)) Fld.ENG_DBG_STEP 1))

/-- A debug event waits: BKPT, a breakpoint match or the end of a single step, a halt request. -/
def State.leEvent (s : State) (e : Nat) : Bool := (s.leAt e).evt || s.flag (ENG_DBG e) Fld.ENG_DBG_HALT_REQ

/-- DEBUG_EVENT_TAKEN: at an instruction boundary that is no delay slot and inside no REP. -/
def execDebugEventTaken (e : Fin 12) (s : State) : Host.Outcome State Fault Refusal :=
  let x := s.leAt e
  if !s.domOn (domLe e) || x.held || s.leHalted e || !s.leDbg e || x.ds.isSome || x.rep.isSome || !s.leEvent e then .next s
  else
    let s := s.setLe e { x with evt := false }
    let s := s.setFld (ENG_DBG e) Fld.ENG_DBG_HALTED 1
    let s := s.modFc fun f => { f with stopped := addOnce f.stopped (domLe e) }
    .next ((s.planAxes e).foldl (fun s n => s.safeEnter n (.engineHalt e)) s)

/-! ## Replica writes (R108, R344) -/

/-- Replica writes can each stall a load or store of an idle lock on the spare by one cycle (R108): how many of them meet one is free.
A stall uses a token like any cycle (R60). -/
def State.leStall (s : State) (e n : Nat) : State :=
  let x := s.leAt e
  match x.run with
  | none => s
  | some r =>
    if r.lock.kind = 0 then s
    else
      let k := s.fresh % (n + 1)
      let s := s.useFree
      if r.tokens < k then s.cutOff e 0x80
      else s.setLe e { x with run := some { r with tokens := r.tokens - k, cyc := r.cyc + k } }

/-- REPLICA_FORWARD: an accepted mirror write goes to the lock's replica in the spare's data memory. -/
def execReplicaForward (lockId : Nat) (s : State) : Host.Outcome State Fault Refusal :=
  if !s.mirror.fwd.contains lockId then .next s
  else
    let s := s.modMirror fun m => { m with fwd := m.fwd.filter (· != lockId) }
    match s.tt.image with
    | none => .next s
    | some g =>
      match g.replicaOf lockId with
      | none => .next s
      | some (l, a) =>
        if s.activeSec.locks.any fun (k : LockEntry) => k.id == lockId && k.engine == g.spare then .next s
        else if (List.range l.stateWords).any fun k => Tbl.get (0 : D24) s.mirror.diff (l.mirrorFirst + k) != 0 then
          .next ((s.modTt fun t => { t with stale := addOnce t.stale lockId }).logContained (srcId 0x07 0))
        else
          let s := (s.leStall g.spare l.stateWords).each l.stateWords fun s k =>
            s.setLeWord g.spare ((a.stateBase + k) % 16384) (Tbl.get 0 s.mirror.words (l.mirrorFirst + k))
          let s := s.count (cntLe g.spare) 13 l.stateWords
          .next (s.modTt fun t => { t with stale := t.stale.filter (· != lockId) })

end Sys2Proof.Machine
end

