-- ==== Sys2Proof/Machine/LoopMath.lean ====
section
/-! DEFINITION. The arithmetic of the loop profile (R100 to R104, R118, R119) on exact values: products, division, roots, the
sine table, transforms. -/

namespace Sys2Proof.Machine

/-! ## The sine table of R119 -/

/-- T[0] to T[63]. -/
def sinT0 : List Nat := [
  0, 12868, 25736, 38604, 51472, 64339, 77207, 90074, 102941, 115808, 128675, 141541, 154407, 167272, 180138, 193002,
  205867, 218731, 231594, 244457, 257319, 270180, 283041, 295902, 308761, 321620, 334478, 347336, 360192, 373048, 385903, 398757,
  411609, 424461, 437312, 450162, 463011, 475859, 488706, 501551, 514396, 527239, 540081, 552921, 565761, 578599, 591435, 604270,
  617104, 629937, 642768, 655597, 668425, 681251, 694076, 706899, 719720, 732540, 745358, 758174, 770988, 783801, 796612, 809420]

/-- T[64] to T[127]. -/
def sinT1 : List Nat := [
  822227, 835032, 847835, 860637, 873436, 886233, 899027, 911820, 924611, 937399, 950186, 962970, 975751, 988531, 1001308, 1014083,
  1026855, 1039625, 1052393, 1065158, 1077920, 1090680, 1103438, 1116193, 1128945, 1141694, 1154441, 1167185, 1179927, 1192665, 1205401, 1218134,
  1230864, 1243592, 1256316, 1269037, 1281756, 1294471, 1307183, 1319893, 1332599, 1345302, 1358001, 1370698, 1383392, 1396082, 1408769, 1421452,
  1434132, 1446809, 1459483, 1472152, 1484819, 1497482, 1510142, 1522798, 1535450, 1548099, 1560744, 1573385, 1586023, 1598657, 1611287, 1623914]

/-- T[128] to T[191]. -/
def sinT2 : List Nat := [
  1636536, 1649155, 1661770, 1674381, 1686988, 1699591, 1712190, 1724785, 1737376, 1749963, 1762546, 1775124, 1787699, 1800269, 1812835, 1825397,
  1837954, 1850508, 1863056, 1875601, 1888141, 1900676, 1913207, 1925734, 1938256, 1950773, 1963286, 1975795, 1988298, 2000797, 2013291, 2025781,
  2038265, 2050745, 2063221, 2075691, 2088156, 2100617, 2113072, 2125523, 2137968, 2150409, 2162844, 2175274, 2187700, 2200120, 2212535, 2224944,
  2237349, 2249748, 2262142, 2274530, 2286914, 2299292, 2311664, 2324031, 2336392, 2348749, 2361099, 2373444, 2385783, 2398117, 2410445, 2422768]

/-- T[192] to T[255]. -/
def sinT3 : List Nat := [
  2435084, 2447395, 2459701, 2472000, 2484294, 2496582, 2508863, 2521139, 2533410, 2545674, 2557932, 2570184, 2582430, 2594670, 2606904, 2619132,
  2631353, 2643569, 2655778, 2667981, 2680177, 2692368, 2704552, 2716729, 2728901, 2741065, 2753224, 2765376, 2777521, 2789660, 2801792, 2813918,
  2826037, 2838149, 2850255, 2862354, 2874446, 2886532, 2898611, 2910683, 2922748, 2934806, 2946857, 2958902, 2970939, 2982969, 2994993, 3007009,
  3019018, 3031021, 3043016, 3055003, 3066984, 3078958, 3090924, 3102883, 3114834, 3126779, 3138716, 3150645, 3162567, 3174482, 3186389, 3198289]

/-- T[256] to T[319]. -/
def sinT4 : List Nat := [
  3210181, 3222066, 3233943, 3245813, 3257674, 3269529, 3281375, 3293214, 3305045, 3316868, 3328683, 3340491, 3352291, 3364083, 3375867, 3387643,
  3399411, 3411171, 3422923, 3434666, 3446402, 3458130, 3469850, 3481561, 3493264, 3504959, 3516646, 3528325, 3539995, 3551657, 3563310, 3574955,
  3586592, 3598220, 3609840, 3621451, 3633054, 3644649, 3656234, 3667811, 3679380, 3690939, 3702491, 3714033, 3725567, 3737091, 3748608, 3760115,
  3771613, 3783103, 3794583, 3806055, 3817518, 3828972, 3840416, 3851852, 3863279, 3874696, 3886105, 3897504, 3908894, 3920275, 3931647, 3943009]

/-- T[320] to T[383]. -/
def sinT5 : List Nat := [
  3954362, 3965706, 3977041, 3988366, 3999682, 4010988, 4022285, 4033573, 4044851, 4056119, 4067378, 4078627, 4089867, 4101097, 4112318, 4123529,
  4134730, 4145921, 4157103, 4168275, 4179437, 4190589, 4201731, 4212864, 4223986, 4235099, 4246201, 4257294, 4268377, 4279449, 4290512, 4301564,
  4312606, 4323639, 4334661, 4345672, 4356674, 4367665, 4378646, 4389617, 4400577, 4411527, 4422467, 4433396, 4444315, 4455223, 4466121, 4477008,
  4487885, 4498752, 4509607, 4520452, 4531287, 4542111, 4552924, 4563726, 4574518, 4585298, 4596068, 4606828, 4617576, 4628314, 4639040, 4649756]

/-- T[384] to T[447]. -/
def sinT6 : List Nat := [
  4660461, 4671155, 4681838, 4692509, 4703170, 4713820, 4724459, 4735086, 4745702, 4756308, 4766902, 4777484, 4788056, 4798616, 4809165, 4819703,
  4830229, 4840744, 4851248, 4861740, 4872221, 4882690, 4893148, 4903594, 4914029, 4924452, 4934863, 4945263, 4955652, 4966028, 4976393, 4986746,
  4997088, 5007418, 5017736, 5028042, 5038336, 5048619, 5058889, 5069148, 5079395, 5089630, 5099852, 5110063, 5120262, 5130449, 5140624, 5150786,
  5160937, 5171075, 5181201, 5191315, 5201417, 5211506, 5221584, 5231649, 5241701, 5251742, 5261770, 5271785, 5281788, 5291779, 5301757, 5311723]

/-- T[448] to T[511]. -/
def sinT7 : List Nat := [
  5321677, 5331617, 5341546, 5351461, 5361364, 5371255, 5381133, 5390998, 5400850, 5410690, 5420517, 5430332, 5440133, 5449922, 5459698, 5469461,
  5479211, 5488948, 5498673, 5508384, 5518082, 5527768, 5537440, 5547100, 5556746, 5566380, 5576000, 5585607, 5595201, 5604782, 5614349, 5623904,
  5633445, 5642973, 5652487, 5661989, 5671477, 5680951, 5690413, 5699860, 5709295, 5718716, 5728124, 5737518, 5746898, 5756265, 5765619, 5774959,
  5784285, 5793598, 5802897, 5812183, 5821455, 5830713, 5839957, 5849188, 5858405, 5867608, 5876797, 5885972, 5895134, 5904282, 5913416, 5922536]

/-- T[512] to T[575]. -/
def sinT8 : List Nat := [
  5931642, 5940734, 5949812, 5958876, 5967926, 5976962, 5985984, 5994992, 6003985, 6012965, 6021930, 6030882, 6039819, 6048742, 6057650, 6066545,
  6075425, 6084291, 6093142, 6101979, 6110802, 6119611, 6128405, 6137184, 6145949, 6154700, 6163436, 6172158, 6180865, 6189558, 6198236, 6206900,
  6215549, 6224183, 6232802, 6241407, 6249998, 6258573, 6267134, 6275680, 6284212, 6292728, 6301230, 6309717, 6318189, 6326646, 6335088, 6343516,
  6351928, 6360326, 6368708, 6377076, 6385428, 6393766, 6402088, 6410396, 6418688, 6426965, 6435228, 6443475, 6451706, 6459923, 6468124, 6476311]

/-- T[576] to T[639]. -/
def sinT9 : List Nat := [
  6484482, 6492637, 6500778, 6508903, 6517013, 6525107, 6533186, 6541250, 6549299, 6557332, 6565349, 6573351, 6581338, 6589309, 6597264, 6605205,
  6613129, 6621038, 6628932, 6636809, 6644672, 6652518, 6660349, 6668164, 6675964, 6683748, 6691516, 6699268, 6707005, 6714726, 6722431, 6730120,
  6737793, 6745451, 6753092, 6760718, 6768328, 6775922, 6783500, 6791062, 6798608, 6806138, 6813652, 6821150, 6828632, 6836098, 6843547, 6850981,
  6858399, 6865800, 6873185, 6880554, 6887907, 6895244, 6902564, 6909868, 6917156, 6924428, 6931683, 6938923, 6946145, 6953352, 6960542, 6967715]

/-- T[640] to T[703]. -/
def sinT10 : List Nat := [
  6974873, 6982013, 6989138, 6996246, 7003337, 7010412, 7017471, 7024513, 7031538, 7038547, 7045540, 7052516, 7059475, 7066417, 7073343, 7080253,
  7087145, 7094021, 7100881, 7107723, 7114549, 7121358, 7128151, 7134926, 7141685, 7148427, 7155152, 7161860, 7168552, 7175227, 7181884, 7188525,
  7195149, 7201756, 7208346, 7214919, 7221475, 7228014, 7234536, 7241042, 7247530, 7254001, 7260455, 7266891, 7273311, 7279714, 7286099, 7292468,
  7298819, 7305153, 7311470, 7317769, 7324052, 7330317, 7336565, 7342795, 7349009, 7355205, 7361383, 7367545, 7373689, 7379816, 7385925, 7392017]

/-- T[704] to T[767]. -/
def sinT11 : List Nat := [
  7398092, 7404149, 7410189, 7416211, 7422216, 7428203, 7434173, 7440126, 7446061, 7451978, 7457878, 7463760, 7469625, 7475472, 7481302, 7487114,
  7492909, 7498685, 7504444, 7510186, 7515910, 7521616, 7527304, 7532975, 7538628, 7544263, 7549881, 7555480, 7561062, 7566626, 7572173, 7577701,
  7583212, 7588705, 7594180, 7599637, 7605076, 7610497, 7615901, 7621286, 7626654, 7632003, 7637335, 7642649, 7647945, 7653222, 7658482, 7663724,
  7668947, 7674153, 7679340, 7684510, 7689661, 7694795, 7699910, 7705007, 7710086, 7715147, 7720189, 7725214, 7730220, 7735208, 7740178, 7745130]

/-- T[768] to T[831]. -/
def sinT12 : List Nat := [
  7750063, 7754978, 7759875, 7764754, 7769615, 7774457, 7779281, 7784086, 7788874, 7793642, 7798393, 7803125, 7807839, 7812535, 7817212, 7821871,
  7826511, 7831133, 7835736, 7840321, 7844888, 7849436, 7853966, 7858477, 7862970, 7867444, 7871899, 7876337, 7880755, 7885155, 7889537, 7893900,
  7898244, 7902570, 7906877, 7911166, 7915436, 7919687, 7923920, 7928134, 7932329, 7936506, 7940664, 7944803, 7948924, 7953026, 7957109, 7961174,
  7965220, 7969247, 7973255, 7977245, 7981215, 7985167, 7989101, 7993015, 7996911, 8000787, 8004645, 8008485, 8012305, 8016106, 8019889, 8023653]

/-- T[832] to T[895]. -/
def sinT13 : List Nat := [
  8027397, 8031123, 8034830, 8038518, 8042188, 8045838, 8049469, 8053082, 8056675, 8060250, 8063805, 8067342, 8070859, 8074358, 8077837, 8081298,
  8084740, 8088162, 8091566, 8094950, 8098316, 8101662, 8104989, 8108297, 8111587, 8114857, 8118108, 8121339, 8124552, 8127746, 8130920, 8134076,
  8137212, 8140329, 8143427, 8146506, 8149565, 8152606, 8155627, 8158629, 8161612, 8164576, 8167520, 8170445, 8173351, 8176238, 8179105, 8181954,
  8184783, 8187592, 8190383, 8193154, 8195906, 8198639, 8201352, 8204046, 8206721, 8209376, 8212012, 8214629, 8217227, 8219805, 8222364, 8224903]

/-- T[896] to T[959]. -/
def sinT14 : List Nat := [
  8227423, 8229924, 8232405, 8234867, 8237310, 8239733, 8242137, 8244522, 8246887, 8249232, 8251558, 8253865, 8256153, 8258421, 8260669, 8262898,
  8265108, 8267298, 8269469, 8271620, 8273752, 8275864, 8277957, 8280031, 8282085, 8284119, 8286134, 8288129, 8290105, 8292062, 8293999, 8295916,
  8297814, 8299692, 8301551, 8303390, 8305210, 8307010, 8308791, 8310552, 8312294, 8314016, 8315718, 8317401, 8319064, 8320708, 8322332, 8323937,
  8325522, 8327087, 8328633, 8330159, 8331666, 8333153, 8334620, 8336068, 8337496, 8338904, 8340293, 8341663, 8343012, 8344342, 8345653, 8346943]

/-- T[960] to T[1023]. -/
def sinT15 : List Nat := [
  8348215, 8349466, 8350698, 8351910, 8353102, 8354275, 8355429, 8356562, 8357676, 8358770, 8359845, 8360900, 8361935, 8362950, 8363946, 8364922,
  8365879, 8366815, 8367733, 8368630, 8369508, 8370366, 8371204, 8372023, 8372822, 8373601, 8374360, 8375100, 8375820, 8376521, 8377201, 8377862,
  8378504, 8379125, 8379727, 8380309, 8380871, 8381414, 8381937, 8382440, 8382924, 8383388, 8383832, 8384256, 8384660, 8385045, 8385410, 8385756,
  8386082, 8386387, 8386674, 8386940, 8387187, 8387414, 8387621, 8387809, 8387976, 8388124, 8388253, 8388361, 8388450, 8388519, 8388569, 8388598]

/-- The pieces of the table. -/
def sinPieces : List (List Nat) := [sinT0, sinT1, sinT2, sinT3, sinT4, sinT5, sinT6, sinT7, sinT8, sinT9, sinT10, sinT11, sinT12, sinT13, sinT14, sinT15]

/-- T[k] = sin(2πk/4096) × 2^23 rounded, T[1024] = 0x7FFFFF. -/
def sinT (k : Nat) : Int := if 1024 ≤ k then 0x7FFFFF else (((sinPieces[k / 64]?).getD [])[k % 64]?).getD 0

/-- Cosine and sine of a 24-bit angle (SINCOS). -/
def sinCos (angle : Nat) : Int × Int :=
  let q := bits angle 23 22
  let i := bits angle 21 12
  let f : Nat := bits angle 11 0
  let s0 := sinT i + asr ((sinT (i + 1) - sinT i) * f) 12
  let c0 := sinT (1024 - i) + asr ((sinT (1023 - i) - sinT (1024 - i)) * f) 12
  match q with
  | 0 => (c0, s0)
  | 1 => (-s0, c0)
  | 2 => (-c0, -s0)
  | _ => (s0, -c0)

/-! ## Division and roots -/

/-- The largest natural number whose square is at most `n`: one bit of the result per round, from the highest. -/
def isqrtFrom (n : Nat) : Nat → Nat → Nat
  | 0, r => r
  | k + 1, r => let t := r + 2 ^ k; isqrtFrom n k (if t * t ≤ n then t else r)

/-- Floor of the square root of a number below 2^64. -/
def isqrt (n : Nat) : Nat := isqrtFrom n 32 0

/-- DIV: quotient, whether it saturated, whether the divisor was 0. -/
def divD (a b : Int) : Int × Bool × Bool :=
  if b = 0 then (if 0 ≤ a then 8388607 else -8388608, true, true)
  else
    let q := Int.fdiv (a * 8388608) b
    (sat24 q, sat24 q != q, false)

/-- NRECIP: mantissa, exponent, whether the operand was not positive. -/
def nrecipD (a : Int) : Int × Nat × Bool :=
  if a ≤ 0 then (8388607, 0, true)
  else
    let e := 22 - Nat.log2 a.toNat
    let m := a.toNat * 2 ^ e
    (Nat.min (2 ^ 45 / m) 8388607, e, false)

/-- SQRT: root, V. -/
def sqrtD (a : Int) : Int × Bool := if a < 0 then (0, true) else (isqrt (a.toNat * 8388608), false)

/-! ## Transforms -/

/-- 1/√3, 1/3 and √3/2, truncated to Q1.23. -/
def kInvSqrt3 : Int := 4843165
def kThird : Int := 2796202
def kHalfSqrt3 : Int := 7264747

/-- A saturated pair and whether either part saturated. -/
def satPair (a b : Int) : Int × Int × Bool := (sat24 a, sat24 b, sat24 a != a || sat24 b != b)

/-- CLARKE with two or three inputs. -/
def clarke (three : Bool) (a b c : Int) : Int × Int × Bool :=
  if three then satPair (asr ((2 * a - b - c) * kThird) 23) (asr ((b - c) * kInvSqrt3) 23)
  else satPair a (asr ((a + 2 * b) * kInvSqrt3) 23)

/-- PARK: d and q of (α, β) at (cos, sin). -/
def park (al be c sn : Int) : Int × Int × Bool := satPair (asr (al * c + be * sn) 23) (asr (be * c - al * sn) 23)

/-- IPARK: α and β of (d, q) at (cos, sin). -/
def ipark (d q c sn : Int) : Int × Int × Bool := satPair (asr (d * c - q * sn) 23) (asr (d * sn + q * c) 23)

/-- SVM: three duties and whether one was clamped. -/
def svm (va vb : Int) : Int × Int × Int × Bool :=
  let b := asr (-va * 4194304 + vb * kHalfSqrt3) 23
  let c := asr (-va * 4194304 - vb * kHalfSqrt3) 23
  let hi := Max.max va (Max.max b c)
  let lo := Min.min va (Min.min b c)
  let mid := asr (hi + lo) 1
  let d (v : Int) : Int := 4194304 + v - mid
  let k (v : Int) : Int := clampI 0 8388607 (d v)
  (k va, k b, k c, k va != d va || k b != d b || k c != d c)

/-- The exact product of two D registers as an accumulator takes it (R100, R101). -/
def product (frac : Bool) (a b : D24) : Int := sd a * sd b * (if frac then 2 else 1)

/-- MVA (R103): the shifted accumulator, whether it does not fit 24 bits. -/
def mvaShift (a : BitVec 56) (k : Nat) : Int × Bool :=
  let v := asr (sa a) (24 - k)
  (v, sat24 v != v)

/-- The signed value of a 64-bit number. -/
def s64 (v : Nat) : Int := sxt 64 v

/-- PERR: the error of two 64-bit positions with full scale 2^k counts. -/
def perr (a b k : Nat) : Int × Bool :=
  let e := asr (s64 (wrap 64 (s64 a - s64 b))) (9 + k)
  (sat24 e, sat24 e != e)

end Sys2Proof.Machine
end

