-- ==== Sys2Proof/Machine/LoopAlu.lean ====
section
/-! DEFINITION. The loop profile's integer, data, accumulator, multiply, transform and move instructions (R118, R119). -/

namespace Sys2Proof.Machine
open Sys2Proof.Machine.Reg

/-! ## X registers -/

/-- Xd := f(Xa, Xb) with Z and N of the signed result. -/
def leX (e : Nat) (rd ra rb : Fin 16) (n : Nat) (f : Word → Word → Word) (s : State) : State :=
  s.leIns e .rep fun _ _ x =>
    let v := f (x.bank.xr ra) (x.bank.xr rb)
    .ok 1 ((x.toX 1 n rd v).toF 1 (flZN v.toInt))

/-- Xd := f(Xa) with flags. -/
def leXi (e : Nat) (rd ra : Fin 16) (f : Word → Word) (s : State) : State := leX e rd ra ra 1 (fun a _ => f a) s

/-- Shift amount in a register. -/
def shAmt (b : Word) : Nat := b.toNat % 32

def leCmp (e : Nat) (ra rb : Fin 16) (s : State) : State :=
  s.leIns e .rep fun _ _ x => .ok 1 (x.toF 1 (flZN (sx (x.bank.xr ra) - sx (x.bank.xr rb))))

def leLi (e : Nat) (rd : Fin 16) (imm : BitVec 18) (s : State) : State :=
  s.leIns e .rep fun _ _ x => .ok 1 (x.toX 1 1 rd (imm.signExtend 32))

def leLui (e : Nat) (rd : Fin 16) (imm : BitVec 18) (s : State) : State :=
  s.leIns e .rep fun _ _ x => .ok 1 (x.toX 1 1 rd (BitVec.ofNat 32 (imm.toNat * 2 ^ 14 + (x.bank.xr rd).toNat % 2 ^ 14)))

/-- ADD64, SUB64: pairs modulo 2^64. -/
def leX64 (e : Nat) (rd ra rb : Fin 16) (f : Int → Int → Int) (s : State) : State :=
  s.leIns e .rep fun _ _ x =>
    if rd.val % 2 + ra.val % 2 + rb.val % 2 ≠ 0 then .kf 1
    else
      let v := wrap 64 (f (s64 (x.bank.pair ra)) (s64 (x.bank.pair rb)))
      .ok 1 (((x.toX 1 1 rd (BitVec.ofNat 32 v)).toX 1 1 (rd + 1) (BitVec.ofNat 32 (v / 2 ^ 32))).toF 1 (flZN (s64 v)))

def execAdd64 (e : Fin 12) (rd ra rb : Fin 16) (s : State) : Host.Outcome State Fault Refusal := .next (leX64 e rd ra rb (· + ·) s)
def execSub64 (e : Fin 12) (rd ra rb : Fin 16) (s : State) : Host.Outcome State Fault Refusal := .next (leX64 e rd ra rb (· - ·) s)

/-! ## D registers -/

/-- Dd := a value, with flags. -/
def leD (e : Nat) (rd : Fin 16) (f : LeBank → D24 × Flg) (s : State) : State :=
  s.leIns e .rep fun _ _ x => let v := f x.bank; .ok 1 ((x.toD 1 1 rd v.1).toF 1 v.2)

/-- A wrapping sum: Z and N of the result, V. -/
def wrapD (v : Int) : D24 × Flg := let r := wrap24 v; (r.1, (flZN (sd r.1)).and (flV r.2))

/-- A saturating result: Z and N of the result, V and SS. -/
def satD (v : Int) : D24 × Flg := let r := clip24 v; (r.1, (flZN (sd r.1)).and (flVS r.2))

/-- A result that fits: Z and N. -/
def plainD (v : D24) : D24 × Flg := (v, flZN (sd v))

def execAddD (e : Fin 12) (rd ra rb : Fin 16) (s : State) : Host.Outcome State Fault Refusal :=
  .next (leD e rd (fun b => wrapD (sd (b.dr ra) + sd (b.dr rb))) s)
def execSubD (e : Fin 12) (rd ra rb : Fin 16) (s : State) : Host.Outcome State Fault Refusal :=
  .next (leD e rd (fun b => wrapD (sd (b.dr ra) - sd (b.dr rb))) s)
def execAddS (e : Fin 12) (rd ra rb : Fin 16) (s : State) : Host.Outcome State Fault Refusal :=
  .next (leD e rd (fun b => satD (sd (b.dr ra) + sd (b.dr rb))) s)
def execSubS (e : Fin 12) (rd ra rb : Fin 16) (s : State) : Host.Outcome State Fault Refusal :=
  .next (leD e rd (fun b => satD (sd (b.dr ra) - sd (b.dr rb))) s)
def execNeg (e : Fin 12) (rd ra : Fin 16) (s : State) : Host.Outcome State Fault Refusal :=
  .next (leD e rd (fun b => satD (-sd (b.dr ra))) s)
def execAbs (e : Fin 12) (rd ra : Fin 16) (s : State) : Host.Outcome State Fault Refusal :=
  .next (leD e rd (fun b => satD (sd (b.dr ra)).natAbs) s)
def execMin (e : Fin 12) (rd ra rb : Fin 16) (s : State) : Host.Outcome State Fault Refusal :=
  .next (leD e rd (fun b => plainD (if sd (b.dr ra) ≤ sd (b.dr rb) then b.dr ra else b.dr rb)) s)
def execMax (e : Fin 12) (rd ra rb : Fin 16) (s : State) : Host.Outcome State Fault Refusal :=
  .next (leD e rd (fun b => plainD (if sd (b.dr rb) ≤ sd (b.dr ra) then b.dr ra else b.dr rb)) s)

/-- CLAMP: L where it changed its input. -/
def execClamp (e : Fin 12) (rd ra rb rc : Fin 16) (s : State) : Host.Outcome State Fault Refusal :=
  .next (leD e rd (fun b =>
    let a := sd (b.dr ra)
    let v := Min.min (Max.max a (sd (b.dr rb))) (sd (b.dr rc))
    (BitVec.ofInt 24 v, (flZN v).and (flL (v != a)))) s)

def execCmpD (e : Fin 12) (ra rb : Fin 16) (s : State) : Host.Outcome State Fault Refusal :=
  .next (s.leIns e .rep fun _ _ x => .ok 1 (x.toF 1 (flZN (sd (x.bank.dr ra) - sd (x.bank.dr rb)))))

def execAsriD (e : Fin 12) (rd ra : Fin 16) (sh : Fin 32) (s : State) : Host.Outcome State Fault Refusal :=
  .next (leD e rd (fun b => plainD (BitVec.ofInt 24 (asr (sd (b.dr ra)) sh))) s)
def execShliS (e : Fin 12) (rd ra : Fin 16) (sh : Fin 32) (s : State) : Host.Outcome State Fault Refusal :=
  .next (leD e rd (fun b => satD (sd (b.dr ra) * 2 ^ sh.val)) s)
def execAndD (e : Fin 12) (rd ra rb : Fin 16) (s : State) : Host.Outcome State Fault Refusal :=
  .next (leD e rd (fun b => plainD (b.dr ra &&& b.dr rb)) s)
def execOrD (e : Fin 12) (rd ra rb : Fin 16) (s : State) : Host.Outcome State Fault Refusal :=
  .next (leD e rd (fun b => plainD (b.dr ra ||| b.dr rb)) s)
def execXorD (e : Fin 12) (rd ra rb : Fin 16) (s : State) : Host.Outcome State Fault Refusal :=
  .next (leD e rd (fun b => plainD (b.dr ra ^^^ b.dr rb)) s)

/-- LID: imm << 6. -/
def execLid (e : Fin 12) (rd : Fin 16) (imm : BitVec 18) (s : State) : Host.Outcome State Fault Refusal :=
  .next (leD e rd (fun _ => (BitVec.ofNat 24 (imm.toNat * 64), {})) s)

/-! ## MOVE (R119) -/

/-- The source of a MOVE as 32 bits; none where file or register does not exist. The loop count of an empty stack is free. -/
def moveSource (x : Le) (free : Nat) (file ra : Fin 16) : Option Word :=
  match file.val with
  | 0 => some (x.bank.xr ra)
  | 1 => some ((x.bank.dr ra).signExtend 32)
  | 2 => if ra.val < 8 then some ((x.bank.pr ra).setWidth 32) else none
  | 3 => if ra.val < 8 then some (vget x.bank.m 0 ra &&& 0x3FFF3FFF) else none
  | 4 => some (x.bank.sr &&& 0xFF)
  | 5 => match x.bank.loops with
    | l :: _ => some (BitVec.ofNat 32 l.cnt)
    | [] => some (BitVec.ofNat 32 (free % 65536))
  | _ => none

def execMove (e : Fin 12) (rd ra dst src : Fin 16) (s : State) : Host.Outcome State Fault Refusal :=
  .next (s.leIns e .rep fun _ free x =>
    match moveSource x free src ra with
    | none => .kf 1
    | some v =>
      match dst.val with
      | 0 => .ok 1 (x.toX 1 1 rd v)
      | 1 => .ok 1 (x.toD 1 1 rd (v.setWidth 24))
      | 2 => if rd.val < 8 then .ok 1 { x with bank := x.bank.loadP rd (v.setWidth 14) } else .kf 1
      | 3 => if rd.val < 8 then .ok 1 { x with bank := { x.bank with m := x.bank.m.setIfInBounds rd (v &&& 0x3FFF3FFF) } } else .kf 1
      | 4 => .ok 1 ((x.late 1 1 (.srMove 0xFF v)).late 1 2 (.sr 0x7F v))
      | _ => .kf 1)

/-- MVA (R103). -/
def execMva (e : Fin 12) (rd ra : Fin 16) (sat : Bool) (k : Fin 16) (s : State) : Host.Outcome State Fault Refusal :=
  .next (s.leIns e .rep fun _ _ x =>
    if 4 ≤ ra.val ∨ 8 < k.val then .kf 1
    else
      let v := mvaShift (x.bank.ar ra) k
      let w := if sat then sat24 v.1 else v.1
      .ok 1 ((x.toD 1 1 rd (BitVec.ofInt 24 w)).toF 1 ((flV v.2).and (flSS (sat && v.2)))))

/-! ## Accumulators -/

/-- A(rd) := an exact value modulo 2^56; a register field that is no accumulator is illegal. -/
def leA (e : Nat) (rd : Fin 16) (ok : Bool) (fl : Bool) (f : LeBank → Int) (s : State) : State :=
  s.leIns e .rep fun _ _ x =>
    if 4 ≤ rd.val ∨ !ok then .kf 1
    else
      let v := wrap56 (f x.bank)
      .ok 1 ((x.toA rd v.1).toF 1 (if fl then flVS v.2 else {}))

def execClr (e : Fin 12) (rd : Fin 16) (s : State) : Host.Outcome State Fault Refusal := .next (leA e rd true false (fun _ => 0) s)
def execLda (e : Fin 12) (rd ra : Fin 16) (s : State) : Host.Outcome State Fault Refusal :=
  .next (leA e rd true false (fun b => sd (b.dr ra) * 2 ^ 24) s)
def execAdda (e : Fin 12) (rd ra rb : Fin 16) (s : State) : Host.Outcome State Fault Refusal :=
  .next (leA e rd (ra.val < 4 && rb.val < 4) true (fun b => sa (b.ar ra) + sa (b.ar rb)) s)
def execSuba (e : Fin 12) (rd ra rb : Fin 16) (s : State) : Host.Outcome State Fault Refusal :=
  .next (leA e rd (ra.val < 4 && rb.val < 4) true (fun b => sa (b.ar ra) - sa (b.ar rb)) s)

/-- SHA: −32 to +8. -/
def execSha (e : Fin 12) (rd ra : Fin 16) (sh : BitVec 6) (s : State) : Host.Outcome State Fault Refusal :=
  let k := sh.toInt
  .next (leA e rd (ra.val < 4 && decide (k ≤ 8)) true
    (fun b => if 0 ≤ k then sa (b.ar ra) * 2 ^ k.toNat else asr (sa (b.ar ra)) (-k).toNat) s)

/-- SAT: V and SS where the value was outside −1 … 1 − 2^−47. -/
def execSat (e : Fin 12) (rd ra : Fin 16) (s : State) : Host.Outcome State Fault Refusal :=
  .next (s.leIns e .rep fun _ _ x =>
    if 4 ≤ rd.val ∨ 4 ≤ ra.val then .kf 1
    else
      let a := sa (x.bank.ar ra)
      .ok 1 ((x.toA rd (BitVec.ofInt 56 (sat47 a))).toF 1 (flVS (sat47 a != a))))

def execNega (e : Fin 12) (rd ra : Fin 16) (s : State) : Host.Outcome State Fault Refusal :=
  .next (leA e rd (ra.val < 4) true (fun b => -sa (b.ar ra)) s)

/-! ## Multiply-accumulate with moves -/

/-- A parallel move (R92): where enabled, Dd := mem[Pi] (usable at i+2), and Pi is post-modified. -/
def Le.parMove (x : Le) (b : Bool) (free : Nat) (m : Byte) : Le :=
  if !nbit m.toNat 7 then x
  else
    let i := bits m.toNat 2 0
    let v := x.peek b (x.bank.pr i).toNat
    { x.toD 1 2 (bits m.toNat 6 3) v with bank := x.bank.post i free }

/-- One multiply unit: `sign` 1 adds, −1 subtracts, 0 writes the product. The value, and whether 56 bits overflowed. -/
def Le.macUnit (x : Le) (aa dm dn : Nat) (sign : Int) : BitVec 56 × Bool :=
  let p := product x.bank.frac (x.bank.dr dm) (x.bank.dr dn)
  wrap56 (if sign = 0 then p else sa (x.accFwd aa) + sign * p)

def leMac (e : Nat) (aa : Fin 4) (dm dn : Fin 16) (m1 m2 : Byte) (sign : Int) (s : State) : State :=
  s.leIns e .rep (fun b free x =>
    let v := x.macUnit aa dm dn sign
    .ok 1 (((((x.parMove b free m1).parMove b free m2).toA aa v.1).toF 1 (flVS v.2)))) 1

def execMac (e : Fin 12) (aa : Fin 4) (dm dn : Fin 16) (m1 m2 : Byte) (s : State) : Host.Outcome State Fault Refusal :=
  .next (leMac e aa dm dn m1 m2 1 s)
def execMsu (e : Fin 12) (aa : Fin 4) (dm dn : Fin 16) (m1 m2 : Byte) (s : State) : Host.Outcome State Fault Refusal :=
  .next (leMac e aa dm dn m1 m2 (-1) s)
def execMpy (e : Fin 12) (aa : Fin 4) (dm dn : Fin 16) (m1 m2 : Byte) (s : State) : Host.Outcome State Fault Refusal :=
  .next (leMac e aa dm dn m1 m2 0 s)

/-- MAC2: both units; aa, dm and dn even. -/
def execMac2 (e : Fin 12) (aa : Fin 4) (dm dn : Fin 16) (m1 m2 : Byte) (s : State) : Host.Outcome State Fault Refusal :=
  .next (s.leIns e .rep (fun b free x =>
    if aa.val % 2 + dm.val % 2 + dn.val % 2 ≠ 0 then .kf 1
    else
      let v := x.macUnit aa dm dn 1
      let w := x.macUnit (aa + 1) (dm + 1) (dn + 1) 1
      let y := (x.parMove b free m1).parMove b free m2
      .ok 1 (((y.toA aa v.1).toA (aa + 1) w.1).toF 1 (flVS (v.2 || w.2)))) 2)

/-- TAP: coefficient at Pi, delay line at Pj; the word read moves one place on. -/
def execTap (e : Fin 12) (aa : Fin 4) (pi pj : Fin 8) (s : State) : Host.Outcome State Fault Refusal :=
  .next (s.leIns e .rep (fun b free x =>
    let c := x.peek b (x.bank.pr pi).toNat
    let t := x.peek b (x.bank.pr pj).toNat
    let after := (x.bank.stepped pj 1 free).toNat
    let v := wrap56 (sa (x.accFwd aa) + product x.bank.frac c t)
    let x := { x with bank := (x.bank.post pi free).post pj free }
    match x.storeWord 1 after t with
    | none => .kf 3
    | some x => .ok 1 ((x.toA aa v.1).toF 1 (flVS v.2))) 1)

/-! ## Selection, division, transforms -/

/-- Index of the least of the words from `p` on; ties keep the lower index. -/
def minIndex (rd : Nat → Int) (n : Nat) : Nat :=
  (List.range n).foldl (fun w i => if rd i < rd w then i else w) 0

/-- MINSEL: n = n1 + 1 words. -/
def execMinsel (e : Fin 12) (rd xr : Fin 16) (pi : Fin 8) (n1 : Fin 16) (s : State) : Host.Outcome State Fault Refusal :=
  .next (s.leIns e .plain fun b _ x =>
    if n1.val = 0 then .kf 1
    else
      let n := n1.val + 1
      let c := 1 + (n + 1) / 2
      let p := (x.bank.pr pi).toNat
      let w := minIndex (fun i => sd (x.peek b (p + i))) n
      let v := x.peek b (p + w)
      .ok c (((x.toD c 1 rd v).toX c 1 xr (BitVec.ofNat 32 w)).toF c ((flZN (sd v)).and (flL (w != 0)))))

def execDiv (e : Fin 12) (rd ra rb : Fin 16) (s : State) : Host.Outcome State Fault Refusal :=
  .next (s.leIns e .plain fun _ _ x =>
    let q := divD (sd (x.bank.dr ra)) (sd (x.bank.dr rb))
    .ok 26 ((x.toD 26 1 rd (BitVec.ofInt 24 q.1)).toF 26 ((flVS q.2.1).and (flDZ q.2.2))))

def execNrecip (e : Fin 12) (rd ra rb : Fin 16) (s : State) : Host.Outcome State Fault Refusal :=
  .next (s.leIns e .plain fun _ _ x =>
    let q := nrecipD (sd (x.bank.dr ra))
    .ok 4 (((x.toD 4 1 rd (BitVec.ofInt 24 q.1)).toX 4 1 rb (BitVec.ofNat 32 q.2.1)).toF 4 (flDZ q.2.2)))

def execSqrt (e : Fin 12) (rd ra : Fin 16) (s : State) : Host.Outcome State Fault Refusal :=
  .next (s.leIns e .plain fun _ _ x =>
    let q := sqrtD (sd (x.bank.dr ra))
    .ok 13 ((x.toD 13 1 rd (BitVec.ofInt 24 q.1)).toF 13 (flV q.2)))

/-- A pair of D results. -/
def Le.toD2 (x : Le) (c n r : Nat) (a b : Int) : Le := (x.toD c n r (BitVec.ofInt 24 a)).toD c n (r + 1) (BitVec.ofInt 24 b)

def execSincos (e : Fin 12) (rd ra : Fin 16) (s : State) : Host.Outcome State Fault Refusal :=
  .next (s.leIns e .plain fun _ _ x =>
    if rd.val % 2 ≠ 0 then .kf 1
    else let q := sinCos (x.bank.dr ra).toNat
      .ok 1 (x.toD2 1 3 rd q.1 q.2))

def execClarke (e : Fin 12) (rd ra rb rc : Fin 16) (three : Bool) (s : State) : Host.Outcome State Fault Refusal :=
  .next (s.leIns e .plain fun _ _ x =>
    if rd.val % 2 ≠ 0 then .kf 1
    else let q := clarke three (sd (x.bank.dr ra)) (sd (x.bank.dr rb)) (sd (x.bank.dr rc))
      .ok 2 ((x.toD2 2 2 rd q.1 q.2.1).toF 2 (flVS q.2.2)))

/-- PARK and IPARK on the pairs ra and rb. -/
def lePark (e : Nat) (rd ra rb : Fin 16) (f : Int → Int → Int → Int → Int × Int × Bool) (s : State) : State :=
  s.leIns e .plain fun _ _ x =>
    if rd.val % 2 + ra.val % 2 + rb.val % 2 ≠ 0 then .kf 1
    else
      let d (r : Nat) : Int := sd (x.bank.dr r)
      let q := f (d ra) (d (ra + 1)) (d rb) (d (rb + 1))
      .ok 2 ((x.toD2 2 2 rd q.1 q.2.1).toF 2 (flVS q.2.2))

def execPark (e : Fin 12) (rd ra rb : Fin 16) (s : State) : Host.Outcome State Fault Refusal := .next (lePark e rd ra rb park s)
def execIpark (e : Fin 12) (rd ra rb : Fin 16) (s : State) : Host.Outcome State Fault Refusal := .next (lePark e rd ra rb ipark s)

def execSvm (e : Fin 12) (rd ra : Fin 16) (s : State) : Host.Outcome State Fault Refusal :=
  .next (s.leIns e .plain fun _ _ x =>
    if rd.val % 4 ≠ 0 ∨ ra.val % 2 ≠ 0 then .kf 1
    else
      let q := svm (sd (x.bank.dr ra)) (sd (x.bank.dr (ra + 1)))
      .ok 3 (((x.toD2 3 2 rd q.1 q.2.1).toD 3 2 (rd + 2) (BitVec.ofInt 24 q.2.2.1)).toF 3 (flL q.2.2.2)))

def execPerr (e : Fin 12) (rd ra rb : Fin 16) (k : Fin 32) (s : State) : Host.Outcome State Fault Refusal :=
  .next (s.leIns e .plain fun _ _ x =>
    if ra.val % 2 + rb.val % 2 ≠ 0 then .kf 1
    else
      let q := perr (x.bank.pair ra) (x.bank.pair rb) k
      .ok 1 ((x.toD 1 2 rd (BitVec.ofInt 24 q.1)).toF 1 (flVS q.2)))

end Sys2Proof.Machine
end

