-- ==== Sys2Proof/Machine/LoopFlow.lean ====
section
/-! DEFINITION. The loop profile's loads, stores, mailbox and staging instructions, its control flow, and COMMIT, END and BKPT of a
lock's own code (R98, R106, R109 to R112, R118, R119, R121 to R125). -/

namespace Sys2Proof.Machine
open Sys2Proof.Machine.Reg

/-! ## Pointers, loads, stores -/

def execAddp (e : Fin 12) (rd : Fin 16) (imm : BitVec 14) (s : State) : Host.Outcome State Fault Refusal :=
  .next (s.leIns e .rep fun _ _ x =>
    if 8 ≤ rd.val then .kf 1 else .ok 1 { x with bank := x.bank.loadP rd (x.bank.pr rd + imm) })

/-- The address of a load or store, and the bank after the post-modify of mode 1. -/
def Le.address (x : Le) (post : Bool) (pi : Fin 8) (imm : BitVec 14) (free : Nat) : Nat × LeBank :=
  if post then ((x.bank.pr pi).toNat, x.bank.post pi free) else ((x.bank.pr pi + imm).toNat, x.bank)

def execLd (e : Fin 12) (rd : Fin 16) (post : Bool) (pi : Fin 8) (imm : BitVec 14) (s : State) : Host.Outcome State Fault Refusal :=
  .next (s.leIns e .rep fun b free x =>
    let a := x.address post pi imm free
    .ok 1 { x.toD 1 2 rd (x.peek b a.1) with bank := a.2 })

def execSt (e : Fin 12) (rd : Fin 16) (post : Bool) (pi : Fin 8) (imm : BitVec 14) (s : State) : Host.Outcome State Fault Refusal :=
  .next (s.leIns e .rep fun _ free x =>
    let a := x.address post pi imm free
    match x.storeWord 1 a.1 (x.bank.dr rd) with
    | none => .kf 3
    | some y => .ok 1 { y with bank := a.2 })

/-- LDX: bits 23:0 at the address, bits 31:24 in the next word (R125). -/
def execLdx (e : Fin 12) (rd : Fin 16) (post : Bool) (pi : Fin 8) (imm : BitVec 14) (s : State) : Host.Outcome State Fault Refusal :=
  .next (s.leIns e .rep fun b free x =>
    let a := x.address post pi imm free
    let v := (x.peek b a.1).toNat + 2 ^ 24 * ((x.peek b (a.1 + 1)).toNat % 256)
    .ok 1 { x.toX 1 2 rd (BitVec.ofNat 32 v) with bank := a.2 })

def execStx (e : Fin 12) (rd : Fin 16) (post : Bool) (pi : Fin 8) (imm : BitVec 14) (s : State) : Host.Outcome State Fault Refusal :=
  .next (s.leIns e .plain fun _ free x =>
    let a := x.address post pi imm free
    let v := x.bank.xr rd
    match (x.storeWord 2 a.1 (v.setWidth 24)).bind fun y => y.storeWord 2 (a.1 + 1) (BitVec.ofInt 24 (asr v.toInt 24)) with
    | none => .kf 3
    | some y => .ok 2 { y with bank := a.2 })

/-! ## Mailbox (R121) -/

/-- The entry that LDT or LDTW names. -/
def Le.entry (x : Le) (ra : Fin 16) (entry : Byte) : Nat :=
  (entry.toNat + (if ra.val = 0 then 0 else (x.bank.xr ra).toNat)) % 256

def execLdt (e : Fin 12) (rd ra : Fin 16) (entry : Byte) (s : State) : Host.Outcome State Fault Refusal :=
  .next (s.leIns e .rep fun _ _ x =>
    let n := x.entry ra entry
    .ok 1 ((x.toD 1 2 rd ((Tbl.get (0 : W64) x.mbox n).setWidth 24)).toF 1 (flMV (Tbl.get false x.mvalid n))))

def execLdtw (e : Fin 12) (rd ra : Fin 16) (entry : Byte) (s : State) : Host.Outcome State Fault Refusal :=
  .next (s.leIns e .plain fun _ _ x =>
    if rd.val % 2 ≠ 0 then .kf 1
    else
      let n := x.entry ra entry
      let v := Tbl.get (0 : W64) x.mbox n
      .ok 1 (((x.toX 1 2 rd (v.setWidth 32)).toX 1 2 (rd + 1) ((v >>> 32).setWidth 32)).toF 1 (flMV (Tbl.get false x.mvalid n))))

def execLdtv (e : Fin 12) (rd : Fin 16) (g : Fin 8) (s : State) : Host.Outcome State Fault Refusal :=
  .next (s.leIns e .plain fun _ _ x =>
    let v : Nat := (List.range 32).foldl (fun (n : Nat) k => n + b2n (Tbl.get false x.mvalid (32 * g.val + k)) * 2 ^ k) 0
    .ok 1 (x.toX 1 2 rd (BitVec.ofNat 32 v)))

/-! ## Output staging (R122) -/

/-- A word staged: cause 0x07 past 256 flits in a run. -/
def Le.stage (x : Le) (f : StagedFlit) : LeOut :=
  match x.run with
  | none => .kf 7
  | some r =>
    if 256 < r.total + f.size then .kf 7
    else .ok 1 { x with run := some { r with staged := r.staged ++ [f], total := r.total + f.size } }

/-- Flits staged count as event 9 once the instruction completed. -/
def State.countStaged (s : State) (e before : Nat) : State :=
  match (s.leAt e).run with
  | some r => if before < r.total then s.count (cntLe e) 9 (r.total - before) else s
  | none => s

/-- Flits staged so far in the run. -/
def State.stagedTotal (s : State) (e : Nat) : Nat := match (s.leAt e).run with
  | some r => r.total
  | none => 0

def execStt (e : Fin 12) (rd : Fin 16) (s : State) : Host.Outcome State Fault Refusal :=
  .next ((s.leIns e .rep fun _ _ x => x.stage { data := (x.bank.dr rd).setWidth 64, wide := false }).countStaged e (s.stagedTotal e))

def execSttw (e : Fin 12) (rd : Fin 16) (s : State) : Host.Outcome State Fault Refusal :=
  .next ((s.leIns e .plain fun _ _ x =>
    if rd.val % 2 ≠ 0 then .kf 1 else x.stage { data := BitVec.ofNat 64 (x.bank.pair rd), wide := true }).countStaged e (s.stagedTotal e))

/-! ## Branches (R97, R106) -/

/-- The two delay slots of a branch begin. -/
def Le.branch (x : Le) (target : Option (BitVec 16)) : Le :=
  { x with ds := some { left := 2, target := target } }.goto (x.bank.pc.toNat + 1)

/-- The branch target PC + off. -/
def Le.rel (x : Le) (off : BitVec 22) : BitVec 16 := x.bank.pc + off.setWidth 16

def leBrc (e : Nat) (cond : Fin 16) (off : BitVec 22) (s : State) : State :=
  s.leIns e .jump (fun _ _ x =>
    if cond.val = 15 then .kf 1
    else .ok 1 (x.branch (if condHolds cond x.bank.fl then some (x.rel off) else none))) 0 true

/-- CALL. The instruction table gives no distance for X15; DESIGN CHOICE (log entry 262): the next instruction sees it (i+1). -/
def leCall (e : Nat) (off : BitVec 22) (s : State) : State :=
  s.leIns e .jump (fun _ _ x =>
    .ok 1 ((x.toX 1 1 15 ((x.bank.pc + 3).setWidth 32)).branch (some (x.rel off)))) 0 true

def leRet (e : Nat) (ra : Fin 16) (s : State) : State :=
  s.leIns e .jump (fun _ _ x => .ok 1 (x.branch (some ((x.bank.xr ra).setWidth 16)))) 0 true

/-! ## Repeats and loops (R109 to R111) -/

/-- The count of REP and RPB. -/
def Le.loopCount (x : Le) (xc : Bool) (xs : Fin 16) (count : BitVec 12) : Nat :=
  if xc then (x.bank.xr xs).toNat % 65536 else count.toNat

def execRep (e : Fin 12) (xc : Bool) (xs : Fin 16) (count : BitVec 12) (s : State) : Host.Outcome State Fault Refusal :=
  .next (s.leIns e .repeater (fun _ _ x =>
    let n := x.loopCount xc xs count
    let pc := x.bank.pc.toNat
    if !xc ∧ n = 0 then .kf 1
    else if 4095 < n then .kf 5
    else if n = 0 then .ok 1 (x.advance (pc + 1))
    else .ok 1 ({ x with rep := some n }.goto (pc + 1))) 0 true)

def execRpb (e : Fin 12) (xc : Bool) (xs : Fin 16) (count : BitVec 12) (len : BitVec 9) (s : State) :
    Host.Outcome State Fault Refusal :=
  .next (s.leIns e .flow (fun _ _ x =>
    let n := x.loopCount xc xs count
    let pc := x.bank.pc.toNat
    if (!xc ∧ n = 0) ∨ len.toNat < 2 then .kf 1
    else if 4 ≤ x.bank.loops.length then .kf 4
    else if n = 0 then .ok 1 (x.advance (pc + len.toNat))
    else
      let l : LoopLvl := { cnt := n, sta := pc + 1, fin := pc + len.toNat }
      .ok 1 ({ x with bank := { x.bank with loops := l :: x.bank.loops } }.goto (pc + 1))) 0 true)

def execLeave (e : Fin 12) (s : State) : Host.Outcome State Fault Refusal :=
  .next (s.leIns e .flow fun _ _ x =>
    match x.bank.loops with
    | [] => .kf 4
    | _ :: t => .ok 1 { x with bank := { x.bank with loops := t } })

/-! ## COMMIT, END, BKPT -/

/-- COMMIT of a lock's own code. -/
def State.leCommit (s : State) (e : Nat) : State :=
  if !s.leIssues e then s
  else
    let x := s.leReady e
    let pc := x.bank.pc.toNat
    match x.run with
    | none => s
    | some r =>
      if r.tokens = 0 then s.cutOff e 0x80
      else if !fetchOk pc then s.cutOff e 0x02
      else if x.misplaced .flow pc then s.cutOff e 0x05
      else
        let y := x.flushMem
        match y.run with
        | none => s
        | some r =>
          s.commitPoint e y r fun z => { z.done pc with evt := z.evt || z.stepOne, stepOne := false }

/-- END of a lock's own code. -/
def State.leEnd (s : State) (e : Nat) : State :=
  if !s.leIssues e then s
  else
    let x := s.leReady e
    let pc := x.bank.pc.toNat
    match x.run with
    | none => s
    | some r =>
      if r.tokens = 0 then s.cutOff e 0x80
      else if !fetchOk pc then s.cutOff e 0x02
      else if x.misplaced .flow pc then s.cutOff e 0x05
      else if r.lock.kind = 0 ∧ r.commits < r.lock.ncommit then s.cutOff e 0x06
      else (s.endRun e x r).count (cntLe e) 1

/-- BKPT: a debug event, or nothing while DBG_EN is 0. -/
def execBkpt (e : Fin 12) (s : State) : Host.Outcome State Fault Refusal :=
  let dbg := s.leDbg e
  .next (s.leIns e .plain fun _ _ x => .ok 1 (if dbg then { x with evt := true } else x))

/-- NOP of the loop profile. -/
def leNop (e : Nat) (s : State) : State := s.leIns e .plain fun _ _ x => .ok 1 x

/-- An illegal word reaches issue (R93, R94). -/
def leIllegal (e : Nat) (w : Word) (s : State) : State :=
  if leLegal w.toNat then s else s.leIns e .rep fun _ _ _ => .kf 1

end Sys2Proof.Machine
end

