-- ==== Sys2Proof/Machine/RomFoc.lean ====
section
/-! DEFINITION. The current kernels of the loop ROM: K_FOC (R151 to R160), K_DCI (R162), K_STEP (R263 to R277). A kernel is a
function of the engine as its lock sees it: what it stores goes through the staging of R66, what it stages or returns is a list of
words (R590). -/

namespace Sys2Proof.Machine
open Sys2Proof.Machine.Reg

/-- What a kernel sees beside the engine: the table bank, its block (P0 as ENTRY, P1 as callee), the state region, X1, free
values, the flight length in ticks and the line time of the run instant, the class of the lock's channel (a stepper channel, a strong one),
whether it is external, whether EN was set since the last run, the barges of the axis and what the motion kernel keeps. -/
structure RomIn where
  bankB  : Bool
  base   : Nat
  state  : Nat
  called : Bool
  x1     : Nat
  free   : Nat → Nat
  ticks  : Nat
  run    : Nat
  step   : Bool
  strong : Bool
  ext    : Bool
  start  : Bool
  exec   : Nat → Option Desc
  keep   : LawKeep

/-- What a kernel leaves: the engine, the words it stages as ENTRY or returns from D0 on, X0 and X1, the most cycles it needs, wide words it
stages in either role, the shadow words that it names (R277), whether a corrected fault is logged for the axis, what it keeps of the law. -/
structure RomOut where
  x    : Le
  ret  : List Int := []
  x0   : Option Nat := none
  x1   : Option Nat := none
  cyc  : Nat
  wide : List StagedFlit := []
  words : List Nat := []
  log  : Bool := false
  keep : Option LawKeep := none

/-! ## Words -/

/-- A data-memory word, signed and unsigned. -/
def Le.ws (x : Le) (b : Bool) (a : Nat) : Int := sd (x.peek b a)
def Le.wu (x : Le) (b : Bool) (a : Nat) : Nat := (x.peek b a).toNat

/-- A word of the table area. -/
def tab (off : Nat) : Nat := 0x2000 + off % 0x2000

/-- Store a word. -/
def Le.sw (x : Le) (a : Nat) (v : Int) : Le :=
  let a := a % 16384
  if a < 0x2000 then x.land (.mem (BitVec.ofNat 14 a) (BitVec.ofInt 24 v)) else x

/-- A Q1.47 word pair, high word first. -/
def Le.w47 (x : Le) (b : Bool) (a : Nat) : Int := x.ws b a * 2 ^ 24 + x.wu b (a + 1)

def Le.sw47 (x : Le) (a : Nat) (v : Int) : Le := (x.sw a (asr v 24)).sw (a + 1) v

/-- A mailbox entry, its value as 24 bits, and its valid bit. -/
def Le.mb (x : Le) (k : Nat) : W64 := Tbl.get 0 x.mbox (k % 256)
def Le.mbs (x : Le) (k : Nat) : Int := sd ((x.mb k).setWidth 24)
def Le.mbok (x : Le) (k : Nat) : Bool := Tbl.get false x.mvalid (k % 256)
def Le.mball (x : Le) (k n : Nat) : Bool := (List.range n).all fun j => x.mbok (k + j)

/-- mpy(a, b, k) of R156. -/
def mpy (a b : Int) (k : Nat) : Int := sat24 (asr (a * b * 2 ^ k) 23)

/-- An accumulator truncated once to Q1.23, saturated. -/
def mva24 (v : Int) : Int := sat24 (asr v 24)

def absI (v : Int) : Int := v.natAbs

/-- `v` with the sign of `s`. -/
def withSign (s v : Int) : Int := if s < 0 then -v else v

/-- A 24-bit angle. -/
def turn (v : Int) : Nat := wrap 24 v

/-! ## Bursts (R151 to R153) -/

/-- The samples of a burst pair: currents of slots 0 to 3, bus voltage, SDD status, and the flags SINGLE and CLIP. -/
structure Samples where
  i      : Nat → Int
  vb     : Int
  st     : Nat
  flags  : Nat

/-- A current at a rail. -/
def atRail (v : Int) : Bool := v == 8388607 || v == -8388608

/-- none where neither burst is valid. `n` slots are used; with two current channels (CL2 = 1) the third entry counts as used for
the test of the rails (R153; DESIGN CHOICE: log entry 259). -/
def Le.samples (x : Le) (m n : Nat) : Option Samples :=
  let eb := x.mball m 6
  let lb := x.mball (m + 6) 6
  let st := ((x.mb (if lb then m + 11 else m + 5)).setWidth 24).toNat
  let rail (o : Nat) : Bool := (List.range n).any fun k => atRail (x.mbs (o + k))
  if eb && lb then
    some { i := fun k => asr (x.mbs (m + k) + x.mbs (m + 6 + k)) 1, vb := asr (x.mbs (m + 4) + x.mbs (m + 10)) 1, st := st,
           flags := 32 * b2n (rail m || rail (m + 6)) }
  else if eb || lb then
    let o := if eb then m else m + 6
    some { i := fun k => x.mbs (o + k), vb := x.mbs (o + 4), st := st, flags := 2 + 32 * b2n (rail o) }
  else none

/-- Store a valid entry in its state word; else the REF flag. -/
def Le.keep (x : Le) (base entry word : Nat) : Le × Bool :=
  if x.mbok entry then (x.sw (base + word) (x.mbs entry), false) else (x, true)

/-- ω, references and acceleration (R153): stored where valid, REF where one is not. -/
def Le.keepRefs (x : Le) (base m : Nat) : Le × Nat :=
  let a := x.keep base (m + 13) 9
  let b := a.1.keep base (m + 14) 6
  let c := b.1.keep base (m + 15) 7
  let d := c.1.keep base (m + 16) 8
  (d.1, 128 * b2n (a.2 || b.2 || c.2 || d.2))

/-- RUN = 0: integrators cleared (R153). -/
def Le.clearRun (x : Le) (b : Bool) (base : Nat) : Le :=
  let x := (x.sw47 (base + 2) 0).sw47 (base + 4) 0
  x.sw (base + 12) (x.wu b (base + 12) / 2 * 2 : Nat)

/-- Dead-time compensation of slot `k` (R160). -/
def dtc (t : Nat → Int) (i : Int) (k : Nat) : Int :=
  let v := mpy i (t 27) (t 28).toNat
  mpy (t (21 + 2 * k)) (clampI 0 8388607 v) 0 - mpy (t (22 + 2 * k)) (clampI 0 8388607 (-v)) 0

/-- Duties after compensation, clamped, and whether one was (DCLAMP). -/
def finishDuties (t : Nat → Int) (i : Nat → Int) (cfg : Nat) (d : List Int) : List Int × Bool :=
  let e := if nbit cfg 1 then d.zipIdx.map fun z => z.1 + dtc t (i z.2) z.2 else d
  let c := e.map (clampI 0 8388607)
  (c, c != e)

/-- A parameter lies in its range (R155). -/
def within (lo hi v : Int) : Bool := decide (lo ≤ v ∧ v ≤ hi)

/-- A control output out of undefined parameters: free. -/
def freeD (i : RomIn) (k : Nat) : Int := sxt 24 (i.free k)

/-! ## K_FOC (R156) -/

def focRanges (t : Nat → Int) : Bool :=
  within 0 8 (t 2) && within 0 8 (t 9) && within 0 8 (t 11) && within 0 8 (t 28) && within 0 8388607 (t 12) && within 0 8388607 (t 13) &&
  within 0 8388607 (t 14) && within 0 8388607 (t 15) && within 0 0x49E69D (t 16) && within 0x8000 0x7FFFFF (t 17)

/-- Angle: the entry, or the stored angle carried on (ANG). -/
def Le.angle (x : Le) (b : Bool) (base m : Nat) (predw omega : Int) : Nat × Bool :=
  if x.mbok (m + 12) then (turn (x.mbs (m + 12)), false) else (turn (x.wu b (base + 10) + mpy predw omega 0), true)

/-- The voltage circle with d priority: m_d, m_q and whether it acted. -/
def circle (mmax md mq : Int) : Int × Int × Bool :=
  let d := if mmax < absI md then withSign md mmax else md
  let hit := d != md
  if mmax * mmax < d * d + mq * mq then
    let qm := (sqrtD (asr (mmax * mmax - d * d) 23)).1
    if qm < absI mq then (d, withSign mq qm, true) else (d, mq, hit)
  else (d, mq, hit)

def kFoc (i : RomIn) (x : Le) : RomOut :=
  let b := i.bankB
  let p := i.base
  let m := x.wu b (p + 1) % 256 / 32 * 32
  let tb := x.wu b p % 0x2000
  let t (k : Nat) : Int := x.ws b (tab (tb + k))
  match x.samples m 3 with
  | none => { x := x, ret := [4], x0 := some 1, cyc := 120 }
  | some z =>
    let r := x.keepRefs p m
    let x := r.1
    let fl := z.flags + r.2
    if z.st % 2 = 0 then { x := x.clearRun b p, ret := [fl], x0 := some 1, cyc := 120 }
    else
      let om := x.ws b (p + 9)
      let a := x.angle b p m (t 20) om
      let th := a.1
      let ths := turn (th + t 18)
      let tha := turn (ths + mpy (t 19) om 0)
      let cfg := (t 29).toNat
      let ab := clarke (!nbit cfg 0) (z.i 0) (z.i 1) (z.i 2)
      let cs := sinCos ths
      let dq := park ab.1 ab.2.1 cs.1 cs.2
      let d := dq.1
      let q := dq.2.1
      let ed := sat24 (clampI (-(t 12)) (t 12) (x.ws b (p + 6)) - d)
      let eq := sat24 (clampI (-(t 13)) (t 13) (x.ws b (p + 7) + mpy (t 10) (x.ws b (p + 8)) (t 11).toNat) - q)
      let td := sat47 (x.w47 b (p + 2) + 2 * (t 3 * ed))
      let tq := sat47 (x.w47 b (p + 4) + 2 * (t 4 * eq))
      let ks := (t 2).toNat
      let ds := (t 9).toNat
      let ud := mva24 (mpy (t 0) ed ks * 2 ^ 24 + td - mpy (mpy (t 7) om ds) q 0 * 2 ^ 24)
      let uq := mva24 (mpy (t 1) eq ks * 2 ^ 24 + tq + mpy (mpy (t 6) om ds) d 0 * 2 ^ 24 + mpy (t 8) om ds * 2 ^ 24)
      let uld := clampI (-(t 14)) (t 14) ud
      let ulq := clampI (-(t 15)) (t 15) uq
      let low : Bool := decide (z.vb < t 17)
      let n := nrecipD (if low then t 17 else z.vb)
      let c := circle (t 16) (mpy uld n.1 (n.2.1 + 1)) (mpy ulq n.1 (n.2.1 + 1))
      let vlim := low || c.2.2
      let umax : Bool := !vlim && (uld != ud || ulq != uq)
      let ca := sinCos tha
      let v := ipark c.1 c.2.1 ca.1 ca.2
      let s := svm v.1 v.2.1
      let du := finishDuties t z.i cfg [s.1, s.2.1, s.2.2.1]
      let fl := fl + b2n vlim * (1 + 16) + 8 * b2n umax + 64 * b2n a.2 + 256 * b2n du.2
      let x := if vlim then x
        else (x.sw47 (p + 2) (sat47 (td + 2 * (t 5 * (uld - ud))))).sw47 (p + 4) (sat47 (tq + 2 * (t 5 * (ulq - uq))))
      let x := (x.sw (p + 10) th).sw (p + 12) ((x.wu b (p + 12)) ||| 1 : Nat)
      let cyc := if c.2.2 then 136 else 120
      if focRanges t then { x := x, ret := (fl : Int) :: du.1, x0 := some 4, cyc := cyc }
      else
        { x := (x.sw47 (p + 2) (i.free 3)).sw47 (p + 4) (i.free 4), ret := [fl, freeD i 0, freeD i 1, freeD i 2], x0 := some 4,
          cyc := cyc }

/-! ## K_DCI (R162) -/

def kDci (i : RomIn) (x : Le) : RomOut :=
  let b := i.bankB
  let p := i.base
  let m := x.wu b (p + 1) % 256 / 32 * 32
  let tb := x.wu b p % 0x2000
  let t (k : Nat) : Int := x.ws b (tab (tb + k))
  match x.samples m 2 with
  | none => { x := x, ret := [4], x0 := some 1, cyc := 84 }
  | some z =>
    let r := x.keepRefs p m
    let x := r.1
    let fl := z.flags + r.2
    if z.st % 2 = 0 then { x := x.clearRun b p, ret := [fl], x0 := some 1, cyc := 84 }
    else
      let om := x.ws b (p + 9)
      let q := asr (z.i 0 - z.i 1) 1
      let eq := sat24 (clampI (-(t 13)) (t 13) (x.ws b (p + 7) + mpy (t 10) (x.ws b (p + 8)) (t 11).toNat) - q)
      let tq := sat47 (x.w47 b (p + 4) + 2 * (t 4 * eq))
      let uq := mva24 (mpy (t 1) eq (t 2).toNat * 2 ^ 24 + tq + mpy (t 8) om (t 9).toNat * 2 ^ 24)
      let ulq := clampI (-(t 15)) (t 15) uq
      let low : Bool := decide (z.vb < t 17)
      let n := nrecipD (if low then t 17 else z.vb)
      let mq := mpy ulq n.1 (n.2.1 + 1)
      let mc := clampI (-(t 16)) (t 16) mq
      let vlim := low || mc != mq
      let du := finishDuties t z.i (t 29).toNat [0x400000 + asr mc 1, 0x400000 - asr mc 1]
      let fl := fl + b2n vlim * (1 + 16) + 8 * b2n (!vlim && ulq != uq) + 256 * b2n du.2
      let x := if vlim then x else x.sw47 (p + 4) (sat47 (tq + 2 * (t 5 * (ulq - uq))))
      let x := x.sw (p + 12) ((x.wu b (p + 12)) ||| 1 : Nat)
      let ok := within 0 8 (t 2) && within 0 8 (t 9) && within 0 8 (t 11) && within 0 8 (t 28) && within 0 8388607 (t 13) &&
        within 0 8388607 (t 15) && within 0 8388607 (t 16) && within 0x8000 0x7FFFFF (t 17)
      if ok then { x := x, ret := (fl : Int) :: du.1, x0 := some 3, cyc := 84 }
      else { x := x.sw47 (p + 4) (i.free 4), ret := [fl, freeD i 0, freeD i 1], x0 := some 3, cyc := 84 }

/-! ## K_STEP (R265 to R277) -/

/-- A 32-bit register in two words, a 64-bit value in four (R125, R238). -/
def Le.wx (x : Le) (b : Bool) (a : Nat) : Nat := x.wu b a + 2 ^ 24 * (x.wu b (a + 1) % 256)
def Le.w64 (x : Le) (b : Bool) (a : Nat) : Nat := x.wx b a + 2 ^ 32 * x.wx b (a + 2)
def Le.swx (x : Le) (a : Nat) (v : Nat) : Le := (x.sw a (v % 2 ^ 24 : Nat)).sw (a + 1) (asr (sxt 32 v) 24)
def Le.sw64 (x : Le) (a : Nat) (v : Nat) : Le := (x.swx a (v % 2 ^ 32)).swx (a + 2) (v / 2 ^ 32 % 2 ^ 32)

/-- The microstep angle of a position (R265). -/
def stepAngle (pf : Nat) (mres : Nat) : Nat :=
  let th := turn (asr (s64 pf) 32 * 4096)
  th - th % 2 ^ (22 - mres)

/-- The reference current of a phase and its polarity. -/
def polarity (r : Int) : Int := if r < 0 then -1 else 1

/-- The offset of a phase after a chopper run (R271). -/
def adapt (t : Nat → Int) (old ref i : Int) : Int :=
  clampI (-(t 19)) (t 19) (old + mpy (t 18) (absI ref - polarity ref * i) 0)

/-- A phase in voltage mode (R272): the voltage before division, and the new integrator. The table has no output limit like UMAX; DESIGN
CHOICE (log entry 265): KAW acts on the widest limit that K_DCI could be given, ±0x7F_FFFF. -/
def stepPi (t : Nat → Int) (integ ref i ff : Int) : Int × Int :=
  let e := sat24 (ref - i)
  let v := sat47 (integ + 2 * (t 6 * e))
  let u := mva24 (mpy (t 4) e (t 5).toNat * 2 ^ 24 + v + ff * 2 ^ 24)
  let ul := clampI (-8388607) 8388607 u
  (ul, sat47 (v + 2 * (t 7 * (ul - u))))

/-- The position command that K_STEP forms in a run (R265), its flights without a change, and the REF flag. -/
def Le.stepPos (x : Le) (i : RomIn) (b : Bool) (p m : Nat) (t : Nat → Int) : Nat × Nat × Nat :=
  let cmd := x.mball (m + 14) 3
  let old := x.w64 b (p + 12)
  let ft : Nat := (t 24 % 2 ^ 24).toNat * 2 ^ 24 + (t 25 % 2 ^ 24).toNat
  let vc : Int := (x.mb (m + 15)).toInt
  let n : Nat := (i.x1 + 2 ^ 32 - (x.mb (m + 16)).toNat % 2 ^ 32) % 2 ^ 32
  let pf := if cmd then wrap 64 ((x.mb (m + 14)).toInt + asr (vc * n * ft) 48) else old
  (pf, if pf = old then Nat.min (x.wu b (p + 16) + 1) 0xFFFFFF else 0, 128 * b2n (!cmd))

def kStep (i : RomIn) (x : Le) : RomOut :=
  let b := i.bankB
  let p := i.base
  let m := x.wu b (p + 1) % 256 / 32 * 32
  let tb := x.wu b p % 0x2000
  let t (k : Nat) : Int := x.ws b (tab (tb + k))
  match x.samples m 4 with
  | none => { x := x, ret := [4], x0 := some 1, x1 := some 1, cyc := if i.strong || nbit (x.wu b (p + 11)) 0 then 104 else 132 }
  | some z =>
    let flg := x.wu b (p + 11)
    let pos := x.stepPos i b p m t
    let pf := pos.1
    let held := pos.2.1
    let fl := z.flags + pos.2.2
    if z.st % 2 = 0 then
      { x := ((((x.sw47 (p + 2) 0).sw47 (p + 4) 0).sw (p + 11) 0).sw64 (p + 12) pf).sw (p + 16) held, ret := [fl], x0 := some 1, x1 := some 1,
        cyc := if i.strong then 104 else 132 }
    else
      let both := x.mball m 12
      let vok := x.mball (m + 6) 8
      let old := x.w64 b (p + 12)
      let mres := Nat.min ((t 0).toNat % 16) 22
      let th := stepAngle pf mres
      let cur := if (t 3) ≤ held then t 2 else t 1
      let cs := sinCos th
      let rA := mpy cur cs.1 0
      let rB := mpy cur cs.2 0
      -- The references of the previous run, for their signs
      let cur' := if (t 3) ≤ (x.wu b (p + 16) : Int) then t 2 else t 1
      let cs' := sinCos (stepAngle old mres)
      let pA' := polarity (mpy cur' cs'.1 0)
      let pB' := polarity (mpy cur' cs'.2 0)
      let iA := asr (z.i 0 - z.i 1) 1
      let iB := asr (z.i 2 - z.i 3) 1
      let om := mpy (perr (x.mb (m + 15)).toNat 0 ((t 13).toNat % 32)).1 (t 14) (t 15).toNat
      let was := nbit flg 0 && !i.start
      let want := i.strong || (!i.ext && (if was then decide (t 17 < absI om) else decide (t 16 ≤ absI om)))
      let mode := if want == was then was else if i.strong || i.ext || (both && vok) then want else was
      -- Offsets
      let oA := if was && both && decide (t 20 ≤ absI rA) && polarity rA == pA' then adapt t (x.ws b (p + 6)) rA iA else x.ws b (p + 6)
      let oB := if was && both && decide (t 20 ≤ absI rB) && polarity rB == pB' then adapt t (x.ws b (p + 7)) rB iB else x.ws b (p + 7)
      -- Division by the bus voltage
      let low : Bool := decide (z.vb < t 9)
      let nr := nrecipD (if low then t 9 else z.vb)
      let div (v : Int) : Int := mpy v nr.1 (nr.2.1 + 1)
      let vA := if i.ext then freeD i 5 else x.mbs (m + 12)
      let vB := if i.ext then freeD i 6 else x.mbs (m + 13)
      let ke := mpy (t 12) om 0
      let fA := mpy ke (sat24 (-cs.2)) 0
      let fB := mpy ke cs.1 0
      -- Stall
      let eA := vA - mpy (t 10) iA 0 - mpy (t 11) (iA - x.ws b (p + 8)) 0
      let eB := vB - mpy (t 10) iB 0 - mpy (t 11) (iB - x.ws b (p + 9)) 0
      let ea2 := sat24 (asr (eA * eA + eB * eB) 23)
      let sg := x.ws b (p + 10)
      let sg' := if both && vok then sat24 (sg + mpy (t 21) (ea2 - sg) 0) else sg
      let stall : Bool := both && vok && decide (t 23 ≤ absI om) && decide (sg' < mpy (t 22) (mpy ke ke 0) 0)
      let x := ((((x.sw (p + 6) oA).sw (p + 7) oB).sw (p + 8) iA).sw (p + 9) iB).sw (p + 10) sg'
      let x := ((x.sw (p + 11) (2 + b2n mode : Nat)).sw64 (p + 12) pf).sw (p + 16) held
      let fl := fl + 512 * b2n stall + 1024 * b2n mode
      let no := nbit z.st 8 || nbit z.st 9
      let o := wrap 8 (asr oA 13) + 256 * wrap 8 (asr oB 13)
      if mode then
        { x := x, ret := [((fl + b2n no : Nat) : Int), rA, rB, (o + 65536 : Nat)], x0 := some 4, x1 := some 5, cyc := 104, words := [0, 5, 6, 7] }
      else
        let a := stepPi t (x.w47 b (p + 2)) rA iA fA
        let c := stepPi t (x.w47 b (p + 4)) rB iB fB
        let pA := mpy (t 4) (sat24 (rA - iA)) (t 5).toNat
        let pB := mpy (t 4) (sat24 (rB - iB)) (t 5).toNat
        let mA := if was then div vA else div a.1
        let mB := if was then div vB else div c.1
        let lA := clampI (-(t 8)) (t 8) mA
        let lB := clampI (-(t 8)) (t 8) mB
        let vlim := low || lA != mA || lB != mB
        let x := if was then (x.sw47 (p + 2) (sat47 ((mA - pA - fA) * 2 ^ 24))).sw47 (p + 4) (sat47 ((mB - pB - fB) * 2 ^ 24))
          else if vlim then x else (x.sw47 (p + 2) a.2).sw47 (p + 4) c.2
        let raw : List Int := [0x400000 + asr lA 1, 0x400000 - asr lA 1, 0x400000 + asr lB 1, 0x400000 - asr lB 1]
        let du := raw.map (clampI 0 8388607)
        let fl := fl + (if vlim then 17 else b2n no) + 256 * b2n (du != raw)
        { x := x, x0 := some (if was then 6 else 5), x1 := some 1, cyc := 132, ret := ((fl : Int) :: du) ++ (if was then [(o : Int)] else []),
          words := [0, 1, 2, 3, 4, 7] }

end Sys2Proof.Machine
end

