-- ==== Sys2Proof/Machine/RomVp.lean ====
section
/-! DEFINITION. The velocity and position kernels of the loop ROM: K_VP (R197 to R212), K_OBS (R209), K_BQ (R210), K_MINSEL (R211),
K_PI and K_PID (R213), K_PRBS (R219). -/

namespace Sys2Proof.Machine
open Sys2Proof.Machine.Reg

/-- SAT of an accumulator, and whether it acted. -/
def satQ (v : Int) : Int × Bool := (sat47 v, sat47 v != v)

/-! ## K_OBS (R209) -/

/-- The observer on the state words at `a`, with gains OB_B, OB_L1, OB_L2: the engine and vf. -/
def Le.observe (x : Le) (b : Bool) (a : Nat) (gb g1 g2 v iqr : Int) : Le × Int :=
  let oi := x.w47 b a
  let tau := x.ws b (a + 2)
  let eps := sat24 (v - sat24 (asr oi 24))
  let oi := sat47 (oi + 2 * (gb * iqr) + 2 * (g1 * eps) - tau * 2 ^ 24)
  let tau := sat24 (tau - mpy g2 eps 0)
  ((x.sw47 a oi).sw (a + 2) tau, sat24 (asr oi 24))

/-! ## K_BQ (R210) -/

/-- One stage: coefficients at `c`, states at `st`, remainder word at `res`. -/
def Le.biquad (x : Le) (b : Bool) (c st res : Nat) (esf : Bool) (v : Int) : Le × Int :=
  let k (j : Nat) : Int := x.ws b (c + j)
  let w (j : Nat) : Int := x.ws b (st + j)
  let acc := 2 * (k 0 * v + k 1 * w 0 + k 2 * w 1 - k 3 * w 2 - k 4 * w 3)
  let acc := if esf then acc + x.wu b res else acc
  let y := sat24 (asr acc 23)
  let x := if esf then x.sw res (wrap 23 acc) else x
  ((((x.sw (st + 1) (w 0)).sw st v).sw (st + 3) (w 2)).sw (st + 2) y, y)

/-- `n` stages one after another. -/
def Le.stages (x : Le) (b : Bool) (c st res : Nat) (esf : Bool) (n : Nat) (v : Int) : Le × Int :=
  (List.range n).foldl (fun (a : Le × Int) s => a.1.biquad b (c + 5 * s) (st + 4 * s) (res + s) esf a.2) (x, v)

/-! ## K_MINSEL (R211) -/

/-- The lowest candidate of the block at `ms`; tracked PI states lie in the region at `region`: the engine, value and index. -/
def Le.select (x : Le) (b : Bool) (ms region : Nat) : Le × Int × Nat :=
  let h := x.wu b ms
  let n := h % 16 + 1
  let desc (j : Nat) : Nat := x.wu b (ms + 17 + j)
  let x := (List.range n).foldl (fun (x : Le) j =>
    if desc j / 2 ^ 22 = 1 then x.sw (ms + 1 + j) (x.ws b (tab (desc j))) else x) x
  let c (j : Nat) : Int := x.ws b (ms + 1 + j)
  let w := minIndex (fun j => if nbit h 8 then -(c j) else c j) n
  let x := (List.range n).foldl (fun (x : Le) j =>
    if desc j / 2 ^ 22 = 2 ∧ j ≠ w then
      let a := region + desc j % 2 ^ 14
      x.sw47 a (sat47 ((c w - x.ws b (a + 2)) * 2 ^ 24))
    else x) x
  (x, c w, w)

/-- The most cycles of K_MINSEL: 12, and 6 for each tracked candidate. -/
def Le.selectCycles (x : Le) (b : Bool) (ms : Nat) : Nat :=
  12 + 6 * ((List.range (x.wu b ms % 16 + 1)).filter fun j => x.wu b (ms + 17 + j) / 2 ^ 22 == 2).length

/-! ## K_PI, K_PID (R213) -/

/-- PI or PID with its block at `k` and its state at `st`: the engine, ul, and the flags of X0. -/
def Le.pid (x : Le) (b : Bool) (k st : Nat) (d : Bool) (e : Int) : Le × Int × Nat :=
  let t (j : Nat) : Int := x.ws b (k + j)
  let sh := (t 1).toNat
  let v := satQ (x.w47 b st + 2 * (t 2 * e))
  let p := mpy (t 0) e sh
  let df := if d then
      let o := x.ws b (st + 3)
      sat24 (o + mpy (t 8) (sat24 (mpy (t 7) (e - x.ws b (st + 4)) sh - o)) 0)
    else 0
  let u := mva24 (p * 2 ^ 24 + v.1 + df * 2 ^ 24)
  let ul := clampI (t 4) (t 5) u
  let x := (((x.sw47 st (sat47 (v.1 + 2 * (t 3 * (ul - u))))).sw (st + 2) p).sw (st + 3) df)
  (if d then x.sw (st + 4) e else x, ul, b2n (ul != u) + 2 * b2n v.2)

/-! ## K_PRBS (R219) -/

/-- Taps of the shift register of length L, as a mask. -/
def prbsTaps : Nat → Nat
  | 7 => 0x60 | 8 => 0xB8 | 9 => 0x110 | 10 => 0x240 | 11 => 0x500 | 12 => 0xE08 | 13 => 0x1C80 | 14 => 0x3802 | 15 => 0x6000
  | _ => 0

/-- Parity of the bits of a number below 2^16. -/
def parity (n : Nat) : Bool := (List.range 16).foldl (fun p k => p != nbit n k) false

/-- One run of the injection: block at `k`, state words at `st`. The engine, the injected value, and whether it is active. The
chip-count word holds chips of the sequence in bits 23:9 and runs of the chip in bits 8:0. -/
def Le.prbs (x : Le) (b : Bool) (k st : Nat) : Le × Int × Bool :=
  let l := Nat.min 15 (x.wu b k % 16)
  let ones := 2 ^ l - 1
  let fl := x.wu b (st + 3)
  if fl % 4 ≠ 0 then (x, 0, false)
  else
    let r := if x.wu b st = 0 then ones else x.wu b st
    let amp := x.ws b (k + 1)
    let inj := if r % 2 = 1 then amp else -amp
    let runs := x.wu b (st + 1) % 512 + 1
    let chips := x.wu b (st + 1) / 512
    if runs < x.wu b (k + 2) then (((x.sw st r).sw (st + 1) (chips * 512 + runs : Nat)), inj, true)
    else
      let r' := (r * 2 + b2n (parity (r &&& prbsTaps l))) % 2 ^ l
      let seqs := x.wu b (st + 2) + b2n (chips + 1 == ones)
      let chips := if chips + 1 = ones then 0 else chips + 1
      let x := ((x.sw st r').sw (st + 1) (chips * 512 : Nat)).sw (st + 2) seqs
      (if x.wu b (k + 3) ≤ seqs then x.sw (st + 3) (fl ||| 1 : Nat) else x, inj, true)

/-- PRBS_EN = 0 clears the state of the injection. -/
def Le.clearPrbs (x : Le) (p : Nat) : Le := (List.range 4).foldl (fun (x : Le) k => x.sw (p + 60 + k) 0) x

/-! ## The velocity estimate (R203) -/

/-- v, and the report bits TV0 and CNT. -/
def Le.estimate (x : Le) (i : RomIn) (t : Nat → Int) (fb : Nat) : Int × Nat :=
  let b := i.bankB
  let p := i.base
  let tok := x.mbok (fb + 1) && x.mbok (fb + 2)
  let ts := ((x.mb (fb + 2)).setWidth 24).toNat
  let tv := tok && nbit ts 0
  let vT := (perr (x.mb (fb + 1)).toNat 0 ((t 7).toNat % 32)).1
  let flg := x.wu b (p + 15)
  let gap := (i.x1 + 2 ^ 24 - x.wu b (p + 59)) % 2 ^ 24
  let ok0 := nbit flg 0 && gap == (t 28).toNat && !nbit ts 2
  let dq := perr (x.mb fb).toNat (x.w64 b (p + 4)) ((t 10).toNat % 32)
  let cnt := ok0 && dq.2
  let ok := ok0 && !dq.2
  let vC := mpy dq.1 (t 11) (t 12).toNat
  if tv && ok then (sat24 (vC + mpy (t 13) (sat24 (vT - vC)) 0), 512 * b2n cnt)
  else if tv then (vT, 512 * b2n cnt)
  else if ok then (vC, 256)
  else (x.ws b (p + 12), 256 + 512)

/-! ## K_VP (R207) -/

def vpRanges (t : Nat → Int) : Bool :=
  within 0 31 (t 1) && within 0 8 (t 3) && within 0 31 (t 5) && within 0 31 (t 7) && within 0 31 (t 10) && within 0 8 (t 12) &&
  within 0 0x7FFFFF (t 13) && within 0 8 (t 15) && within 0 0x7FFFFF (t 18) && within 0 31 (t 20) && within 0 8 (t 23) && within 1 64 (t 28) &&
  decide (bits (t 0).toNat 10 8 ≤ 4) && decide (bits (t 0).toNat 14 12 ≤ 4)

/-- The commands: position, velocity, acceleration, and whether they are valid. -/
def Le.commands (x : Le) (b mb : Bool) (cmd : Nat) : Nat × Nat × Nat × Bool :=
  if mb then ((x.mb cmd).toNat, (x.mb (cmd + 1)).toNat, (x.mb (cmd + 2)).toNat, x.mball cmd 3)
  else (x.w64 b cmd, x.w64 b (cmd + 4), x.w64 b (cmd + 8), true)

def kVp (i : RomIn) (x : Le) : RomOut :=
  let b := i.bankB
  let p := i.base
  let t (k : Nat) : Int := x.ws b (tab (x.wu b p % 0x2000 + k))
  let fb := x.wu b (p + 1) % 256
  let flg := x.wu b (p + 15)
  if !x.mbok fb then { x := x.sw (p + 15) (flg / 2 * 2 : Nat), ret := [64], cyc := 20 }
  else
    let tb := x.wu b p % 0x2000
    let cfg := (t 0).toNat
    let pos := nbit cfg 0
    let esf := nbit cfg 4
    let st := if x.mbok (fb + 3) then ((x.mb (fb + 3)).setWidth 24).toNat else 0
    let est := x.estimate i t fb
    let v := est.1
    let ob := if nbit cfg 3 then x.observe b (p + 56) (t 24) (t 25) (t 26) v (x.ws b (p + 14)) else (x, v)
    let x := ob.1
    let vf := ob.2
    let om := mpy vf (t 22) (t 23).toNat
    let fin (x : Le) (vrl iql : Int) (win : Nat) : Le :=
      ((((((x.sw64 (p + 4) (x.mb fb).toNat).sw (p + 59) (i.x1 % 2 ^ 24 : Nat)).sw (p + 12) v).sw (p + 13) (sat24 vrl)).sw (p + 14) iql).sw
        (p + 15) (1 + 256 * win : Nat))
    let bad : Bool := !vpRanges t
    let out (rep : Nat) (idr iql acc : Int) : List Int :=
      if bad then [rep, freeD i 0, freeD i 1, freeD i 2, freeD i 3] else [rep, om, idr, iql, acc]
    if st % 2 = 0 then
      let x := ((x.sw47 (p + 8) 0).sw47 (p + 10) 0).sw47 (p + 56) 0
      let x := x.sw (p + 58) 0
      let x := (List.range 40).foldl (fun (x : Le) k => x.sw (p + 16 + k) 0) x
      let x := if nbit cfg 5 then x else x.clearPrbs p
      { x := fin x 0 0 (flg / 256 % 16), ret := out est.2 (t 19) 0 0, cyc := 60 }
    else
      let c := x.commands b (nbit cfg 1) (x.wu b (p + 2))
      let ok := c.2.2.2
      let pp := (x.mb fb).toNat
      let vff := mpy (perr c.2.1 0 ((t 7).toNat % 32)).1 (t 8) 1
      let acc := if ok then mpy (perr c.2.2.1 0 ((t 20).toNat % 32)).1 (t 21) 1 else 0
      let ep := (perr c.1 pp ((t 1).toNat % 32)).1
      let fe := perr c.1 pp ((t 5).toNat % 32)
      let usePos := pos && ok
      let feBit := usePos && (decide (t 6 < absI fe.1) || fe.2)
      let tp := satQ (x.w47 b (p + 8) + 2 * (t 4 * ep))
      let ups := if usePos then
          x.stages b (tab (tb + 32)) (p + 16) (p + 48) esf (bits cfg 10 8) (mva24 (mpy (t 2) ep (t 3).toNat * 2 ^ 24 + tp.1))
        else (x, 0)
      let x := ups.1
      let vr := if !ok then x.ws b (p + 13) else if pos then sat24 (ups.2 + vff) else vff
      let vrl := clampI (-(t 9)) (t 9) vr
      let vlim := vrl != vr
      let pk := tab (t 29).toNat
      let inj := if nbit cfg 5 then x.prbs b pk (p + 60)
        else (x.clearPrbs p, 0, false)
      let x := inj.1
      let pt := bits (x.wu b pk) 5 4
      let at_ (k : Nat) : Int := if pt = k then inj.2.1 else 0
      let vrl := vrl + at_ 2
      let ev := sat24 (vrl - vf)
      let tv := satQ (x.w47 b (p + 10) + 2 * (t 16 * ev))
      let pv := mpy (t 14) ev (t 15).toNat
      let uvs := x.stages b (tab (tb + 52)) (p + 32) (p + 52) esf (bits cfg 14 12) (mva24 (pv * 2 ^ 24 + tv.1))
      let x := uvs.1
      let uv := if nbit cfg 3 then sat24 (uvs.2 + mpy (t 27) (x.ws b (p + 58)) 1) else uvs.2
      let ms := x.wu b (p + 3)
      let sel := if nbit cfg 2 then (x.sw (ms + 1) uv).select b ms i.state else (x, uv, 0)
      let x := sel.1
      let w := sel.2.2
      let iq := sel.2.1 + at_ 0
      let iql := clampI (-(t 18)) (t 18) iq
      let sat := iql != iq
      let x := x.sw47 (p + 10) (if w ≠ 0 then sat47 ((iq - pv) * 2 ^ 24) else sat47 (tv.1 + 2 * (t 17 * (iql - iq))))
      let x := if usePos && !(vlim || sat || w != 0) then x.sw47 (p + 8) tp.1 else x
      let ab := inj.2.2 && (decide (x.ws b (pk + 4) < absI iql) || decide (x.ws b (pk + 5) < absI v))
      let x := if ab then x.sw (p + 63) ((x.wu b (p + 63)) ||| 2 : Nat) else x
      let rep := 1 + 2 * b2n feBit + 4 * b2n sat + 8 * b2n vlim + 16 * b2n ((usePos && tp.2) || tv.2) + 32 * b2n (w != 0) +
        128 * b2n (!ok) + est.2 + 1024 * b2n inj.2.2 + 2048 * b2n ab + 4096 * w
      -- The work of R214
      let bq := if esf then 15 else 13
      let cyc := 97 + 12 * b2n (nbit cfg 3) + (if usePos then 18 + bq * bits cfg 10 8 else 0) + bq * bits cfg 14 12 +
        (if nbit cfg 2 then x.selectCycles b ms else 0) + 14 * b2n (nbit cfg 5)
      { x := fin x vrl iql w, ret := out rep (sat24 (t 19 + at_ 1)) iql acc, cyc := cyc }

/-! ## The service kernels as callees and entries -/

/-- K_OBS: v in D0, IQR in D1, the state words at P1; gains from the lock's K_VP table. -/
def kObs (i : RomIn) (x : Le) : RomOut :=
  let b := i.bankB
  let t (k : Nat) : Int := x.ws b (tab (x.wu b i.state % 0x2000 + k))
  let r := x.observe b i.base (t 24) (t 25) (t 26) (sd (x.bank.dr 0)) (sd (x.bank.dr 1))
  { x := r.1, ret := [r.2], cyc := 12 }

/-- K_BQ: x in D0, the block at P1. -/
def kBq (i : RomIn) (x : Le) : RomOut :=
  let b := i.bankB
  let n := x.wu b i.base
  let st := x.wu b (i.base + 3)
  let esf := x.wu b (i.base + 1) % 2 == 1
  let r := x.stages b (tab (x.wu b (i.base + 2))) st (st + 4 * n) esf n (sd (x.bank.dr 0))
  { x := r.1, ret := [r.2], cyc := (if esf then 15 else 13) * n }

/-- K_MINSEL: the block at P1. -/
def kMinsel (i : RomIn) (x : Le) : RomOut :=
  let r := x.select i.bankB i.base i.state
  { x := r.1, ret := [r.2.1], x0 := some r.2.2, cyc := x.selectCycles i.bankB i.base }

/-- K_PI and K_PID: e in D0 and the block at P1 as callees; as ENTRY the block and the entry of e come from state words 0 and 1. -/
def kPid (d : Bool) (i : RomIn) (x : Le) : RomOut :=
  let b := i.bankB
  let r := if i.called then x.pid b i.base (x.wu b (i.base + 6)) d (sd (x.bank.dr 0))
    else x.pid b (tab (x.wu b i.base)) (i.base + 2) d (x.mbs (x.wu b (i.base + 1)))
  { x := r.1, ret := [r.2.1], x0 := some r.2.2, cyc := if d then 34 else 22 }

/-- K_PRBS: the block at P1, the state words of the lock's K_VP; the injected value in D0. -/
def kPrbs (i : RomIn) (x : Le) : RomOut :=
  let r := x.prbs i.bankB i.base (i.state + 60)
  { x := r.1, ret := [r.2.1], cyc := 14 }

end Sys2Proof.Machine
end

