-- ==== Sys2Proof/Machine/RomInterp.lean ====
section
/-! DEFINITION. The motion kernel of the loop ROM: K_INTERP with the laws, masters, gearing, cams, paths and stops (R231 to R255,
R259, R260). -/

namespace Sys2Proof.Machine
open Sys2Proof.Machine.Reg

/-! ## Barges (R225, R226) -/

/-- Little-endian field of `n` bytes at offset `o` of a descriptor. -/
def dfld (d : Desc) (o n : Nat) : Nat := (d.toNat >>> (8 * o)) % 2 ^ (8 * n)

def dType (d : Desc) : Nat := dfld d 0 1
def dFlags (d : Desc) : Nat := dfld d 1 1
def dSeq (d : Desc) : Nat := dfld d 2 2
def dTag (d : Desc) : Nat := dfld d 4 2
def dStart (d : Desc) : Nat := dfld d 6 8
/-- BODY, bytes 14 to 59, as one number. -/
def dBody (d : Desc) : Nat := dfld d 14 46

/-- Field of a body at its descriptor offset. -/
def bfld (body o n : Nat) : Nat := (body >>> (8 * (o - 14))) % 2 ^ (8 * n)
def bs64 (body o : Nat) : Int := s64 (bfld body o 8)

/-- Result codes (R257). -/
def resDone : Nat := 0
def resLate : Nat := 1
def resStopped : Nat := 2
def resFlushed : Nat := 3
def resDiscont : Nat := 4
def resBusErr : Nat := 5
def resSegErr : Nat := 6
def resMsgFull : Nat := 7
def resNoReport : Nat := 8
def resRange : Nat := 9

/-! ## The command state (R234, R259) -/

/-- What the state region holds, and the flags raised in this run. -/
structure Mot where
  law    : Nat
  curOn  : Bool
  rel    : Bool
  follow : Bool
  stop   : Bool
  undr   : Bool
  mlost  : Bool
  segerr : Bool
  camerr : Bool
  vzero  : Bool
  result : Nat
  k      : Nat
  cur    : Nat
  done   : Nat
  rem    : Nat
  /-- P:PF in 2^−48 counts, V and A. -/
  p      : Int
  v      : Int
  a      : Int
  /-- BODY: that of the executing barge. -/
  body   : Nat
  law0   : Int
  cyc    : Int
  /-- The law's own body, and the rest that the region has no word for. -/
  keep   : LawKeep
  stale  : Bool := false
  log    : Bool := false

/-- A master slot in this run: its value, its value of the last run, whether it is valid and whether it is lost. -/
structure Master where
  kind : Nat
  m    : Int
  prev : Int
  ok   : Bool
  lost : Bool

/-- The motion parameter table. -/
structure MotTab where
  per   : Nat
  dstop : Int
  jstop : Int
  f     : Nat
  f2    : Nat
  camTol : Int
  camDir : Nat
  tmax  : Nat

def Le.readMot (x : Le) (b : Bool) (p : Nat) (keep : LawKeep) : Mot :=
  let m := x.wu b (p + 3)
  { law := m % 16, curOn := nbit m 4, rel := nbit m 5, follow := nbit m 6, stop := nbit m 7, undr := nbit m 8, mlost := nbit m 9,
    segerr := nbit m 10, camerr := nbit m 11, vzero := nbit m 12, result := bits m 19 16, keep := keep,
    k := x.wu b (p + 4) % 2 ^ 23, cur := x.wu b (p + 5) % 65536, done := x.wu b (p + 6) % 65536, rem := x.wu b (p + 7) % 65536,
    p := s64 (x.w64 b (p + 8)) * 65536 + (x.wu b (p + 12) % 65536 : Nat), v := s64 (x.w64 b (p + 13)), a := s64 (x.w64 b (p + 17)),
    body := (List.range 16).foldl (fun (n : Nat) j => n + x.wu b (p + 21 + j) * 2 ^ (24 * j)) 0 % 2 ^ 368,
    law0 := s64 (x.w64 b (p + 37)), cyc := sxt 32 (x.wx b (p + 41)) }

def Le.writeMot (x : Le) (b : Bool) (p : Nat) (m : Mot) : Le :=
  let mode : Nat := m.law + 16 * b2n m.curOn + 32 * b2n m.rel + 64 * b2n m.follow + 128 * b2n m.stop + 256 * b2n m.undr +
    512 * b2n m.mlost + 1024 * b2n m.segerr + 2048 * b2n m.camerr + 4096 * b2n m.vzero + 65536 * m.result
  let x := ((x.sw (p + 3) mode).sw (p + 4) (m.k % 2 ^ 23 : Nat)).sw (p + 7) (m.rem % 65536 : Nat)
  let x := x.sw (p + 5) (m.cur % 65536 + x.wu b (p + 5) / 65536 * 65536 : Nat)
  let x := x.sw (p + 6) (m.done % 65536 + x.wu b (p + 6) / 65536 * 65536 : Nat)
  let x := (x.sw64 (p + 8) (wrap 64 (asr m.p 16))).sw (p + 12) (wrap 16 m.p)
  let x := (x.sw64 (p + 13) (wrap 64 m.v)).sw64 (p + 17) (wrap 64 m.a)
  let x := (List.range 16).foldl (fun (x : Le) j => x.sw (p + 21 + j) ((m.body >>> (24 * j)) % 2 ^ 24 : Nat)) x
  (x.sw64 (p + 37) (wrap 64 m.law0)).swx (p + 41) (wrap 32 m.cyc)

/-- A Q16.32 value of two table or state words, low word first. -/
def Le.w48 (x : Le) (b : Bool) (a : Nat) : Int := sxt 48 (x.wu b a + 2 ^ 24 * x.wu b (a + 1))

/-! ## Masters (R240 to R244) -/

/-- Line-time ticks in a second. -/
def tickHz : Int := 250000000

/-- The value of a remote axis (R242), stale or not. -/
def remote (p v a : Int) (n ft st : Nat) : Int :=
  let t : Int := n * ft
  let ts : Int := st * ft
  let c := tickHz
  if n ≤ st then p + (v * 2 ^ 24 * t * 2 * c + a * 2 ^ 32 * (t * t)) / (2 * (c * c))
  else p + (v * 2 ^ 24 * t * 2 * c + a * 2 ^ 32 * (ts * (2 * t - ts))) / (2 * (c * c))

/-- Slot `q` in this run: the engine after its correction state changed, the master, and STALE. -/
def Le.master (x : Le) (i : RomIn) (tb q : Nat) : Le × Master × Bool :=
  let b := i.bankB
  let p := i.base
  let src := x.wu b (tab (tb + 16 + q))
  let e := src % 256
  let kind := bits src 9 8
  let ms := p + 43 + 10 * q
  let prev := s64 (x.w64 b ms)
  let n := (i.x1 + 2 ^ 32 - (x.mb (e + 2)).toNat % 2 ^ 32) % 2 ^ 32
  let st := x.wu b (tab (tb + 22))
  let hold := x.wu b (tab (tb + 23))
  let ok := if kind = 3 then x.mball e 3 else kind != 0 && x.mbok e
  let lost := kind == 3 && ok && decide (st + hold < n)
  if !ok || lost then (x, { kind := kind, m := prev, prev := prev, ok := false, lost := lost }, false)
  else
    let raw := if kind = 3 then
        let va := x.mb (e + 1)
        remote (x.mb e).toInt (va.setWidth 32).toInt ((va >>> 32).setWidth 32).toInt n i.ticks st
      else (x.mb e).toInt
    -- Latch correction (R243)
    let l := x.mb (bits src 23 16)
    let evtWord := p + 5 + q
    let evt := x.wu b evtWord / 65536 % 256
    let cmax := x.w48 b (tab (tb + 18))
    let cstep := x.w48 b (tab (tb + 20))
    let cofs := s64 (x.w64 b (ms + 4))
    let crem := x.w48 b (ms + 8)
    let takes := nbit src 12 && x.mbok (bits src 23 16) && bits l.toNat 55 48 != evt
    let crem := if takes then clampI (-cmax) cmax (crem + clampI (-cmax) cmax (sxt 48 l.toNat)) else crem
    let x := if takes then x.sw evtWord (x.wu b evtWord % 65536 + bits l.toNat 55 48 * 65536 : Nat) else x
    let step := if nbit src 12 then clampI (-cstep) cstep crem else 0
    let cofs := cofs + step
    let crem := crem - step
    let m := s64 (wrap 64 (raw + cofs))
    let x := (x.sw64 ms (wrap 64 m)).sw64 (ms + 4) (wrap 64 cofs)
    let x := (x.sw (ms + 8) (wrap 24 crem)).sw (ms + 9) (wrap 24 (asr crem 24))
    (x, { kind := kind, m := m, prev := prev, ok := true, lost := false }, kind == 3 && decide (st < n))

/-! ## Cams (R246 to R248) -/

/-- The table of a cam: its address, none where it is not placed. -/
def Le.camAt (x : Le) (b : Bool) (dir k : Nat) : Option Nat :=
  let o := x.wu b (tab (dir + k % 64))
  if o % 0x2000 = 0x1FFF then none else some (tab o)

/-- A cam under a body at master `m`: position in 2^−48 counts, CYC, CAMERR, and whether this run is a switch point. -/
def Le.cam (x : Le) (b : Bool) (ta body : Nat) (m prev cyc : Int) : Int × Int × Bool × Bool :=
  let n : Nat := Nat.max 1 (x.wu b ta)
  let per := x.wu b (ta + 1) % 2 == 1
  let ks := x.wu b (ta + 2) % 32
  let m0 := bs64 body 16
  let mlen := bs64 body 24
  let u0 := m - m0 - (if per then cyc * mlen else 0)
  let err : Bool := per && decide (mlen ≤ 2 * absI (m - prev))
  let cyc' := if per then (if mlen ≤ u0 then cyc + 1 else if u0 < 0 then cyc - 1 else cyc) else 0
  let u := if per then (if mlen ≤ u0 then u0 - mlen else if u0 < 0 then u0 + mlen else u0) else clampI 0 mlen u0
  let n' := if per then n else n - 1
  let q := (asr (u * (bfld body 32 8 : Nat)) 57).toNat
  let past : Bool := decide (n' ≤ q / 2 ^ 23)
  let j := if past then n' - 1 else q / 2 ^ 23
  let t : Int := if past then (2 ^ 23 - 1 : Nat) else (q % 2 ^ 23 : Nat)
  let raw (k : Nat) : Int := x.ws b (ta + 8 + k)
  let y (k : Int) : Int :=
    if per then raw (k % n).toNat
    else if k < 0 then 2 * raw 0 - raw 1
    else if n ≤ k.toNat then 2 * raw (n - 1) - raw (n - 2)
    else raw k.toNat
  let y0 := y ((j : Int) - 1)
  let y1 := y j
  let y2 := y ((j : Int) + 1)
  let y3 := y ((j : Int) + 2)
  let c1 := y2 - y0
  let c2 := 2 * y0 - 5 * y1 + 4 * y2 - y3
  let c3 := 3 * (y1 - y2) + (y3 - y0)
  let f := sat24 ((2 * y1 * 2 ^ 69 + t * c1 * 2 ^ 46 + t * t * c2 * 2 ^ 23 + t * t * t * c3) / (2 ^ 70))
  let pos := bs64 body 40 + cyc' * bs64 body 48 + f * 2 ^ (9 + ks)
  (pos * 65536, cyc', err, if per then cyc' != cyc else u == mlen)

/-! ## The laws (R234, R235, R245, R251) -/

def sat64 (v : Int) : Int := clampI (-(2 ^ 63)) (2 ^ 63 - 1) v

/-- The new state under a law that computes P directly (R235). -/
def Mot.jump (m : Mot) (p : Int) : Mot :=
  let v := sat64 (p - m.p)
  { m with p := p, a := v - m.v, v := v }

/-- One run of GEAR (R245). After the ramp R0 is RATIO. -/
def Mot.gear (m : Mot) (ms : Master) : Mot :=
  let dM := ms.m - ms.prev
  let body := m.keep.body
  let ramp := bfld body 24 4
  let k := m.keep.ramp + 1
  let q := bs64 body 16 * dM
  let q0 := if m.keep.ratio then m.law0 * dM else m.law0 * 65536
  let d := (if ramp ≤ k then q else q0 + (q - q0) * k / ramp) + m.rem
  let m := { m.jump (m.p + asr d 16) with rem := wrap 16 d }
  if ramp ≤ k then { m with law0 := bs64 body 16, keep := { m.keep with ratio := true, ramp := k } }
  else { m with keep := { m.keep with ramp := k } }

/-- Position on a LINE or an ARC at `s` (R251), in 2^−48 counts. -/
def linePos (body : Nat) (s : Int) : Int := (bs64 body 32 + asr (bs64 body 40 * (s - bs64 body 16)) 32) * 65536

def arcPos (body : Nat) (s : Int) : Int :=
  let th := turn ((bfld body 56 3 : Nat) + asr ((s - bs64 body 16) * bs64 body 48) 64)
  let cs := sinCos th
  (bs64 body 32 + asr (bs64 body 40 * (if bfld body 15 1 = 1 then cs.2 else cs.1)) 23) * 65536

/-- The STOP law (R254). -/
def Mot.stopLaw (m : Mot) (t : MotTab) : Mot :=
  if m.v = 0 then { m with a := 0, law := 7 }
  else
    let s : Int := if m.v < 0 then -1 else 1
    let u := s * m.v
    let a := s * m.a
    let q := if t.jstop ≤ 0 then 0 else -a / t.jstop
    let r := -a - q * t.jstop
    let shed := t.jstop * q * (q - 1) / 2 + q * r
    let rel := m.rel || (decide (a < 0) && decide (u ≤ shed - a))
    let a := if rel then Min.min (a + t.jstop) 0 else if -t.dstop < a then Max.max (a - t.jstop) (-t.dstop) else Min.min (a + t.jstop) (-t.dstop)
    let v' := m.v + s * a
    if (if v' < 0 then (-1 : Int) else if v' = 0 then 0 else 1) ≠ s ∨ (rel ∧ a = 0) then { m with v := 0, a := 0, law := 7, rel := false }
    else { m with rel := rel, a := s * a, v := v', p := m.p + v' }

/-- The slot that a body names. -/
def slotOf (law body : Nat) : Nat := if law = 3 then bfld body 15 1 else bfld body 14 1

/-- Own-ramp stop. -/
def Mot.ownStop (m : Mot) : Mot :=
  if m.law = 7 then { m with follow := false }
  else { m with law := 6, rel := m.law == 6 && m.rel, follow := false }

/-- The executing barge retires. -/
def Mot.retire (m : Mot) (res : Nat) : Mot := { m with curOn := false, done := m.cur, result := res }

/-- A stop with the axis's own ramp: the executing barge retires with STOPPED. At most one barge retires in a run (R236); where one has, the
executing barge retires at the start of the next run. -/
def Mot.halt (m : Mot) (retired : Bool) : Mot := (if m.curOn && !retired then m.retire resStopped else m).ownStop

/-- The law is one that FOLLOW carries on. -/
def Mot.following (m : Mot) : Bool := 2 ≤ m.law && m.law ≤ 5

/-- The kernel sees STOP = 1, or raises a cause of its own (R253). -/
def Mot.stopBy (m : Mot) (follow retired : Bool) : Mot :=
  if follow && m.following then (if m.follow then m else { m with follow := true, k := 0, vzero := false }) else m.halt retired

/-- One run of the law in force: the new state, whether this run is a switch point of the cam, and whether the cam raises CAMERR. -/
def Le.runLaw (x : Le) (b : Bool) (t : MotTab) (sl : Nat → Master) (m : Mot) : Mot × Bool × Bool :=
  let body := m.keep.body
  let ms := sl (slotOf m.law body % 2)
  match m.law with
  | 0 => ({ m with p := m.p + m.v, a := 0 }, false, false)
  | 1 =>
    let a := m.a + bs64 body 18
    let v := m.v + a
    ({ m with a := a, v := v, p := m.p + v }, false, false)
  | 2 => (m.gear ms, false, false)
  | 3 =>
    match x.camAt b t.camDir (bfld body 14 1) with
    | none => (m.jump m.p, false, false)
    | some ta =>
      let c := x.cam b ta body ms.m ms.prev m.cyc
      ({ m.jump c.1 with cyc := c.2.1 }, c.2.2.2, c.2.2.1)
  | 4 => (m.jump (linePos body ms.m), false, false)
  | 5 => (m.jump (arcPos body ms.m), false, false)
  | 6 => (m.stopLaw t, false, false)
  | _ => ({ m with v := 0, a := 0 }, false, false)

/-! ## A run (R236) -/

/-- A barge that begins in this run begins late (R236): the run instant lies T_r or more after START. -/
def lateBarge (i : RomIn) (t : MotTab) (d : Desc) : Bool := dStart d != 0 && decide (dStart d + t.per * i.ticks * 64 ≤ i.run)

/-- The executing barge is complete. -/
def bargeComplete (d : Desc) (m : Mot) (sl : Nat → Master) : Bool :=
  let s (o : Nat) : Int := (sl (bfld (dBody d) o 1 % 2)).m
  match dType d with
  | 1 => decide (bfld (dBody d) 14 4 ≤ m.k)
  | 2 => decide (Nat.max 1 (bfld (dBody d) 24 4) ≤ m.keep.ramp)
  | 3 => m.keep.cam != 0
  | 4 => decide (bs64 (dBody d) 24 ≤ s 14)
  | 5 => decide (bs64 (dBody d) 24 ≤ s 14)
  | 6 =>
    let v := bs64 (dBody d) 16
    let w := (sl (bfld (dBody d) 15 1 % 2)).m
    match bfld (dBody d) 14 1 with
    | 0 => true
    | 1 => decide (v ≤ w)
    | _ => decide (w ≤ v)
  | _ => true

/-- Step 3: retire the executing barge if it is complete. The answer says whether one retired, and whether that ended a PHASE. -/
def retireStep (i : RomIn) (sl : Nat → Master) (m : Mot) : Mot × Bool × Bool :=
  if !m.curOn then (m, false, false)
  else
    match i.exec m.cur with
    | none => (m.retire resDone, true, false)
    | some d =>
      if !bargeComplete d m sl then (m, false, false)
      else
        let seg := dType d == 1 && nbit (dFlags d) 2 &&
          decide (wrap 80 m.p ≠ bfld (dBody d) 26 8 * 65536 + bfld (dBody d) 34 2)
        let m := m.retire (if seg then resSegErr else if m.keep.cam = 2 then resDiscont else if m.keep.cam = 3 then resRange
          else if m.keep.late then resLate else resDone)
        ((if seg then { m.ownStop with segerr := true } else m), true, dType d == 1 && !seg)

/-- A barge cannot be begun: its master slot has kind 0, or its cam table is absent (R236). -/
def Le.bargeBad (x : Le) (b : Bool) (t : MotTab) (sl : Nat → Master) (d : Desc) : Bool :=
  let body := dBody d
  let none0 (o : Nat) : Bool := (sl (bfld body o 1 % 2)).kind == 0
  match dType d with
  | 2 => none0 14
  | 3 => none0 15 || (x.camAt b t.camDir (bfld body 14 1)).isNone
  | 4 => none0 14
  | 5 => none0 14
  | 6 => bfld body 14 1 != 0 && none0 15
  | _ => false

/-- A CAM barge is to take effect in this run (R249); `m` is the state before it and `old` the one under the law in force: DISCONT where the
position steps by more than CAM_TOL. -/
def Le.camSwitch (x : Le) (b : Bool) (t : MotTab) (sl : Nat → Master) (m : Mot) (d : Desc) (old : Mot) : Mot :=
  let body := dBody d
  match x.camAt b t.camDir (bfld body 14 1) with
  | none => { old with keep := { old.keep with cam := 3 } }
  | some ta =>
    let ms := sl (bfld body 15 1 % 2)
    let mlen := bs64 body 24
    let per := x.wu b (ta + 1) % 2 == 1
    let cyc := if per ∧ mlen ≠ 0 then (ms.m - bs64 body 16) / mlen else 0
    let c := x.cam b ta body ms.m ms.m cyc
    if t.camTol * 65536 < absI (c.1 - old.p) then { old with log := true, keep := { old.keep with cam := 2 } }
    else { m.jump c.1 with law := 3, cyc := c.2.1, keep := { m.keep with body := body, cam := 1 } }

/-- Step 4: a barge begins; its body is copied into the state region. A barge that brings no law at once (WAIT, MARK, a CAM that waits for
its switch) leaves the law in force; DESIGN CHOICE (log entry 266): after a PHASE that ended in this run that is CONST. -/
def Mot.begin (m : Mot) (i : RomIn) (t : MotTab) (e : Desc) (phaseDone : Bool) : Mot :=
  let body := dBody e
  let keep : LawKeep := { m.keep with cam := 0, late := lateBarge i t e }
  let m := { m with curOn := true, cur := dSeq e, k := if m.follow then m.k else 0, body := body, keep := keep }
  let own : LawKeep := { keep with body := body }
  match dType e with
  | 1 => { m with law := 1, keep := own }
  | 2 =>
    { m with law := 2, law0 := if m.law = 2 then bs64 m.keep.body 16 else m.v, keep := { own with ratio := m.law == 2, ramp := 0 } }
  | 4 => { m with law := 4, keep := own }
  | 5 => { m with law := 5, keep := own }
  | _ => if phaseDone then { m with law := 0 } else m

/-- Step 5: the law, and the switch of a CAM barge that waits for it. The answer says whether this run was one. -/
def Le.motion (x : Le) (i : RomIn) (t : MotTab) (sl : Nat → Master) (m : Mot) (begun : Option Desc) (follow retired : Bool) : Mot × Bool :=
  let b := i.bankB
  let m := { m with k := if m.curOn ∨ m.follow then m.k + 1 else m.k }
  let r := x.runLaw b t sl m
  if r.2.2 then
    let n := { m with camerr := true }
    ((if follow then { r.1.stopBy true retired with camerr := true } else (n.halt retired).stopLaw t), false)
  else
    match (if m.curOn then (i.exec m.cur).or begun else none) with
    | some e =>
      if dType e ≠ 3 ∨ m.keep.cam ≠ 0 ∨ (m.law = 3 ∧ ¬ nbit (dFlags e) 1 ∧ ¬ r.2.1) then (r.1, false)
      else (x.camSwitch b t sl m e r.1, true)
    | none => (r.1, false)

/-- Most cycles of a law (R261). -/
def lawCycles : Nat → Nat
  | 1 => 25 | 2 => 50 | 3 => 120 | 4 => 35 | 5 => 55 | 6 => 60 | _ => 10

/-- Most cycles for a master slot with its latch correction (R261). -/
def slotCycles (src : Nat) : Nat :=
  (match bits src 9 8 with
  | 0 => 0 | 3 => 40 | _ => 10) + 20 * b2n (nbit src 12)

def kInterp (i : RomIn) (x : Le) : RomOut :=
  let b := i.bankB
  let p := i.base
  let tb := x.wu b p % 0x2000
  let w (k : Nat) : Nat := tab (tb + k)
  let t : MotTab := { per := x.wu b (w 1), dstop := s64 (x.w64 b (w 2)), jstop := s64 (x.w64 b (w 6)), f := x.wx b (w 10),
                      f2 := x.w64 b (w 12), camTol := x.w48 b (w 24), camDir := x.wu b (w 26), tmax := x.wu b (w 27) }
  let m := x.readMot b p i.keep
  -- Step 1
  let mb := x.wu b (p + 1) % 256
  let stOk := x.mbok mb
  let st := (x.mb mb).toNat
  let stop := if stOk then nbit st 18 else m.stop
  let follow := if stOk then nbit st 19 else m.follow
  let desc : Desc := BitVec.ofNat 512 ((List.range 8).foldl (fun (n : Nat) j => n + (x.mb (mb + 1 + j)).toNat * 2 ^ (64 * j)) 0)
  let s0 := x.master i tb 0
  let s1 := s0.1.master i tb 1
  let x := s1.1
  let sl (k : Nat) : Master := if k = 0 then s0.2.1 else s1.2.1
  let m := { m with stale := s0.2.2 || s1.2.2 }
  -- Step 2
  let was := m.curOn
  let m := if !stop && m.law == 7 then { m with law := 0, v := 0, a := 0, undr := false, mlost := false, segerr := false, camerr := false } else m
  let m := if m.curOn && (m.law == 6 || m.law == 7) then m.retire resStopped else m
  let m := if s0.2.1.lost || s1.2.1.lost then { m.halt false with mlost := true } else m
  let m := if stop && !m.follow && m.law != 6 && m.law != 7 then m.stopBy follow false
    else if m.stop && !stop then { m with follow := false } else m
  let m := { m with stop := stop }
  let stopped := was && !m.curOn
  -- Step 3
  let r := retireStep i sl m
  let m := r.1
  let retired := stopped || r.2.1
  -- Step 4
  let next := stOk && nbit st 16 && x.mball (mb + 1) 8 && dSeq desc == (m.done + 1) % 65536 && !m.curOn && nbit st 17
  let giveUp := m.follow && ((next && dType desc == 1) || decide (t.tmax ≤ m.k))
  let m := if giveUp then m.halt retired else m
  let may := next && !giveUp && m.law != 6 && m.law != 7 && (!stop || m.follow)
  let bad := may && x.bargeBad b t sl desc
  let begun : Option Desc := if may && !bad then some desc else none
  let m := if bad && !retired then { m with done := dSeq desc, result := resRange } else m
  let phaseDone := r.2.2 && m.law == 1
  let m := match begun with
    | some e => m.begin i t e phaseDone
    | none => if !phaseDone then m else if m.a = 0 then { m with law := 0 } else { m.ownStop with undr := true }
  -- Step 5
  let law := m.law
  let s := x.motion i t sl m begun follow retired
  let m := s.1
  let zero := m.v == 0
  let m := if m.follow && zero && m.vzero then
      { (if m.curOn && !retired then m.retire resStopped else m) with law := 7, a := 0, follow := false, vzero := false }
    else { m with vzero := m.follow && zero }
  -- Step 6
  let pc := wrap 64 (asr m.p 16)
  let vc := wrap 64 (sat64 (asr (m.v * t.f) 24))
  let ac := wrap 64 (sat64 (asr (m.a * t.f2) 32))
  let cmd := x.wu b (p + 2)
  let x := ((x.sw64 cmd pc).sw64 (cmd + 4) vc).sw64 (cmd + 8) ac
  let x := x.writeMot b p m
  let rep := m.cur + 65536 * m.done + 2 ^ 32 * m.result + 2 ^ 36 * m.law + 2 ^ 40 * b2n m.curOn + 2 ^ 41 * b2n m.undr +
    2 ^ 42 * b2n m.mlost + 2 ^ 43 * b2n m.segerr + 2 ^ 44 * b2n m.camerr + 2 ^ 45 * b2n m.stale
  let wide (v : Nat) : StagedFlit := { data := BitVec.ofNat 64 v, wide := true }
  let virt := !i.called && x.wu b (w 0) % 2 == 1
  let cyc := 24 + (match begun with
      | some e => if dType e = 3 then 60 else 30
      | none => 0) + slotCycles (x.wu b (w 16)) + slotCycles (x.wu b (w 17)) + lawCycles law +
    (if s.2 then 110 + (if law = 3 then 0 else 120) else 0) + 8 * b2n ((i.exec m.cur).any fun e => dType e == 6) + 30 + 4 + 12 * b2n virt + 20 +
    3 * b2n (!i.called)
  -- The report; what a virtual axis publishes (R259); what the slow lock of a stepper axis stages for K_STEP (R263)
  let out := if virt then [pc, vc, ac] else if !i.called && i.step then [pc, vc, i.x1 % 2 ^ 32] else []
  { x := x, wide := wide rep :: out.map wide, log := m.log, cyc := cyc, keep := some m.keep }

end Sys2Proof.Machine
end

