-- ==== Sys2Proof/Machine/Rom.lean ====
section
/-! DEFINITION. A loop ROM kernel as ENTRY or callee (R128, R129, R590, R589), and the commands COMMIT and RET that such a
kernel or a lock's own code executes. -/

namespace Sys2Proof.Machine
open Sys2Proof.Machine.Reg

/-- The queue of a lock: that of its axis or virtual axis. -/
def State.execDesc (s : State) (axis seq : Nat) : Option Desc :=
  let q := s.queueAt axis
  ((q.exec.toList ++ q.queued).map s.desc).find? fun d => dSeq d == seq

/-- What a kernel on LE_e sees. -/
def State.romIn (s : State) (_e : Nat) (r : LeRun) (x : Le) : RomIn :=
  let ax := r.lock.axis
  let ft := s.grid.1
  { bankB := s.bankB, base := if r.called then (x.bank.pr 1).toNat else (x.bank.pr 0).toNat, state := r.lock.stateBase,
    called := r.called, x1 := s.tt.flightNo, free := fun k => Config.freeNat (s.free + k), ticks := ft,
    run := (s.tt.flightNo * ft + s.grid.2.1) * 64,
    step := ax < 48 && s.fld (STP_CFG ax) Fld.STP_CFG_CLASS != 0,
    start := ax < 48 && (s.axAt ax).stepNew,
    keep := match r.keep with
      | some k => if k.1 = ax then k.2 else (s.queueAt ax).keep
      | none => (s.queueAt ax).keep,
    strong := ax < 48 && s.fld (STP_CFG ax) Fld.STP_CFG_CLASS == 1,
    ext := ax < 48 && s.flag (GATE_CFG ax) Fld.GATE_CFG_EXT,
    exec := s.execDesc ax }

/-- The kernel at an entry point; none for RT_IST, which has no data. -/
def romKernel : Nat → Option (RomIn → Le → RomOut)
  | 0x8100 => some kFoc
  | 0x8180 => some kDci
  | 0x8200 => some kStep
  | 0x8280 => some (kPid false)
  | 0x8290 => some (kPid true)
  | 0x82A0 => some kBq
  | 0x82C0 => some kObs
  | 0x8300 => some kVp
  | 0x8380 => some kInterp
  | 0x8400 => some kInterp
  | 0x8480 => some kMinsel
  | 0x8500 => some kPrbs
  | _ => none

/-- Kernels that stage their words as ENTRY. -/
def stagesWords (k : Nat) : Bool := k = 0x8100 ∨ k = 0x8180 ∨ k = 0x8200 ∨ k = 0x8300 ∨ k = 0x8280 ∨ k = 0x8290

/-- The words of an ENTRY in staging order. -/
def RomOut.staged (o : RomOut) (k : Nat) : List StagedFlit :=
  o.wide ++ (if stagesWords k then o.ret.zipIdx.map fun v => { data := BitVec.ofInt 64 v.1, wide := false, word := o.words[v.2]? } else [])

/-- Free contents of the kernel scratch (R125) after a kernel of the loop ROM. -/
def Le.scratch (x : Le) (free : Nat → Nat) : Le :=
  { x with data := (List.range 128).foldl (fun t k => Tbl.put 0 t (0x1F00 + k) (BitVec.ofNat 24 (free (64 + k)))) x.data }

/-- Caller-saved registers after a call (R130): free, but the results. -/
def Le.callerSaved (x : Le) (free : Nat → Nat) (o : RomOut) : Le :=
  let fx (k : Nat) : Word := BitVec.ofNat 32 (free (16 + k))
  let b := x.bank
  let xs : Vector Word 16 := (List.range 8).foldl (fun (v : Vector Word 16) k => v.setIfInBounds k (fx k)) b.x
  let xs := match o.x0 with
    | some n => xs.setIfInBounds 0 (BitVec.ofNat 32 n)
    | none => xs
  let xs := match o.x1 with
    | some n => xs.setIfInBounds 1 (BitVec.ofNat 32 n)
    | none => xs
  let ds : Vector D24 16 := (List.range 8).foldl (fun (v : Vector D24 16) k =>
    v.setIfInBounds k (match o.ret[k]? with
      | some w => BitVec.ofInt 24 w
      | none => BitVec.ofNat 24 (free (24 + k)))) b.d
  let as : Vector (BitVec 56) 4 := (List.range 4).foldl (fun (v : Vector (BitVec 56) 4) k => v.setIfInBounds k (BitVec.ofNat 56 (free (32 + k)))) b.a
  let ms : Vector Word 8 := (List.range 4).foldl (fun (v : Vector Word 8) k => v.setIfInBounds k (fx (20 + k))) b.m
  let b := { b with x := xs, d := ds, a := as, m := ms,
                    sr := BitVec.ofNat 32 (b.sr.toNat / 128 * 128 + free 40 % 128), fl := BitVec.ofNat 32 (free 40 % 128) }
  let b := (List.range 3).foldl (fun (b : LeBank) k => b.loadP (k + 1) (BitVec.ofNat 14 (free (41 + k)))) b
  { x with bank := b }

/-- Free values a kernel of the loop ROM may use. -/
def State.romFree (s : State) : State := { s with free := s.free + 256 }

/-- The kernel runs up to its COMMIT or its RET: the engine with its work done and its cycles spent, at most those the kernel needs for the work of
the run, less those of COMMIT and END; none where the tokens do not last, and the lock is cut off. -/
def State.romRun (s : State) (e k spare : Nat) : Option (Le × RomOut) :=
  let x := (s.leAt e).flush
  match x.run, romKernel k with
  | some r, some f =>
    let o := f (s.romIn e r x) x
    let c := 1 + Config.freeNat (s.free + 255) % Nat.max 1 (o.cyc - spare)
    if r.tokens < c then none
    else
      let y := o.x.scratch fun j => Config.freeNat (s.free + j)
      some ({ y with run := y.run.map fun (q : LeRun) => { q.spend c with keep := (o.keep.map fun l => (r.lock.axis, l)).or q.keep } }, o)
  | _, _ => none

/-- The corrected fault of a cam that does not fit (R249); the queue is the source of a virtual axis. K_STEP has seen that EN was set (R273). -/
def State.romLog (s : State) (k : Nat) (o : RomOut) (axis : Nat) : State :=
  let s := if k = 0x8200 then s.setAx axis { s.axAt axis with stepNew := false } else s
  if o.log then s.logCorrected (if axis < 48 then srcId 0x09 axis else srcId 0x06 axis) else s

/-- A ROM kernel that runs as ENTRY reaches its COMMIT. The addresses of its instructions are not given; DESIGN CHOICE (log entry 263): PC stays at the
entry point while it runs, so a cut-off within it is recorded there (R131). -/
def State.romCommit (s : State) (e k : Nat) (r : LeRun) : State :=
  if r.called ∨ r.commits ≠ 0 ∨ k = 0x8020 then s
  else
    match s.romRun e k 3 with
    | none => s.romFree.cutOff e 0x80
    | some (y, o) =>
      let s := (s.romLog k o r.lock.axis).romFree
      match y.run with
      | none => s
      | some q =>
        let fl := o.staged k
        let n := fl.foldl (fun (n : Nat) (f : StagedFlit) => n + f.size) 0
        let q : LeRun := { q with staged := fl, total := n }
        if q.tokens = 0 then (s.setLe e y).cutOff e 0x80
        else (s.count (cntLe e) 9 n).commitPoint e { y with run := some q } q id

/-- A called ROM kernel returns through X15; RT_IST ends its lock and returns nowhere. -/
def State.romRet (s : State) (e k : Nat) (r : LeRun) : State :=
  if !r.called ∨ k = 0x8020 then s
  else
    match s.romRun e k 0 with
    | none => s.romFree.cutOff e 0x80
    | some (y, o) =>
      let z := y.callerSaved (fun j => Config.freeNat (s.free + j)) o
      let s := (s.romLog k o r.lock.axis).romFree
      match z.run with
      | none => s
      | some q =>
        if 256 < q.total + o.wide.length * 2 then (s.setLe e z).cutOff e 0x07
        else
          let q : LeRun := { q with rom := none, called := false, staged := q.staged ++ o.wide, total := q.total + o.wide.length * 2 }
          s.setLe e ({ z with run := some q }.goto ((y.bank.xr 15).toNat % 65536))

/-- An engine whose lock runs code of the loop ROM. -/
def State.romActive (s : State) (e : Nat) : Option (Nat × LeRun) :=
  match (s.leAt e).run with
  | some r => if s.leHalted e || s.fc.stopped.contains (domLe e) then none else r.rom.map fun k => (k, r)
  | none => none

/-- COMMIT (R64 to R66). -/
def execCommit (e : Fin 12) (s : State) : Host.Outcome State Fault Refusal :=
  match s.romActive e with
  | some (k, r) => .next (s.romCommit e k r)
  | none => .next (s.leCommit e)

/-- RET of the loop profile: of a called kernel, or of the lock's own code. -/
def State.leReturn (s : State) (e : Nat) (ra : Fin 16) : State :=
  match s.romActive e with
  | some (k, r) => s.romRet e k r
  | none => leRet e ra s

end Sys2Proof.Machine
end

