-- ==== Sys2Proof/Machine/Faults.lean ====
section
/-! DEFINITION. Commands of the fault collector (R334 to R354, R592): reports, acknowledgement, timers. -/

namespace Sys2Proof.Machine
open Sys2Proof.Machine.Reg

/-- A report of the mirror at activation does not count as a double fault (R349). -/
def exemptReport (r : Report) : Bool := r.src == srcId 0x07 0 && r.react == .safepwm && r.cls == .contained

/-- FAULT_REPORT: a report reaches the collector. -/
def execFaultReport (r : Report) (s : State) : Host.Outcome State Fault Refusal := .next (s.report r !(exemptReport r))

/-- COLLECTOR_COPY_MISMATCH: the collector's copies disagree, or its clock stops (R338). -/
def execCollectorCopyMismatch (tpStop : Bool) (s : State) : Host.Outcome State Fault Refusal :=
  let s := if tpStop then s.modFc fun f => { f with stopped := addOnce f.stopped domTP } else s
  .next (s.hwSafe tpStop)

/-- Whether a pending source qualifies: the code of R339. -/
def State.ackCode (s : State) (src : Nat) : Nat :=
  match s.fc.pend.find? (·.src == src) with
  | none => 1
  | some p => if s.fc.conds.any (·.1 == src) then 2 else if p.fatal ∧ s.mode ≠ .hold then 3 else 0

def State.setAckCode (s : State) (c : Nat) : State := s.setFld FC_ACKSTAT Fld.FC_ACKSTAT_CODE c

/-- An acknowledgement of one source (R339). -/
def State.ackOne (s : State) (src : Nat) : State :=
  if s.hwSafeOn then s.setAckCode 4
  else
    let c := s.ackCode src
    (if c = 0 then s.release src else s).setAckCode c

/-- An acknowledgement of every source that qualifies (R592). -/
def State.ackAll (s : State) : State :=
  if s.hwSafeOn then s.setAckCode 4
  else
    let srcs := s.fc.pend.map PendSrc.src
    let ok := srcs.filter fun x => s.ackCode x == 0
    let code := if ok ≠ [] then 0 else
      match srcs.min? with
      | none => 1
      | some x => s.ackCode x
    (ok.foldl State.release s).setAckCode code

/-- The effect of a completed pair in FC_ACK. -/
def State.fcAckApply (s : State) (w : Word) : State :=
  if fget w Fld.FC_ACK_GO = 0 then s
  else if fget w Fld.FC_ACK_SRC = 0xFFFF then s.ackAll else s.ackOne (fget w Fld.FC_ACK_SRC)

/-- FC_DEG takes 1 to 72 hours. -/
def degOk (w : Word) : Bool := decide (1 ≤ fget w Fld.FC_DEG_MD_LIMIT ∧ fget w Fld.FC_DEG_MD_LIMIT ≤ 72)

/-- MD_TIMER_EXPIRY (R350). -/
def execMdTimerExpiry (s : State) : Host.Outcome State Fault Refusal :=
  if s.due .mdLimit then .next (s.stopTimer .mdLimit).enterSafeStop else .next s

/-- SD_TIMER_EXPIRY (R381). -/
def execSdTimerExpiry (s : State) : Host.Outcome State Fault Refusal :=
  if s.due .sdLimit then .next (s.stopTimer .sdLimit).enterSafeStop else .next s

end Sys2Proof.Machine
end

