-- ==== Sys2Proof/Machine/SafeData.lean ====
section
/-! DEFINITION. Dual-plane safe data (R468 to R476): the table, reception and comparison, connections, plane loss. -/

namespace Sys2Proof.Machine
open Sys2Proof.Machine.Reg

def State.rxAt (s : State) (r : Nat) : Rx := vget s.safe.rx {} r
def State.setRx (s : State) (r : Nat) (x : Rx) : State := s.modSafe fun f => { f with rx := f.rx.setIfInBounds r x }

/-- The safety functions are armed. -/
def State.armed (s : State) : Bool := s.flag SAFE_STAT Fld.SAFE_STAT_ARMED
/-- Safe data is armed (R471). -/
def State.sdtArmed (s : State) : Bool := s.flag SAFE_SDT_STAT Fld.SAFE_SDT_STAT_ARMED

/-! ## The safety parameter block in use (R340, R355) -/

/-- Source of a safety report (R374). -/
def safeSrc (i : Nat) : Nat := srcId 0x14 i

/-- The parameter copies of a channel disagree. -/
def SafeCh.torn (x : SafeCh) : Bool := x.cmp != x.val.map fun b => ~~~b

/-- The block that both channels hold: the copy of A or, where A is lost or its copies disagree, of B; no copy whose halves disagree. -/
def State.block (s : State) : List Byte :=
  let a := s.safe.a
  if !a.lost && !a.torn then a.val else if s.safe.b.torn then [] else s.safe.b.val

/-- A use of the block finds copies that disagree: fatal, once until it is acknowledged. -/
def State.tornReports (s : State) : List Report :=
  if (s.safe.a.torn || s.safe.b.torn) && !(s.fc.pend.any fun p => p.src == safeSrc 0xB3) then [fatalRep (safeSrc 0xB3)] else []

/-- The block is used. -/
def State.useBlock (s : State) : State := s.reportAll s.tornReports

/-! ## The table (R470) -/

/-- All bytes of a range are 0. -/
def zeros (l : List Byte) (o n : Nat) : Bool := ((l.drop o).take n).all (· == 0)

def canIdOk (v : Nat) : Bool := v / 2 ^ 29 % 4 == 0

structure Conn where
  canId  : Nat
  src    : Nat
  pmask  : Nat
  act    : Nat
  groups : Nat
  wd     : Nat
  deriving DecidableEq, Repr

def connOf (l : List Byte) (r : Nat) : Conn :=
  let o := 24 + 12 * r
  { canId := leAtOf l o 4, src := leAtOf l (o + 4) 2, pmask := leAtOf l (o + 6) 1, act := leAtOf l (o + 7) 1,
    groups := leAtOf l (o + 8) 2, wd := leAtOf l (o + 10) 1 }

def connOk (c : Conn) : Bool :=
  canIdOk c.canId && decide (c.src < 16384) && decide (c.act ≤ 1) && decide (c.groups < 4096) && decide (2 ≤ c.wd)

/-- The load code of a table (codes of SAFE_STAT.LOAD_CODE), in the order of R377: format and ranges, then CHECK (R471). -/
def sdtCode (l : List Byte) : Nat :=
  let n := leAtOf l 11 1
  if l.length ≠ 128 ∨ leAtOf l 0 4 ≠ 0x53445431 ∨ leAtOf l 4 2 ≠ 0x0100 ∨ leAtOf l 6 2 ≠ 128 ∨ !zeros l 19 1 ∨ !zeros l 120 4 ∨
      !(List.range 8).all (fun r => if r < n then zeros l (24 + 12 * r + 11) 1 else zeros l (24 + 12 * r) 12) then 1
  else if ¬ (leAtOf l 8 1 ≤ 1 ∧ 1 ≤ leAtOf l 9 1 ∧ leAtOf l 9 1 ≤ 16 ∧ leAtOf l 10 1 ≤ 1 ∧ n ≤ 8 ∧ canIdOk (leAtOf l 12 4) ∧
      50 ≤ leAtOf l 16 2 ∧ leAtOf l 16 2 ≤ 5000 ∧ 1 ≤ leAtOf l 18 1 ∧ leAtOf l 18 1 ≤ 16 ∧ 100 ≤ leAtOf l 20 4 ∧
      leAtOf l 20 4 ≤ 100000 ∧ (List.range n).all (fun r => connOk (connOf l r))) then 3
  else if crc32c (l.take 124) ≠ leAtOf l 124 4 then 2 else 0

/-- Connections of the table that both channels hold. -/
def State.nrx (s : State) : Nat := leAtOf s.safe.sdt 11 1
def State.conn (s : State) (r : Nat) : Conn := connOf s.safe.sdt r
def State.canCh (s : State) : Nat := leAtOf s.safe.sdt 10 1

/-- Every connection in WAIT. -/
def State.rxWait (s : State) : State := s.modSafe fun f => { f with rx := Vector.replicate 8 {} }

/-- Bring connection `r` to its register. -/
def State.showRx (s : State) (r : Nat) : State :=
  s.setFldPulse 18 (SAFE_RX_STAT r) Fld.SAFE_RX_STAT_STATE (match (s.rxAt r).st with | .wait => 0 | .ok => 1 | .lost => 2 | .fault => 3)

/-- ARMED of safe data follows its two parts (R471, R474). -/
def State.showSdt (s : State) : State :=
  let on := s.safe.sdtOn && s.armed
  let s := if s.sdtArmed && !on then s.rxWait else s
  let s := s.setFld SAFE_SDT_STAT Fld.SAFE_SDT_STAT_ARMED (b2n on)
  s.each 8 fun s r => s.showRx r

/-- A write of SAFE_SDT_CTRL. -/
def State.sdtCtrlWrite (s : State) (w : Word) : State :=
  if fget w Fld.SAFE_SDT_CTRL_LOAD = 0 then s
  else if s.mode ≠ .commission then s.setFld SAFE_SDT_STAT Fld.SAFE_SDT_STAT_LOAD_CODE 5
  else
    let s := (s.modSafe fun f => { f with sdtOn := false, sdtLoad := some (s.reg SAFE_SDT_ADDR).toNat }).showSdt
    let s := (s.setFld SAFE_SDT_STAT Fld.SAFE_SDT_STAT_CHECK_VALID 0).setReg SAFE_SDT_CHECK 0
    (s.setFld SAFE_SDT_STAT Fld.SAFE_SDT_STAT_LOADED 0).setFld SAFE_SDT_STAT Fld.SAFE_SDT_STAT_LOAD_CODE 0xFF

/-- SDT_LOAD. -/
def execSdtLoad (_i : Initiator) (w : Word) (s : State) : Host.Outcome State Fault Refusal :=
  .next (s.access SAFE_SDT_CTRL fun s => s.sdtCtrlWrite w)

/-- Both channels take a table whose code is 0; else the code is shown. -/
def State.sdtTake (s : State) (l : List Byte) (code : Nat) : State :=
  let s := (s.modSafe fun f => { f with sdtLoad := none }).setFld SAFE_SDT_STAT Fld.SAFE_SDT_STAT_LOAD_CODE code
  if code ≠ 0 then s
  else
    let s := (s.modSafe fun f => { f with sdt := l }).rxWait
    let s := (s.setFld SAFE_SDT_STAT Fld.SAFE_SDT_STAT_LOADED 1).setFld SAFE_SDT_STAT Fld.SAFE_SDT_STAT_CHECK_VALID 1
    s.setReg SAFE_SDT_CHECK (BitVec.ofNat 32 (leAtOf l 124 4))

/-- The load of the table ends. -/
def State.sdtLoadDone (s : State) (agree : Bool) : State :=
  match s.safe.sdtLoad with
  | none => s
  | some a =>
    let l := (s.bytesAt .sv0 a 128).getD []
    let c := sdtCode l
    s.sdtTake l (if c = 0 ∧ !agree then 4 else c)

/-- The effect of an accepted SAFE_SDT_CONFIRM; the record goes to the parameter store. -/
def State.sdtConfirmApply (s : State) (w : Word) : State :=
  if s.flag SAFE_SDT_STAT Fld.SAFE_SDT_STAT_CHECK_VALID ∧ w = s.reg SAFE_SDT_CHECK then
    let s := (s.modSafe fun f => { f with sdtOn := true, sdtConf := true }).showSdt
    s.modBoot fun b => { b with psWait := b.psWait ++ [(false, .write 3 (s.safe.sdt ++ leBytes 4 w.toNat))] }
  else s.setFld SAFE_STAT Fld.SAFE_STAT_CONF_ERR 1

/-- What Wake finds in the store: the record's payload (R378, R471). A table that does not fit its stored confirmation gives code 6. -/
def State.sdtWake (s : State) (p : Option (List Byte)) : State :=
  match p with
  | none => s
  | some p =>
    let l := p.take 128
    let c := if sdtCode l = 0 ∧ leAtOf l 124 4 = leAtOf p 128 4 then 0 else 6
    let s := (s.sdtTake l c).modSafe fun f => { f with sdtConf := true }
    if c ≠ 0 then s else (s.modSafe fun f => { f with sdtOn := true }).showSdt

/-! ## Reports (R476) -/

def State.canSrc (s : State) : Nat := srcId 0x0E s.canCh
def sdWord (r cause : Nat) : Word := BitVec.ofNat 32 (r + 256 * cause)

/-- Conditions of safe-data sources: 16 + r for a connection, 30 for a lost plane. -/
def State.rxFault (s : State) (r cause : Nat) : State :=
  s.logContained s.canSrc .log [] (sdWord r cause)

/-! ## Reception (R472, R473) -/

/-- A message is accepted on both planes. -/
def State.acceptDual (s : State) (r : Nat) (m : List Byte) : State :=
  let x := s.rxAt r
  let seq := leAtOf m 2 2
  let acked := !(s.fc.pend.any fun p => p.src == s.canSrc)
  let st := match x.st with
    | .fault => if acked then RxSt.ok else RxSt.fault
    | _ => RxSt.ok
  (s.setRx r { x with st := st, msg := m, seq := seq, done := some seq, missA := 0, missB := 0, duals := x.duals + 1, at_ := s.safe.cyc }).showRx r

/-- A message is accepted at the end of its window with the copy of one plane only. -/
def State.acceptSingle (s : State) (r : Nat) (m : List Byte) (can : Bool) : State :=
  let x := s.rxAt r
  let seq := leAtOf m 2 2
  let s := s.incFld (SAFE_RX_STAT r) (if can then Fld.SAFE_RX_STAT_MISS_A else Fld.SAFE_RX_STAT_MISS_B)
  let x := { x with done := some seq, duals := 0, missA := if can then x.missA + 1 else 0, missB := if can then 0 else x.missB + 1 }
  s.setRx r (if x.st = .ok then { x with msg := m, seq := seq, at_ := s.safe.cyc } else x)

/-- SAFE_COPY_RX: a copy arrives on a plane; `canId` is the identifier under which the CAN plane brought it. -/
def execSafeCopyRx (plane : Plane) (canId : Nat) (m : List Byte) (s : State) : Host.Outcome State Fault Refusal :=
  let src := leAtOf m 0 2
  match (List.range s.nrx).find? fun r => (s.conn r).src == src with
  | none => .next s
  | some r =>
    if !s.sdtArmed || !s.domOn domSC then .next s
    else
      let c := s.conn r
      let x := s.rxAt r
      let seq := leAtOf m 2 2
      let age := sxt 32 ((s.ticks + 2 ^ 32 - leAtOf m 4 4) % 2 ^ 32)
      let after := (seq + 65536 - x.seq) % 65536
      let can := plane == .b
      let good := m.length == 16 && crc32c (m.take 12) == leAtOf m 12 4 && (!can || canId == c.canId) &&
        (x.st == .wait || x.st == .lost || decide (1 ≤ after ∧ after ≤ 32767)) && x.done != some seq &&
        decide (0 ≤ age ∧ age * 4 ≤ leAtOf s.safe.sdt 20 4 * 1000)
      if !good then .next (s.incFld (SAFE_RX_STAT r) Fld.SAFE_RX_STAT_INVALID)
      else match x.win.find? (·.seq == seq) with
      | none =>
        let w : RxWin := { seq := seq, msg := m, can := can, due := s.clock + leAtOf s.safe.sdt 16 2 * usTicks }
        .next (s.setRx r { x with win := x.win ++ [w] })
      | some w =>
        if w.can = can then .next (s.incFld (SAFE_RX_STAT r) Fld.SAFE_RX_STAT_INVALID)
        else
          let x := { x with win := x.win.filter (·.seq != seq) }
          if w.msg = m then .next ((s.setRx r x).acceptDual r m)
          else
            let s := s.incFld (SAFE_RX_STAT r) Fld.SAFE_RX_STAT_MISMATCH
            if x.st = .fault then .next (s.setRx r { x with done := some seq })
            else .next (((s.setRx r { x with st := .fault, done := some seq, duals := 0 }).showRx r).rxFault r 2)

/-- CW_EXPIRY: the oldest window of a connection ends with one copy. -/
def execCwExpiry (r : Fin 8) (s : State) : Host.Outcome State Fault Refusal :=
  let r := r.val
  let x := s.rxAt r
  match x.win with
  | [] => .next s
  | w :: t => if s.clock < w.due then .next s else .next ((s.setRx r { x with win := t }).acceptSingle r w.msg w.can)

/-- CONNECTION_WATCHDOG. -/
def execConnectionWatchdog (r : Fin 8) (s : State) : Host.Outcome State Fault Refusal :=
  let r := r.val
  let x := s.rxAt r
  if x.st ≠ .ok ∨ s.safe.cyc < x.at_ + (s.conn r).wd then .next s
  else .next (((s.setRx r { x with st := .lost, duals := 0 }).showRx r).rxFault r 3)

/-! ## Demands (R474) -/

/-- An OK connection demands. -/
def rxActs (c : Conn) (m : List Byte) : Bool :=
  let f := leAtOf m 9 1
  !nbit f 0 || nbit f 3 || (leAtOf m 8 1 &&& c.pmask) != c.pmask

/-- Groups that connections put into STO and groups in which they demand SS1. -/
def State.rxDemand (s : State) : Nat × Nat :=
  if !s.flag SAFE_SDT_STAT Fld.SAFE_SDT_STAT_LOADED then (0, 0)
  else (List.range s.nrx).foldl (fun (q : Nat × Nat) r =>
    let c := s.conn r
    let x := s.rxAt r
    if x.st ≠ .ok then (q.1 ||| c.groups ||| leAtOf s.block 22 2, q.2)
    else if rxActs c x.msg then (if c.act = 0 then (q.1 ||| c.groups, q.2) else (q.1, q.2 ||| c.groups))
    else q) (0, 0)

/-! ## Plane loss (R475, R381) -/

/-- Safety-degraded begins (R350, R381). -/
def State.startSd (s : State) : State :=
  if s.flag FC_STAT Fld.FC_STAT_SD then s
  else
    let lim := leAtOf s.block 20 2
    let s := (s.setFld FC_STAT Fld.FC_STAT_SD 1).setFldPulse 18 SAFE_STAT Fld.SAFE_STAT_SD 1
    let s := (s.modFc fun f => { f with sdStart := s.clock }).startTimer .sdLimit ((if lim = 0 then 10000 else lim) * msTicks)
    if s.mode = .run then s.setMode .degraded else s

/-- Safety-degraded ends. -/
def State.endSd (s : State) : State :=
  if !s.flag FC_STAT Fld.FC_STAT_SD then s
  else
    let s := ((s.setFld FC_STAT Fld.FC_STAT_SD 0).setFldPulse 18 SAFE_STAT Fld.SAFE_STAT_SD 0).stopTimer .sdLimit
    if s.mode = .degraded ∧ !s.flag FC_STAT Fld.FC_STAT_MD then s.setMode .run else s

/-- A condition that loses a plane holds. -/
def State.planeDown (s : State) (can : Bool) : Bool :=
  let n := leAtOf s.safe.sdt 18 1
  let missed := (List.range s.nrx).any fun r => decide (n ≤ (if can then (s.rxAt r).missB else (s.rxAt r).missA))
  missed || (if can then s.fld (CAN_STAT s.canCh) Fld.CAN_STAT_STATE == 2 || !s.flag (CAN_CTRL s.canCh) Fld.CAN_CTRL_EN
    else !s.flag (ETH_P_STAT 0) Fld.ETH_P_STAT_LINK && !s.flag (ETH_P_STAT 1) Fld.ETH_P_STAT_LINK)

/-- Follow one plane: the state and what is reported. -/
def State.planeCheck (s : State) (can : Bool) : State × List Report :=
  let f := if can then Fld.SAFE_SDT_STAT_CAN_LOST else Fld.SAFE_SDT_STAT_TL_LOST
  let src := if can then s.canSrc else srcId 0x0D 0
  let was := s.flag SAFE_SDT_STAT f
  let down := s.planeDown can
  if down ∧ ¬ was then (s.setFld SAFE_SDT_STAT f 1, [contRep src (sdWord 0xFF 1) (some 30)])
  else if was ∧ ¬ down ∧ ((List.range s.nrx).all fun r => (s.rxAt r).st != .ok || decide (16 ≤ (s.rxAt r).duals)) then
    ((s.setFld SAFE_SDT_STAT f 0).cease src 30, [corrRep src (sdWord 0xFF 4)])
  else (s, [])

/-- The planes at a safety-cycle boundary. -/
def State.planes (s : State) : State × List Report :=
  if !s.sdtArmed then (s, [])
  else
    let a := s.planeCheck false
    let b := a.1.planeCheck true
    let s := b.1
    (if s.flag SAFE_SDT_STAT Fld.SAFE_SDT_STAT_TL_LOST ∨ s.flag SAFE_SDT_STAT Fld.SAFE_SDT_STAT_CAN_LOST then s.startSd else s.endSd, a.2 ++ b.2)

/-! ## Sending (R468, R469) -/

/-- The message formed at a boundary. -/
def State.safeMsg (s : State) (pairs gsto : Nat) : List Byte :=
  let flags := b2n s.armed + 2 * b2n (s.flag SAFE_STAT Fld.SAFE_STAT_SOLO) + 4 * b2n (s.flag SAFE_STAT Fld.SAFE_STAT_SD) +
    8 * b2n (s.mode == .safeStop)
  let l := leBytes 2 (s.fld SYS_ADDR ⟨13, 0⟩) ++ leBytes 2 s.safe.txSeq ++ leBytes 4 (s.ticks % 2 ^ 32) ++ leBytes 1 pairs ++
    leBytes 1 flags ++ leBytes 2 gsto
  l ++ leBytes 4 (crc32c l)

/-- Send, where both channels form the same message. -/
def State.safeSend (s : State) (pairsA pairsB gsto : Nat) : State :=
  let l := s.safe.sdt
  if !s.sdtArmed || leAtOf l 8 1 == 0 || !s.flag SYS_ADDR Fld.SYS_ADDR_VALID || s.ticks / 62500 % Nat.max 1 (leAtOf l 9 1) != 0 ||
      pairsA != pairsB then s
  else
    let m := s.safeMsg pairsA gsto
    s.modSafe fun f => { f with txSeq := (f.txSeq + 1) % 65536, txTl := some m, txCan := some m }

end Sys2Proof.Machine
end

