-- ==== Sys2Proof/Machine/Safety.lean ====
section
/-! DEFINITION. Functional safety (R355 to R381): the parameter block, the two channels and their cycle, pairs, axis functions,
safety outputs, STO groups, loading and confirmation. -/

namespace Sys2Proof.Machine
open Sys2Proof.Machine.Reg

/-- A channel by number: A is 0, B is 1. -/
def State.chan (s : State) (b : Bool) : SafeCh := if b then s.safe.b else s.safe.a
def State.setChan (s : State) (b : Bool) (x : SafeCh) : State := s.modSafe fun f => if b then { f with b := x } else { f with a := x }

/-! ## The parameter block (R375, R376) -/

structure PairCfg where
  mode    : Nat
  test    : Nat
  disc    : Nat
  groups  : Nat
  restart : Nat

def pairCfg (l : List Byte) (p : Nat) : PairCfg :=
  let o := 64 + 8 * p
  { mode := leAtOf l o 1, test := leAtOf l (o + 1) 1, disc := leAtOf l (o + 2) 2, groups := leAtOf l (o + 4) 2, restart := leAtOf l (o + 6) 1 }

structure SoCfg where
  mode : Nat
  test : Nat
  per  : Nat
  us   : Nat

def soCfg (l : List Byte) (k : Nat) : SoCfg :=
  let o := 128 + 8 * k
  { mode := leAtOf l o 1, test := leAtOf l (o + 1) 1, per := leAtOf l (o + 2) 2, us := leAtOf l (o + 4) 2 }

structure SaxCfg where
  ch    : Nat
  funcs : Nat
  srcA  : Nat
  srcB  : Nat
  num   : Nat
  den   : Nat
  tol   : Nat
  nv    : Nat
  mode  : Nat
  tSs1  : Nat
  vSto  : Nat
  dec   : Nat
  ofs   : Nat
  sosW  : Nat
  lim   : List Nat
  sel0  : Nat
  sel1  : Nat
  dir   : Nat
  react : Nat
  sdiW  : Nat
  sbc   : Nat
  pair1 : Nat
  lead  : Nat
  pair2 : Nat

def saxCfg (l : List Byte) (a : Nat) : SaxCfg :=
  let e := (l.drop (160 + 64 * a)).take 64
  { ch := leAtOf e 0 1, funcs := leAtOf e 1 1, srcA := leAtOf e 2 1, srcB := leAtOf e 3 1, num := leAtOf e 4 2, den := leAtOf e 6 2,
    tol := leAtOf e 8 4, nv := leAtOf e 12 1, mode := leAtOf e 13 1, tSs1 := leAtOf e 14 2, vSto := leAtOf e 16 4, dec := leAtOf e 20 4,
    ofs := leAtOf e 24 4, sosW := leAtOf e 28 4, lim := (List.range 4).map fun j => leAtOf e (32 + 4 * j) 4, sel0 := leAtOf e 48 1,
    sel1 := leAtOf e 49 1, dir := leAtOf e 50 1, react := leAtOf e 51 1, sdiW := leAtOf e 52 4, sbc := leAtOf e 56 1,
    pair1 := leAtOf e 57 1, lead := leAtOf e 58 2, pair2 := leAtOf e 60 1 }

def pairOkCfg (c : PairCfg) : Bool :=
  decide (c.mode ≤ 2 ∧ c.test ≤ 3 ∧ c.groups < 4096 ∧ c.restart ≤ 1 ∧ 2 ≤ c.disc ∧ c.disc ≤ 5000)

def soOkCfg (c : SoCfg) : Bool :=
  decide (c.mode ≤ 2 ∧ c.test ≤ 1 ∧ 10 ≤ c.per ∧ c.per ≤ 1000 ∧ 100 ≤ c.us ∧ c.us ≤ 1000)

def pairRef (p : Nat) : Bool := p < 8 || p == 0xFF

/-- The ranges of a safety axis (R376); on MX24-FA channel values 24 to 47 name no axis (R31, DEDUCED: log entry 256). -/
def saxOkCfg (q : Part) (c : SaxCfg) : Bool :=
  let m := axisCount q
  decide (c.ch < m ∧ c.funcs < 64 ∧ c.srcA < m) && (c.srcB == 0xFF || (decide (c.srcB < m) && c.srcB != c.srcA)) &&
  decide (1 ≤ c.num ∧ 1 ≤ c.den ∧ 1 ≤ c.tol ∧ c.tol < 2 ^ 31 ∧ 1 ≤ c.nv ∧ c.nv ≤ 16 ∧ c.mode ≤ 1 ∧ 1 ≤ c.tSs1) &&
  (!nbit c.funcs 2 || nbit c.funcs 1) && pairRef c.sel0 && pairRef c.sel1 && pairRef c.pair1 && pairRef c.pair2 &&
  decide (c.react ≤ 1 ∧ c.lead ≤ 500) && (c.sbc == 0xFF || decide (c.sbc ≤ 4)) && (c.sbc != 4 || c.lead == 0) &&
  (c.dir == 1 || c.dir == 2)

/-- The load code of a block: format with reserved bytes and ranges first, then CHECK (R377). -/
def blockCode (q : Part) (l : List Byte) : Nat :=
  let n := leAtOf l 8 1
  if l.length ≠ 1216 ∨ leAtOf l 0 4 ≠ 0x53465042 ∨ leAtOf l 4 2 ≠ 0x0100 ∨ leAtOf l 6 2 ≠ 1216 ∨ !zeros l 9 7 ∨ !zeros l 24 40 ∨
      !zeros l 1184 28 ∨ !(List.range 8).all (fun p => zeros l (64 + 8 * p + 7) 1) ∨ !(List.range 4).all (fun k => zeros l (128 + 8 * k + 6) 2) ∨
      !(List.range 16).all (fun a => if a < n then zeros l (160 + 64 * a + 61) 3 else zeros l (160 + 64 * a) 64) then 1
  else if ¬ (n ≤ 16 ∧ 1 ≤ leAtOf l 16 2 ∧ leAtOf l 16 2 ≤ 1000 ∧ 20 ≤ leAtOf l 18 2 ∧ leAtOf l 18 2 ≤ 10000 ∧
      (leAtOf l 20 2 = 0 ∨ 100 ≤ leAtOf l 20 2 ∧ leAtOf l 20 2 ≤ 10000) ∧ leAtOf l 22 2 < 4096 ∧
      (List.range 8).all (fun p => pairOkCfg (pairCfg l p)) ∧ (List.range 4).all (fun k => soOkCfg (soCfg l k)) ∧
      (List.range n).all (fun a => saxOkCfg q (saxCfg l a))) then 3
  else if crc32c (l.take 1212) ≠ leAtOf l 1212 4 then 2
  else 0

def blkAxes (l : List Byte) : Nat := leAtOf l 8 1
def blkDisc (l : List Byte) : Nat := leAtOf l 16 2
def blkSolo (l : List Byte) : Nat := leAtOf l 18 2

/-! ## STO groups (R357, R363, R364, R377) -/

/-- Groups of the ordering code. -/
def groupCount : Part → Nat
  | .fa24 => 6
  | _ => 12

/-- A group that some pair with manual restart names restarts manually (R375). -/
def manualGroups (l : List Byte) : Nat :=
  (List.range 8).foldl (fun (m : Nat) p => let c := pairCfg l p; if c.mode ≠ 0 ∧ c.restart = 1 then m ||| c.groups else m) 0

/-- Everything but the wait for a restart that holds path A (`false`) or path B of the groups. -/
def State.pathHeld (s : State) (b : Bool) : Nat :=
  let f := s.safe
  let all := 0xFFF
  let x := s.chan b
  if s.hwSafeOn ∨ s.pwr.down.isSome ∨ (if b then f.landB else f.landA) ∨ ¬ s.armed ∨ f.disc ∨ f.path ∨ ¬ x.latch then all else x.demand % 4096

/-- Groups that hold STO. -/
def State.stoGroups (s : State) : Nat := s.fld SAFE_STO Fld.SAFE_STO_GRP_A ||| s.fld SAFE_STO Fld.SAFE_STO_GRP_B

/-- Safety axes whose brake SO_k feeds (R370). -/
def brakeUsers (l : List Byte) (k : Nat) : List Nat :=
  if (soCfg l k).mode = 2 then (List.range (blkAxes l)).filter fun a => let c := saxCfg l a; nbit c.funcs 5 && c.sbc == k else []

/-- STO acts on the group of an axis whose brake SO_k feeds. -/
def State.brakeActs (s : State) (k : Nat) : Bool := (brakeUsers s.block k).any fun a => nbit s.stoGroups ((saxCfg s.block a).ch / 4)

/-- The switches of the outputs as the channels command them. -/
def State.soSet (s : State) (a b : Vector Bool 4) : State :=
  if a = s.safe.a.so ∧ b = s.safe.b.so then s
  else (s.modSafe fun f => { f with a := { f.a with so := a }, b := { f.b with so := b } }).modFio fun f => { f with soNew := false }

/-- Outputs that feed a brake switch off as soon as STO acts (R370). -/
def State.brakesOff (s : State) : State :=
  let open_ := fun (v : Vector Bool 4) => (Vector.ofFn fun k : Fin 4 => vget v false k.val && !s.brakeActs k.val)
  s.soSet (open_ s.safe.a.so) (open_ s.safe.b.so)

/-- Apply the paths: SAFE_STO, SAFE_PATH, the dies' status, the channels, the brakes. -/
def State.stoEval (s : State) : State :=
  let f := s.safe
  let ha := s.pathHeld false
  let hb := s.pathHeld true
  let held := ha ||| hb
  let manual := if s.armed then manualGroups s.block else 0
  let wait := if s.armed then (f.waitG ||| (held &&& manual)) % 4096 else 0
  let s := s.modSafe fun f => { f with waitG := wait }
  let ga := ha ||| wait
  let gb := hb ||| wait
  let s := (s.setFld SAFE_STO Fld.SAFE_STO_GRP_A ga).setFld SAFE_STO Fld.SAFE_STO_GRP_B gb
  let s := s.setFld SAFE_STO Fld.SAFE_STO_RESTART_WAIT (b2n (wait &&& (0xFFF - held % 4096) != 0))
  let s := ((s.setFld SAFE_PATH Fld.SAFE_PATH_A_ACT ga).setFld SAFE_PATH Fld.SAFE_PATH_B_ACT gb).brakesOff
  s.each (groupCount s.part) fun s d =>
    let s := if s.sddOn d then (s.stoDie d true (nbit ga d)).stoDie d false (nbit gb d) else s
    s.eachDieAxis d fun s n =>
      let on := nbit (ga ||| gb) d
      if on == s.flag (PWM_STAT n) Fld.PWM_STAT_STO then s else s.stoChannel n on

/-- Every group holds STO (R373). -/
def State.allSto (s : State) : Bool := (List.range (groupCount s.part)).all fun d => nbit s.stoGroups d

/-- STO_DISC runs while the lands differ. Without a block there is no STO_DISC to run. -/
def State.discTimer (s : State) : State :=
  if s.safe.landA == s.safe.landB then (s.stopTimer .stoDisc).cease (safeSrc 0x80) 1
  else if s.timerOn .stoDisc || s.block.isEmpty then s
  else s.startTimer .stoDisc (blkDisc s.block * msTicks)

/-- A land changes (R362, R363). -/
def State.landSet (s : State) (b on : Bool) : State :=
  let s := s.useBlock.modSafe fun f => if b then { f with landB := on } else { f with landA := on }
  let s := s.setFld SAFE_STO (if b then Fld.SAFE_STO_LAND_B else Fld.SAFE_STO_LAND_A) (b2n on)
  let s := s.discTimer
  let f := s.safe
  let s := if f.landA && f.landB then s.modSafe fun g => { g with discBoth := g.disc } else s
  let s := if !f.landA && !f.landB && f.discBoth then s.modSafe fun g => { g with disc := false, discBoth := false } else s
  s.stoEval

/-- STO_A_ASSERT. -/
def execStoAAssert (s : State) : Host.Outcome State Fault Refusal := .next (if s.safe.landA then s else s.landSet false true)
/-- STO_B_ASSERT. -/
def execStoBAssert (s : State) : Host.Outcome State Fault Refusal := .next (if s.safe.landB then s else s.landSet true true)
/-- STO_RELEASE: land A, or land B. -/
def execStoRelease (a : Bool) (s : State) : Host.Outcome State Fault Refusal :=
  .next (if (if a then s.safe.landA else s.safe.landB) then s.landSet (!a) false else s)

/-- STO_DISC_EXPIRY (R363). -/
def execStoDiscExpiry (s : State) : Host.Outcome State Fault Refusal :=
  let f := s.safe
  if !s.due .stoDisc || f.landA == f.landB then .next s
  else .next ((((s.stopTimer .stoDisc).modSafe fun f => { f with disc := true, discBoth := false }).logContained (safeSrc 0x80) .log [] 0
    (some 1)).stoEval)

/-- PATH_READBACK_TIMEOUT: a status bit of group `d` has read `reads` for 10 µs against the path that the channel expects. -/
def execPathReadbackTimeout (_b : Bool) (d : Fin 12) (pathB reads : Bool) (s : State) : Host.Outcome State Fault Refusal :=
  let act := nbit (s.fld SAFE_STO (if pathB then Fld.SAFE_STO_GRP_B else Fld.SAFE_STO_GRP_A)) d
  if act == reads || groupCount s.part ≤ d.val then .next s
  else
    let s := (s.modSafe fun f => { f with path := true }).logContained (safeSrc 0x80) .log [] 0 (some 2)
    .next s.stoEval

/-- SOLO_MAX_EXPIRY: the enable latch of a channel drops (R359, R361). -/
def execSoloMaxExpiry (b : Bool) (s : State) : Host.Outcome State Fault Refusal :=
  let t : TimerId := .soloMax (b2n b)
  if !s.due t then .next s
  else
    let s := (s.stopTimer t).setChan b { s.chan b with latch := false }
    let s := if !b ∧ s.safe.a.lost ∧ s.safe.a.restart then s.logFatal (safeSrc 0xB2) else s
    .next s.stoEval

/-! ## Pairs (R365 to R367) -/

/-- The two inputs of a pair at their ON levels. -/
def pairLevels (c : PairCfg) (di p : Nat) : Bool × Bool :=
  let x := di.testBit (2 * p)
  let y := di.testBit (2 * p + 1)
  (x, if c.mode = 2 then !y else y)

/-- One cycle of a pair: the next state. -/
def pairStep (c : PairCfg) (st : PairSt) (on : Bool × Bool) (cross restart : Bool) : PairSt :=
  let up := if c.restart = 1 then PairSt.ready else PairSt.on
  if cross then .fault
  else match st, on with
  | .off, (true, true) => up
  | .off, (false, false) => .off
  | .off, _ => .discOn
  | .discOn, (true, true) => up
  | .discOn, _ => .discOn
  | .ready, (true, true) => if restart then .on else .ready
  | .ready, (false, false) => .off
  | .ready, _ => .discOff
  | .on, (true, true) => .on
  | .on, (false, false) => .off
  | .on, _ => .discOff
  | .discOff, (false, false) => .off
  | .discOff, _ => .discOff
  | .fault, (false, false) => .off
  | .fault, _ => .fault

/-- A pair that is used demands unless it is ON. -/
def pairDemands (c : PairCfg) (st : PairSt) : Bool := c.mode != 0 && st != .on

def pairNo : PairSt → Nat
  | .off => 0 | .discOn => 1 | .ready => 2 | .on => 3 | .discOff => 4 | .fault => 5

def SafeCh.pairAt (x : SafeCh) (p : Nat) : PairSt := vget x.pair .off p

/-- PAIR_DISC_TIMEOUT. -/
def execPairDiscTimeout (b : Bool) (p : Fin 8) (s : State) : Host.Outcome State Fault Refusal :=
  let t : TimerId := .pairDisc (b2n b) p
  let x := s.chan b
  let st := x.pairAt p
  if !s.due t || !s.armed || !(st == .discOn || st == .discOff) then .next s
  else
    let s := (s.stopTimer t).setChan b { x with pair := x.pair.setIfInBounds p .fault }
    let i := 0x90 + p.val
    let s := if s.safe.rep.contains i then s
      else (s.modSafe fun f => { f with rep := f.rep ++ [i] }).logContained (safeSrc i) .log [] 0 (some 0)
    .next s

/-! ## Axis functions (R371, R372) -/

/-- What acts on an axis in a cycle. -/
structure SaxIn where
  c     : SaxCfg
  /-- Scale of the channel's positions to SRC_A counts. -/
  num   : Nat
  den   : Nat
  pos   : Option W64
  /-- The source of the other channel is invalid. -/
  other : Bool
  ss1   : Bool
  ss2   : Bool
  sel   : Nat
  cyc   : Nat
  /-- T_SS1 has run out since the SS1, since the SS2. -/
  timeUp : Bool
  timeUp2 : Bool
  bad   : Bool

/-- Speed: COUNT difference over N_V cycles; 0 until so many cycles are known. -/
def SaxIn.speed (i : SaxIn) (h : List (Option W64)) : Int :=
  match h[0]?, h[i.c.nv]? with
  | some (some p), some (some q) => (p - q).toInt
  | _, _ => 0

/-- A speed above a limit in counts per second. -/
def SaxIn.above (i : SaxIn) (v lim : Nat) : Bool := decide (lim * (Nat.max 1 i.c.nv * i.den) < v * (4000 * i.num))

/-- A speed below a limit in counts per second. -/
def SaxIn.below (i : SaxIn) (v lim : Nat) : Bool := decide (v * (4000 * i.num) < lim * (Nat.max 1 i.c.nv * i.den))

/-- The ramp monitor of SS1-r after `t` cycles: |v| exceeds v0 − RAMP_DEC × t + RAMP_OFS. -/
def SaxIn.offRamp (i : SaxIn) (r : SsRun) (v : Nat) : Bool :=
  let k : Int := Nat.max 1 i.c.nv * i.den
  let w : Int := 4000 * i.num
  let t : Int := i.cyc - r.at_
  decide ((r.v0 : Int) * w * 4000 - (i.c.dec : Int) * t * k + (i.c.ofs : Int) * k * 4000 < (v : Int) * w * 4000)

/-- A demand starts, goes on or ends. -/
def ssRun (on : Bool) (r : Option SsRun) (cyc v : Nat) : Option SsRun :=
  if !on then none else some (r.getD { at_ := cyc, v0 := v })

/-- One cycle of the functions of an axis. -/
def SaxIn.step (i : SaxIn) (x : Sax) : Sax :=
  let c := i.c
  let h := (i.pos :: x.hist).take (c.nv + 1)
  let v := (i.speed h).natAbs
  let fast := fun lim => i.above v lim
  let inv := i.pos.isNone
  let monitors : Bool := c.funcs &&& 0x1E != 0 || (nbit c.funcs 0 && c.mode == 1)
  let p := i.pos.getD 0
  -- SLS
  let sls := nbit c.funcs 3 && !inv && fast (vgetL c.lim 0 i.sel)
  -- SDI
  let far := match x.far with
    | none => p
    | some f => if inv then f else
      let d := (p - f).toInt
      if (c.dir = 1 ∧ 0 < d) ∨ (c.dir = 2 ∧ d < 0) then p else f
  let back : Int := if c.dir = 1 then (far - p).toInt else (p - far).toInt
  let sdi := nbit c.funcs 4 && !inv && decide ((c.sdiW * i.den : Nat) < back * (i.num : Int))
  let react1 := c.react == 1 && (sls || sdi)
  -- SS1
  let on1 := (nbit c.funcs 0 && i.ss1) || react1
  let r1 := ssRun on1 x.ss1 i.cyc v
  let ramp1 := match r1 with
    | some r => (c.mode == 1 || react1) && i.offRamp r v
    | none => false
  let slow := !inv && i.below v c.vSto
  let early := match r1 with
    | some r => decide (4 * c.tSs1 ≤ i.cyc - r.at_ + 4 * c.lead)
    | none => false
  let lead := if !on1 then none else match x.lead with
    | some k => some k
    | none => if slow then some (i.cyc + 4 * c.lead) else none
  let off := on1 && (x.off || ramp1)
  let ended := on1 && (x.ended || off || i.timeUp || match lead with
    | some k => decide (k ≤ i.cyc)
    | none => false)
  -- SS2 and SOS
  let on2 := nbit c.funcs 1 && i.ss2
  let r2 := ssRun on2 x.ss2 i.cyc v
  let ramp2 := match r2, x.sos with
    | some r, none => i.offRamp r v
    | _, _ => false
  let sos := if !on2 then none else match x.sos with
    | some q => some q
    | none => if (slow ∨ i.timeUp2) ∧ !inv then some p else none
  let sosV := match sos with
    | some q => !inv && (decide ((c.sosW * i.den : Nat) < (p - q).toInt.natAbs * i.num) || fast c.vSto)
    | none => false
  let ended2 := on2 && ramp2
  let lost := (inv || i.other) && monitors
  let viol := (if sosV then [3] else []) ++ (if sls then [4] else []) ++ (if sdi then [5] else []) ++ (if lost || i.bad then [7] else [])
  let hard := off || ended2 || sosV || lost || i.bad || (c.react == 0 && (sls || sdi))
  let sto := hard || ended
  { hist := h, ss1 := r1, ss2 := r2, off := off, ended := ended, lead := lead, sos := sos, far := if inv then x.far else some far,
    slsJ := i.sel, inv := inv || i.other, viol := viol, hard := hard, sto := sto, brake := sto || (on1 && (lead.isSome || early) && c.lead != 0) }

def SafeCh.saxAt (x : SafeCh) (a : Nat) : Sax := vget x.sax {} a

/-! ## A channel's cycle -/

/-- A pair that is used is OFF for SLS_SEL, SS1_PAIR and SS2_PAIR. -/
def SafeCh.pairOff (x : SafeCh) (p : Nat) : Bool := p < 8 && pairDemands (pairCfg x.val p) (x.pairAt p)

/-- Groups with an axis that has SS1 in FUNCS (R373, R474). -/
def ss1Groups (l : List Byte) : Nat :=
  (List.range (blkAxes l)).foldl (fun (m : Nat) a => let c := saxCfg l a; if nbit c.funcs 0 then m ||| 2 ^ (c.ch / 4) else m) 0

/-- Groups that the axes of a channel put into STO: at once, or at the end of an SS1, in Safe Stop of the last SS1 on the group (R373);
the functions of a failed output demand it too (R369). -/
def SafeCh.axisGroups (x : SafeCh) (stopping : Bool) (soFault : Vector Bool 4) : Nat :=
  let axes := List.range (blkAxes x.val)
  axes.foldl (fun (m : Nat) a =>
    let c := saxCfg x.val a
    let q := x.saxAt a
    let failed := c.sbc < 4 && nbit c.funcs 5 && vget soFault false c.sbc
    let last := !stopping || axes.all fun k => let d := saxCfg x.val k; d.ch / 4 != c.ch / 4 || !nbit d.funcs 0 || (x.saxAt k).sto
    if q.hard || failed || (q.sto && last) then m ||| 2 ^ (c.ch / 4) else m) 0

/-- One cycle of a channel over the snapshot of the cycle that ends. -/
def State.channelCycle (s : State) (b : Bool) : SafeCh :=
  let x := s.chan b
  let f := s.safe
  let l := x.val
  let sn := x.snap
  let pairs := (List.range 8).map fun p =>
    let c := pairCfg l p
    if c.mode = 0 then PairSt.off
    else pairStep c (x.pairAt p) (pairLevels c sn.di p) (nbit sn.cross p) (nbit f.restart (16 + p))
  let x : SafeCh := { x with pair := Vector.ofFn fun p => vgetL pairs .off p.val }
  let rx := s.rxDemand
  let stopping := s.mode == .safeStop
  let req := s.reg SAFE_REQ
  let axes := (List.range (blkAxes l)).map fun a =>
    let c := saxCfg l a
    let q := sn.pos[a]?.getD (none, none)
    let own := !b || c.srcB == 0xFF
    let i : SaxIn := {
      c := c, num := if own then 1 else c.num, den := if own then 1 else c.den, pos := if own then q.1 else q.2,
      other := if own then q.2.isNone else q.1.isNone,
      ss1 := x.pairOff c.pair1 || nbit (fget req Fld.SAFE_REQ_SS1) a || stopping || nbit rx.2 (c.ch / 4),
      ss2 := x.pairOff c.pair2 || nbit (fget req Fld.SAFE_REQ_SS2) a,
      sel := if s.mode = .commission then 0 else b2n (x.pairOff c.sel0) + 2 * b2n (x.pairOff c.sel1),
      cyc := f.cyc, timeUp := vget f.ssEnd false a, timeUp2 := vget f.ss2End false a, bad := vget f.posBad false a }
    i.step (x.saxAt a)
  let x : SafeCh := { x with sax := Vector.ofFn fun a => vgetL axes {} a.val }
  let byPair := (List.range 8).foldl (fun (m : Nat) p => let c := pairCfg l p; if pairDemands c (x.pairAt p) then m ||| c.groups else m) 0
  let byAxis := x.axisGroups stopping f.soFault
  let byStop := if stopping then 0xFFF - ss1Groups l % 4096 else 0
  let byRx := rx.1 ||| (rx.2 &&& (0xFFF - ss1Groups l % 4096))
  { x with demand := (byPair ||| byAxis ||| byStop ||| byRx) % 4096 }

/-- The result of a channel as the comparator sees it: function index and value (R360, R374). -/
def SafeCh.result (x : SafeCh) : List (Nat × Nat) :=
  ((List.range 8).map fun p => (0x90 + p, pairNo (x.pairAt p))) ++
  ((List.range 4).map fun k => (0xA0 + k, b2n (vget x.so false k))) ++
  (List.range (blkAxes x.val)).flatMap fun a =>
    let q := x.saxAt a
    [(8 * a, b2n q.sto + 2 * b2n x.snap.landA + 4 * b2n x.snap.landB), (8 * a + 1, b2n q.ss1.isSome), (8 * a + 2, b2n q.ss2.isSome), (8 * a + 3, b2n q.sos.isSome),
     (8 * a + 4, 4 * b2n (q.viol.contains 4) + q.slsJ), (8 * a + 5, b2n (q.viol.contains 5)), (8 * a + 6, b2n q.brake)]

/-- Indices on which the two results differ. -/
def resultDiff (x y : SafeCh) : List Nat := (x.result.zip y.result).filterMap fun e => if e.1 = e.2 then none else some e.1.1

/-- A position disagreement of an axis in a snapshot (R360). -/
def posDiff (l : List Byte) (sn : SafeSnap) (a : Nat) : Bool :=
  let c := saxCfg l a
  match sn.pos[a]?.getD (none, none) with
  | (some p, some q) => c.srcB != 0xFF && decide ((c.tol * c.den : Nat) < (p.toInt * c.den - q.toInt * c.num).natAbs)
  | _ => false

/-- Record a disagreement in SAFE_CMP. -/
def State.cmpRecord (s : State) (i : Nat) : State :=
  s.setReg SAFE_CMP (BitVec.ofNat 32 (2 ^ 31 + i * 2 ^ 16 + s.ticks / 62500 % 65536))

/-! ## The boundary (R356, R358 to R361) -/

/-- SV_1 is being restarted. -/
def State.aRestarting (s : State) : Bool := s.timerOn (.svRestart 1)

/-- Presence of the results: loss of a channel, its return (R361). -/
def State.presence (s : State) (b here : Bool) : State × List Report :=
  let x := s.chan b
  let i := if b then 0xB1 else 0xB2
  if x.lost then
    if here ∧ !b ∧ x.back ∧ x.latch then
      (s.setChan false { s.safe.b with val := x.val, cmp := x.cmp, snap := x.snap, so := x.so, latch := true, miss := 0, lost := false,
                                       restart := false, back := false }, [])
    else (s, [])
  else if here then (s.setChan b { x with miss := 0 }, [])
  else
    let s := if x.miss = 0 then s.cmpRecord i else s
    if !b && s.aRestarting then (s.setChan b { x with miss := 0, lost := true, restart := true }, [])
    else if 1 ≤ x.miss then (s.setChan b { x with miss := x.miss + 1, lost := true }, [fatalRep (safeSrc i)])
    else (s.setChan b { x with miss := x.miss + 1 }, [])

/-- Refresh of the enable latch (R359). -/
def State.refresh (s : State) (b : Bool) : State :=
  let x := s.chan b
  (s.setChan b { x with latch := true }).startTimer (.soloMax (b2n b)) (blkSolo x.val * msTicks)

/-- The timers of the pairs that entered a discrepancy in this cycle. -/
def State.pairTimers (s : State) (b : Bool) (old : SafeCh) : State :=
  s.each 8 fun s p =>
    let x := s.chan b
    let t : TimerId := .pairDisc (b2n b) p
    let st := x.pairAt p
    if st = old.pairAt p then s
    else if st = .discOn ∨ st = .discOff then s.startTimer t ((pairCfg x.val p).disc * msTicks)
    else s.stopTimer t

/-- The exact items of the two results (R360). -/
def State.compareExact (s : State) : State × List Report :=
  let d := resultDiff s.safe.a s.safe.b
  let again := d.filter fun i => s.safe.cmp.contains i
  let s := s.modSafe fun f => { f with cmp := d ++ f.cmp.filter fun i => 0x100 ≤ i }
  match d with
  | [] => (s, [])
  | i :: _ => if again ≠ [] then (s, [fatalRep (safeSrc 0xB0)]) else (s.cmpRecord i, [corrRep (safeSrc 0xB0)])

/-- The position items. Indices from 0x100 in `cmp` are the axes whose positions disagreed in the last cycle. -/
def State.comparePos (s : State) : State :=
  let l := s.block
  let bad := (List.range (blkAxes l)).filter fun a => posDiff l s.safe.a.snap a
  let was := s.safe.cmp
  let s := s.modSafe fun f => { f with cmp := f.cmp.filter (· < 0x100) ++ bad.map (0x100 + ·) }
  let s := s.modSafe fun f => { f with posBad := Vector.ofFn fun a =>
    (bad.contains a.val && was.contains (0x100 + a.val)) ||
    (vget f.posBad false a.val && (bad.contains a.val || s.fc.pend.any fun p => p.src == safeSrc (8 * a.val + 7))) }
  match bad.filter fun a => !was.contains (0x100 + a) with
  | [] => s
  | a :: _ => s.cmpRecord (8 * a + 7)

/-- Function indices in violation or fault after a cycle. -/
def State.safeViols (s : State) : List Nat :=
  let ax := fun (x : SafeCh) => (List.range (blkAxes x.val)).flatMap fun a => (x.saxAt a).viol.map fun f => 8 * a + f
  let pr := fun (x : SafeCh) => (List.range 8).filterMap fun p => if x.pairAt p = .fault then some (0x90 + p) else none
  (ax s.safe.a ++ ax s.safe.b ++ pr s.safe.a ++ pr s.safe.b).eraseDups

/-- New violations are contained faults, conditions that ended cease; SAFE_AX_STAT.VIOL keeps the record. -/
def State.safeReports (s : State) : State × List Report :=
  let now := s.safeViols
  let was := s.safe.rep
  let s := s.modSafe fun f => { f with rep := now ++ was.filter fun i => 0xA0 ≤ i }
  let s := (was.filter fun i => i < 0xA0 && !now.contains i).foldl (fun s i => s.cease (safeSrc i) 0) s
  let new := now.filter fun i => !was.contains i
  (new.foldl (fun s i => if i < 128 then s.setFld (SAFE_AX_STAT (i / 8)) ⟨24 + i % 8, 24 + i % 8⟩ 1 else s) s,
    new.map fun i => contRep (safeSrc i) 0 (some 0))

/-- The states of the functions in SAFE_AX_STAT, of the pairs in SAFE_PAIR. -/
def State.showSafe (s : State) : State :=
  let l := s.block
  let v := if s.safe.a.lost then s.safe.b else s.safe.a
  let s := s.setReg SAFE_PAIR (BitVec.ofNat 32 ((List.range 8).foldl (fun (n : Nat) p => n + pairNo (v.pairAt p) * 16 ^ p) 0))
  s.each 16 fun s k =>
    let c := saxCfg l k
    let x := v.saxAt k
    let on := decide (k < blkAxes l) && s.armed
    let act := b2n x.ss1.isSome + 2 * b2n x.ss2.isSome + 4 * b2n x.sos.isSome + 8 * b2n (on && nbit c.funcs 3) + 16 * b2n (on && nbit c.funcs 4) +
      32 * b2n (on && nbit c.funcs 5 && (x.brake || nbit s.stoGroups (c.ch / 4)))
    let r := SAFE_AX_STAT k
    ((s.setFld r Fld.SAFE_AX_STAT_ACTIVE act).setFld r Fld.SAFE_AX_STAT_SRC_INV (b2n (on && x.inv))).setFld r Fld.SAFE_AX_STAT_SLS_J x.slsJ

/-- T_SS1 runs while the function of an axis does, once for each activation. -/
def State.ssTimer (s : State) (t : TimerId) (run up : Bool) (ms : Nat) : State :=
  if !run then s.stopTimer t else if s.timerOn t || up then s else s.startTimer t (ms * msTicks)

/-- The safety stop source of the axes that an SS1 or SS2 stops, and T_SS1 of each (R372). -/
def State.ssStops (s : State) : State :=
  let l := s.block
  let ss1 := fun a => (s.safe.a.saxAt a).ss1.isSome || (s.safe.b.saxAt a).ss1.isSome
  let ss2 := fun a => (s.safe.a.saxAt a).ss2.isSome || (s.safe.b.saxAt a).ss2.isSome
  (List.range (blkAxes l)).foldl (fun s a =>
    let c := saxCfg l a
    let on := (List.range (blkAxes l)).any fun k => (saxCfg l k).ch == c.ch && (ss1 k || ss2 k)
    let y := s.queueAt c.ch
    let s := s.setQueue c.ch { (if on then y.note (3, 0) else y) with stopSs := on }
    let s := s.ssTimer (.ss1 a) (ss1 a) (vget s.safe.ssEnd false a) c.tSs1
    let s := s.ssTimer (.ss2 a) (ss2 a) (vget s.safe.ss2End false a) c.tSs1
    s.modSafe fun f => { f with ssEnd := f.ssEnd.setIfInBounds a (vget f.ssEnd false a && ss1 a),
                                ss2End := f.ss2End.setIfInBounds a (vget f.ss2End false a && ss2 a) }) s

/-- T_SS1 is over for the SS1 of an axis: a channel that runs it ends it. -/
def SafeCh.ssTimeout (x : SafeCh) (a : Nat) (stopping : Bool) (soFault : Vector Bool 4) : SafeCh :=
  let q := x.saxAt a
  if q.ss1.isNone then x
  else
    let y : SafeCh := { x with sax := x.sax.setIfInBounds a { q with ended := true, sto := true, brake := true } }
    { y with demand := y.demand ||| y.axisGroups stopping soFault }

/-- SS1_TIMEOUT: T_SS1 after the activation of an SS1, which ends in STO, or of an SS2, which ends in SOS in the next cycle. -/
def execSs1Timeout (a : Fin 16) (s : State) : Host.Outcome State Fault Refusal :=
  let a := a.val
  if !s.due (.ss1 a) && !s.due (.ss2 a) then .next s
  else
    let one := s.due (.ss1 a)
    let two := s.due (.ss2 a)
    let s := s.useBlock
    let s := if two then (s.stopTimer (.ss2 a)).modSafe fun f => { f with ss2End := f.ss2End.setIfInBounds a true } else s
    if !one then .next s
    else
      let s := (s.stopTimer (.ss1 a)).modSafe fun f => { f with ssEnd := f.ssEnd.setIfInBounds a true }
      let stop := s.mode == .safeStop
      .next (s.modSafe fun f => { f with a := f.a.ssTimeout a stop f.soFault, b := f.b.ssTimeout a stop f.soFault }).stoEval

/-! ## Safety outputs (R368 to R370) -/

/-- A test pulse of a channel on SO_k is open. -/
def State.pulseOpen (s : State) (b : Bool) (k : Nat) : Bool := s.timerOn (.soPulse (b2n b) k) && !s.due (.soPulse (b2n b) k)

/-- The switch of SO_k as its channel demands it: A the high side, B the low side. MODE 2 releases the brake of its axes; what commands a
MODE 1 output is left open: `free` gives it. -/
def State.soCommand (s : State) (b : Bool) (k : Nat) (free : Bool) : Bool :=
  let x := s.chan b
  let users := brakeUsers x.val k
  s.armed && !x.torn && !vget s.safe.soFault false k && !s.pulseOpen b k &&
  match (soCfg x.val k).mode with
  | 1 => free
  | 2 => users != [] && users.all fun a => !nbit s.stoGroups ((saxCfg x.val a).ch / 4) && !(x.saxAt a).brake
  | _ => false

/-- The channels that run command their switches; the switch of a lost channel stays until its latch drops. -/
def State.soDrive (s : State) : State :=
  let free := s.fresh
  let s := s.useFree
  let cmd := fun (b : Bool) =>
    let x := s.chan b
    if x.lost then (if x.latch then x.so else Vector.replicate 4 false)
    else (Vector.ofFn fun k : Fin 4 => s.soCommand b k.val (nbit free k.val))
  s.soSet (cmd false) (cmd true)

/-- All four outputs off. -/
def State.soOff (s : State) : State := s.soSet (Vector.replicate 4 false) (Vector.replicate 4 false)

/-- A fault of SO_k: both channels hold both switches off. -/
def State.soHold (s : State) (k : Nat) : State :=
  let s := s.modSafe fun f => { f with soFault := f.soFault.setIfInBounds k true }
  (s.soSet (s.safe.a.so.setIfInBounds k false) (s.safe.b.so.setIfInBounds k false)).setFld SAFE_SO ⟨8 + k, 8 + k⟩ 1

def soReport (k : Nat) : Report := contRep (safeSrc (0xA0 + k))

/-- The readback of SO_k in the snapshot disagrees with its switches. -/
def State.soBad (s : State) (k : Nat) : Bool :=
  let sn := s.safe.a.snap
  let hs := nbit sn.hs k
  sn.fresh && (hs != vget s.safe.a.so false k || nbit sn.ls k != vget s.safe.b.so false k || (!sn.vinv && nbit sn.vout k != hs))

/-- The readback of the outputs, and the end of a hold once its fault is acknowledged. -/
def State.soCheck (s : State) : State × List Report :=
  (List.range 4).foldl (fun (r : State × List Report) k =>
    let s := r.1
    if vget s.safe.soFault false k then
      if s.fc.pend.any fun p => p.src == safeSrc (0xA0 + k) then r
      else ((s.modSafe fun f => { f with soFault := f.soFault.setIfInBounds k false }).setFld SAFE_SO ⟨8 + k, 8 + k⟩ 0, r.2)
    else if s.soBad k then (s.soHold k, r.2 ++ [soReport k]) else r) (s, [])

/-- A test pulse of a channel is due: TP_PER after its last one, half of it after the other channel's. -/
def State.pulseDue (s : State) (b : Bool) (k : Nat) : Bool :=
  let ticks := (soCfg (s.chan b).val k).per * msTicks
  let past := fun (x : SafeCh) (dt : Nat) => (vget x.pulse none k).all fun t => t + dt ≤ s.clock
  past (s.chan b) ticks && past (s.chan (!b)) (ticks / 2)

/-- SO_TEST_PULSE: a channel opens its switch for TP_US; `shows`: the pulse and every step show at the readback. -/
def execSoTestPulse (b : Bool) (k : Fin 4) (shows : Bool) (s : State) : Host.Outcome State Fault Refusal :=
  let k := k.val
  let c := soCfg (s.chan b).val k
  let on := vget s.safe.a.so false k && vget s.safe.b.so false k
  if !s.armed || (s.chan b).lost || c.test != 1 || !on || !s.pulseDue b k then .next s
  else
    let s := s.useBlock
    let s := s.setChan b { s.chan b with pulse := (s.chan b).pulse.setIfInBounds k (some s.clock) }
    let s := s.startTimer (.soPulse (b2n b) k) (c.us * usTicks)
    let open_ := (s.chan b).so.setIfInBounds k false
    let s := if b then s.soSet s.safe.a.so open_ else s.soSet open_ s.safe.b.so
    .next (if shows then s else (s.soHold k).reportAll [soReport k])

/-- Test pulses whose TP_US is over end: the switch closes, unless its output has gone off meanwhile. -/
def State.soPulseEnd (s : State) : State :=
  (List.range 8).foldl (fun s j =>
    let b := decide (4 ≤ j)
    let k := j % 4
    let t : TimerId := .soPulse (b2n b) k
    if !s.due t then s
    else
      let s := s.stopTimer t
      let close := s.armed && !vget s.safe.soFault false k && !s.brakeActs k && !(s.chan b).lost && vget (s.chan (!b)).so false k
      let v := (s.chan b).so.setIfInBounds k close
      if b then s.soSet s.safe.a.so v else s.soSet v s.safe.b.so) s

/-! ## The snapshot -/

/-- A source port that a safety axis may use (R371). -/
def State.saxCount (s : State) (p : Nat) : Option W64 :=
  if axisCount s.part ≤ p ∨ ¬ s.fbOn p ∨ s.fbMode p = 0 ∨ s.flag (FB_STAT p) Fld.FB_STAT_FAULT ∨ s.flag (FB_STAT p) Fld.FB_STAT_WAIT ∨
      s.flag (FB_STAT p) Fld.FB_STAT_SUSPECT then none
  else some (s.fbAt p).count

/-- Pairs with a cross-fault: CROSS of an input, or no off-pulse where the pair is tested (R366, R492). -/
def State.crossPairs (s : State) : Nat :=
  let l := s.block
  let ok := s.fld FIO_TPSTAT Fld.FIO_TPSTAT_PULSE_OK
  let x := s.fld FIO_TPSTAT Fld.FIO_TPSTAT_CROSS
  (List.range 8).foldl (fun (m : Nat) p =>
    let c := pairCfg l p
    let bad := fun j => nbit x j || (c.test != 0 && nbit s.fio.tpSeen j && !nbit ok j)
    if c.mode ≠ 0 ∧ (bad (2 * p) ∨ bad (2 * p + 1)) then m + 2 ^ p else m) 0

/-- What the SAFE block latches for a channel whose block is `l`. -/
def State.snapOf (s : State) (l : List Byte) : SafeSnap :=
  { landA := s.safe.landA, landB := s.safe.landB,
    di := s.fld FIO_DI ⟨31, 16⟩, cross := s.crossPairs, hs := s.fld SAFE_SO Fld.SAFE_SO_HS, ls := s.fld SAFE_SO Fld.SAFE_SO_LS,
    vout := s.fld FIO_SO_STAT Fld.FIO_SO_STAT_VOUT, vinv := s.flag FIO_SO_STAT Fld.FIO_SO_STAT_VINV, fresh := s.fio.soNew,
    pos := (List.range (blkAxes l)).map fun a =>
      let c := saxCfg l a
      (s.saxCount c.srcA, if c.srcB = 0xFF then s.saxCount c.srcA else s.saxCount c.srcB) }

/-- Latch the snapshot of the cycle that begins, for each channel. -/
def State.safeLatch (s : State) : State :=
  let a := s.snapOf s.safe.a.val
  let b := s.snapOf s.safe.b.val
  s.modSafe fun f => { f with a := { f.a with snap := a }, b := { f.b with snap := b }, cyc := f.cyc + 1 }

/-- The demands of the safe-data connections. -/
def State.showDemands (s : State) : State :=
  s.each 8 fun s r =>
    let x := s.rxAt r
    let on := decide (r < s.nrx) && s.flag SAFE_SDT_STAT Fld.SAFE_SDT_STAT_LOADED && (x.st != .ok || rxActs (s.conn r) x.msg)
    s.setFld (SAFE_RX_STAT r) Fld.SAFE_RX_STAT_DEMAND (b2n on)

/-- The channels that are here evaluate the cycle that ends and apply their demands. -/
def State.safeCycle (s : State) (hereA hereB : Bool) : State × List Report :=
  let ra := hereA && !s.safe.a.lost
  let rb := hereB && !s.safe.b.lost
  let oa := s.safe.a
  let ob := s.safe.b
  let na := s.channelCycle false
  let nb := s.channelCycle true
  let s := if ra then ((s.setChan false na).pairTimers false oa).refresh false else s
  let s := if rb then ((s.setChan true nb).pairTimers true ob).refresh true else s
  let c := if ra && rb then s.compareExact else (s, [])
  let s := if ra && rb then c.1.comparePos else c.1
  let v := s.safeReports
  let s := v.1
  -- restarts: a group whose wait alone holds it, with its bit written (R364)
  let held := s.pathHeld false ||| s.pathHeld true
  let s := s.modSafe fun f => { f with waitG := f.waitG &&& (0xFFF ^^^ (f.restart % 4096 &&& (0xFFF - held % 4096))), restart := 0 }
  let o := s.soCheck
  let s := o.1.stoEval.soDrive.ssStops.showDemands
  (s.showSafe, c.2 ++ v.2 ++ o.2)

/-- A hold by a path readback ends with its acknowledgement. -/
def State.pathRelease (s : State) : State :=
  if s.safe.path ∧ ¬ (s.fc.pend.any fun p => p.src == safeSrc 0x80) then s.modSafe fun f => { f with path := false } else s

/-- The cycle that ends, while the functions are armed: a channel whose copies disagree has no result. -/
def State.armedCycle (s : State) (resA resB : Bool) : State × List Report :=
  let hereA := resA && (s.svAt 1).up && !s.aRestarting && !s.safe.a.torn
  let hereB := resB && s.domOn domSC && !s.fc.stopped.contains domSC && !s.safe.b.torn
  let a := s.presence false hereA
  let b := a.1.presence true hereB
  let s := b.1.setFldPulse 18 SAFE_STAT Fld.SAFE_STAT_SOLO (b2n (b.1.safe.a.lost != b.1.safe.b.lost))
  let c := s.safeCycle hereA hereB
  (c.1, s.tornReports ++ a.2 ++ b.2 ++ c.2)

/-- SAFETY_CYCLE_BOUNDARY: `resA`, `resB` say whether the channels deliver their results for the cycle that ends. Where SC was lost the
boundary still falls for channel A. What the cycle reports arrives in one cycle of the collector (R334). -/
def execSafetyCycleBoundary (resA resB : Bool) (s : State) : Host.Outcome State Fault Refusal :=
  if !s.domOn domSC && !s.armed then .next s
  else
    let s := ((s.cease (safeSrc 0x80) 2).pathRelease).soPulseEnd
    let c := if s.armed then s.armedCycle resA resB else (s, [])
    let pairs := fun (x : SafeCh) => (List.range 8).foldl (fun (m : Nat) p => if x.pairAt p = .on then m + 2 ^ p else m) 0
    let p := c.1.planes
    let s := p.1
    let s := s.safeSend (pairs s.safe.a) (if s.safe.a.lost || s.safe.b.lost then pairs s.safe.a else pairs s.safe.b) s.stoGroups
    .next (s.safeLatch.stoEval.reportAll (c.2 ++ p.2))

/-! ## Requests (R358, R364, R367) -/

/-- The effect of a completed pair in SAFE_RESTART. -/
def State.safeRestartApply (s : State) (w : Word) : State := s.modSafe fun f => { f with restart := f.restart ||| w.toNat }

/-! ## Loading, confirming, disarming (R377, R378) -/

/-- A channel starts anew: pairs OFF, functions idle, latches down. A lost channel stays lost (R361). -/
def SafeCh.idle (x : SafeCh) : SafeCh :=
  { val := x.val, cmp := x.cmp, snap := x.snap, lost := x.lost, restart := x.restart, back := x.back }

/-- Disarm the safety functions. -/
def State.safeDisarm (s : State) : State :=
  let s := s.setFldPulse 18 SAFE_STAT Fld.SAFE_STAT_ARMED 0
  let s := s.setFldPulse 18 SAFE_STAT Fld.SAFE_STAT_SOLO 0
  let s := s.each 16 fun s a => (s.stopTimer (.ss1 a)).stopTimer (.ss2 a)
  let s := s.each 4 fun s k => (s.stopTimer (.soPulse 0 k)).stopTimer (.soPulse 1 k)
  let s := s.each 8 fun s p => (s.stopTimer (.pairDisc 0 p)).stopTimer (.pairDisc 1 p)
  let s := (s.stopTimer (.soloMax 0)).stopTimer (.soloMax 1)
  let s := s.safe.rep.foldl (fun s i => s.cease (safeSrc i) 0) s
  let s := s.modSafe fun f => { f with a := f.a.idle, b := f.b.idle, waitG := 0, restart := 0, rep := [], cmp := [] }
  let s := s.modSafe fun f => { f with ssEnd := Vector.replicate 16 false, ss2End := Vector.replicate 16 false, posBad := Vector.replicate 16 false }
  let s := { s with basin := { s.basin with queues := s.basin.queues.map fun (q : Queue) => { q with stopSs := false } } }
  s.showSdt.soOff.showSafe.stoEval

/-- Arm the safety functions. -/
def State.safeArm (s : State) : State :=
  let s := s.modSafe fun f => { f with a := f.a.idle, b := f.b.idle, waitG := 0, restart := 0 }
  let s := if (List.range 8).any fun p => (pairCfg s.block p).test != 0 then s.setFld FIO_TP ⟨1, 0⟩ 3 else s  -- R491
  ((s.setFldPulse 18 SAFE_STAT Fld.SAFE_STAT_ARMED 1).showSdt).stoEval

/-- A write of SAFE_CTRL: DISARM, then LOAD. -/
def State.safeCtrlWrite (s : State) (w : Word) : State :=
  let dis := fget w Fld.SAFE_CTRL_DISARM = 1
  if dis ∧ s.mode ≠ .commission ∧ s.mode ≠ .hold then s.busErr
  else
    let s := if dis then (s.modSafe fun f => { f with sdtOn := false }).safeDisarm else s
    if fget w Fld.SAFE_CTRL_LOAD = 0 then s
    else if s.mode ≠ .commission then s.setFld SAFE_STAT Fld.SAFE_STAT_LOAD_CODE 5
    else
      let s := s.safeDisarm.modSafe fun f => { f with load := some (s.reg SAFE_LOAD_ADDR).toNat }
      let s := (s.setFldPulse 18 SAFE_STAT Fld.SAFE_STAT_CHECK_VALID 0).setReg SAFE_CHECK 0
      (s.setFldPulse 18 SAFE_STAT Fld.SAFE_STAT_LOADED 0).setFld SAFE_STAT Fld.SAFE_STAT_LOAD_CODE 0xFF

/-- SAFE_LOAD. -/
def execSafeLoad (_i : Initiator) (w : Word) (s : State) : Host.Outcome State Fault Refusal :=
  .next (s.access SAFE_CTRL fun s => s.safeCtrlWrite (fset w Fld.SAFE_CTRL_LOAD 1))

/-- SAFE_DISARM. -/
def execSafeDisarm (_i : Initiator) (w : Word) (s : State) : Host.Outcome State Fault Refusal :=
  .next (s.access SAFE_CTRL fun s => s.safeCtrlWrite (fset w Fld.SAFE_CTRL_DISARM 1))

/-- A channel that can check a block: SV_1 runs; SC was not lost and runs. -/
def State.chanReady (s : State) (b : Bool) : Bool :=
  if b then s.domOn domSC && !s.fc.stopped.contains domSC && !s.safe.b.lost
  else (s.svAt 1).up && !s.aRestarting && !(s.safe.a.lost && !s.safe.a.restart)

/-- Both channels take a block whose code is 0; else the code is shown. -/
def State.blockTake (s : State) (l : List Byte) (code : Nat) : State :=
  let s := (s.modSafe fun f => { f with load := none }).setFld SAFE_STAT Fld.SAFE_STAT_LOAD_CODE code
  if code ≠ 0 then s
  else
    let take : SafeCh → SafeCh := fun x => { val := l, cmp := l.map fun b => ~~~b, snap := x.snap }
    let s := (s.modSafe fun f => { f with a := take f.a, b := take f.b }).discTimer
    let s := (s.setFldPulse 18 SAFE_STAT Fld.SAFE_STAT_LOADED 1).setFldPulse 18 SAFE_STAT Fld.SAFE_STAT_CHECK_VALID 1
    s.setReg SAFE_CHECK (BitVec.ofNat 32 (leAtOf l 1212 4))

/-- SAFE_LOAD_DONE: both channels end their check of the block, or (`sdt`) of the safe-data table; `agree`: they agree. -/
def execSafeLoadDone (sdt agree : Bool) (s : State) : Host.Outcome State Fault Refusal :=
  if !s.domOn domSC then .next s
  else if sdt then .next (s.sdtLoadDone agree)
  else match s.safe.load with
  | none => .next s
  | some a =>
    let l := (s.bytesAt .sv0 a 1216).getD []
    let c := blockCode s.part l
    .next (s.blockTake l (if c = 0 ∧ ¬ (agree ∧ s.chanReady false ∧ s.chanReady true) then 4 else c))

/-- Both channels hold the same block, and no channel's copies disagree (R377). -/
def State.blocksAgree (s : State) : Bool :=
  s.safe.a.val == s.safe.b.val && !s.safe.a.torn && !s.safe.b.torn && s.chanReady false && s.chanReady true

/-- The effect of an accepted SAFE_CONFIRM; the record goes to the parameter store. -/
def State.safeConfirmApply (s : State) (w : Word) : State :=
  let s := s.useBlock
  if s.flag SAFE_STAT Fld.SAFE_STAT_CHECK_VALID ∧ w = s.reg SAFE_CHECK then
    if !s.blocksAgree then s
    else
      let s := s.safeArm
      s.modBoot fun b => { b with psWait := b.psWait ++ [(false, .write 2 (s.safe.a.val ++ leBytes 4 w.toNat))] }
  else s.setFld SAFE_STAT Fld.SAFE_STAT_CONF_ERR 1

/-- The payload of the stored record is a block with the confirmed value, which its CHECK equals. -/
def storedBlock (q : Part) (p : List Byte) : Option (List Byte) :=
  let l := p.take 1216
  if blockCode q l = 0 ∧ leAtOf l 1212 4 = leAtOf p 1216 4 then some l else none

/-- Wake: both channels load the record found in the store, and arm where it fits its stored confirmation (R378). -/
def State.safeWake (s : State) (p : Option (List Byte)) : State :=
  match p with
  | none => s
  | some p =>
    match storedBlock s.part p with
    | some l => if s.chanReady false && s.chanReady true then (s.blockTake l 0).safeArm else s.blockTake l 4
    | none => s.blockTake [] 6

/-- SV_1 was restarted: channel A reloads the stored block, and is back where its check value is the one in force (R361). -/
def State.safeReload (s : State) (p : Option (List Byte)) : State :=
  match p.bind (storedBlock s.part) with
  | some l =>
    if leAtOf l 1212 4 ≠ (s.reg SAFE_CHECK).toNat then s
    else
      let x := s.safe.a
      s.setChan false { x with val := l, cmp := l.map fun b => ~~~b, back := x.lost && s.armed, lost := x.lost && s.armed, restart := x.restart && s.armed }
  | none => s

/-- SV_1 faults: channel A loses what it holds (R361). -/
def State.safeLose (s : State) : State :=
  s.setChan false { s.safe.a with val := [], cmp := [], lost := true, restart := true, back := false, miss := 0 }

end Sys2Proof.Machine
end

