-- ==== Sys2Proof/Machine/Perf.lean ====
section
/-! DEFINITION. Performance counters, instruction tagging and histograms (R408 to R413). -/

namespace Sys2Proof.Machine
open Sys2Proof.Machine.Reg

/-! ## Access rules (R393, R413) -/

/-- The supervisor pair that an initiator is. -/
def pairOf : Initiator → Option Nat
  | .sv0 => some 0
  | .sv1 => some 1
  | _ => none

/-- Privilege level of an initiator's accesses: ST.PL of a pair, Machine for every other initiator. -/
def State.level (s : State) (i : Initiator) : Nat :=
  match pairOf i with
  | some p => bits (s.svAt p).st.toNat 11 10
  | none => 2

/-- Counter, unit and event numbers behind a PERF offset: unit, event, HI word. -/
def perfCounterAt (o : Nat) : Option (Nat × Nat × Bool) :=
  if 0x1000 ≤ o ∧ o < 0x2000 then some (cntSv ((o - 0x1000) / 0x800), o % 0x800 / 8, o % 8 = 4)
  else if 0x2000 ≤ o ∧ o < 0x5000 then some (cntLe ((o - 0x2000) / 0x400), o % 0x400 / 8, o % 8 = 4)
  else if 0x5000 ≤ o ∧ o < 0x5200 then some (cntTow, o % 0x200 / 8, o % 8 = 4)
  else none

/-- Address of a counter's LO word. -/
def perfLoAddr (unit event : Nat) : Nat :=
  0x400B0000 + (if unit < 2 then 0x1000 + 0x800 * unit else if unit < 14 then 0x2000 + 0x400 * (unit - 2) else 0x5000) + 8 * event

/-- The group of PERF_PERM that an offset belongs to, as a bit number, for accesses of pair `p`. -/
def perfGroup (p o : Nat) : Option Nat :=
  match perfCounterAt o with
  | some (u, _, _) => if u = p then some 0 else if u < 2 then some 1 else if u < 14 then some 2 else some 3
  | none =>
    if 0x200 ≤ o ∧ o < 0x600 then some 4
    else if 0x7000 + 0x100 * p ≤ o ∧ o < 0x7100 + 0x100 * p ∨ o = 0x108 + 0x20 * p then some 5
    else none

/-- A read of the PERF block is allowed. -/
def State.perfReadOk (s : State) (i : Initiator) (a : Nat) : Bool :=
  match pairOf i with
  | some p => s.level i != 0 || (perfGroup p (a % 0x10000)).any fun g => (s.reg (PERF_PERM p)).toNat.testBit g
  | none => true

/-- A write of the PERF block is allowed. -/
def State.perfWriteOk (s : State) (i : Initiator) (a : Nat) : Bool :=
  if a = PERF_PERM 0 then i == .sv0 && s.level i == 2
  else if a = PERF_PERM 1 then i == .sv1 && s.level i == 2
  else
    match i with
    | .sv0 | .sv1 => s.level i != 0
    | .wharf | .jtag => true
    | .sc | .towline => false

/-- A write of a PERF register with its access check. The list of sources has no unit for the block, so the source ID of the
corrected fault is free. -/
def State.perfAccess (s : State) (i : Initiator) (a : Nat) (f : State → State) : State :=
  if !s.reachable a then s.busErr
  else if s.perfWriteOk i a then f (s.answer .done)
  else s.useFree.refuse (s.fresh % 65536)

/-! ## Counters -/

/-- The domain that a counter lives in (R551). -/
def cntDomain (u : Nat) : Nat := if u < 2 then domSv u else if u < 14 then domLe (u - 2) else domTP

/-- The HI word of a counter: bits 47:32 and SAT. -/
def cntHi (v : Nat) : Word := BitVec.ofNat 32 (v / 2 ^ 32 + if v = 2 ^ 48 - 1 then 2 ^ 31 else 0)

/-- A read of a counter word: a read of LO latches HI for the initiator (R410). -/
def State.perfCounterRead (s : State) (i : Initiator) (a u e : Nat) (hi : Bool) : State :=
  let key := 2 ^ 32 * initNo i + (if hi then a else a + 4)
  if !s.domOn domTP || !s.domOn (cntDomain u) then s.answer (.data 0)
  else if hi then s.answer (.data (Tbl.get 0 s.hiLatch key))
  else
    let v := Tbl.get 0 s.perf (256 * u + e)
    ({ s with hiLatch := Tbl.put 0 s.hiLatch key (cntHi v) }).answer (.data (BitVec.ofNat 32 v))

/-- A read of the PERF block. -/
def State.perfRead (s : State) (i : Initiator) (a : Nat) : State :=
  if !s.perfReadOk i a then s.busErr
  else
    match perfCounterAt (a % 0x10000) with
    | some (u, e, hi) => s.perfCounterRead i a u e hi
    | none => s.answer (.data (if s.domOn domTP then s.reg a else 0))

/-- PERF_COUNTER_LO: a read of a counter's LO word. -/
def execPerfCounterLo (i : Initiator) (u : Fin 15) (e : Fin 256) (s : State) : Host.Outcome State Fault Refusal :=
  .next (s.perfRead i (perfLoAddr u e))

/-- The counters of the units with `q` go to 0. -/
def State.perfClear (s : State) (q : Nat → Bool) : State := { s with perf := Tbl.keep s.perf fun k => !q (k / 256) }

/-- A write of PERF_CLR. -/
def State.perfClrWrite (s : State) (w : Word) : State :=
  s.perfClear fun u => (u == 0 && w.toNat.testBit 0) || (u == 1 && w.toNat.testBit 1) ||
    (decide (2 ≤ u ∧ u < 14) && w.toNat.testBit 2) || (u == 14 && w.toNat.testBit 3)

/-- PERF_CLR_SV0: PERF_CLR is written with SV0 set. -/
def execPerfClrSv0 (i : Initiator) (s : State) : Host.Outcome State Fault Refusal :=
  .next (s.perfAccess i PERF_CLR fun s => s.perfClrWrite 1)

/-- PERF_CLR_SV1: PERF_CLR is written with SV1 set. -/
def execPerfClrSv1 (i : Initiator) (s : State) : Host.Outcome State Fault Refusal :=
  .next (s.perfAccess i PERF_CLR fun s => s.perfClrWrite 2)

/-- PERF_CLR_LE: PERF_CLR is written with LE set. -/
def execPerfClrLe (i : Initiator) (s : State) : Host.Outcome State Fault Refusal :=
  .next (s.perfAccess i PERF_CLR fun s => s.perfClrWrite 4)

/-- PERF_CLR_TOW: PERF_CLR is written with TOW set. -/
def execPerfClrTow (i : Initiator) (s : State) : Host.Outcome State Fault Refusal :=
  .next (s.perfAccess i PERF_CLR fun s => s.perfClrWrite 8)

/-! ## Tagging (R411) -/

/-- One step of the LFSR x^16 + x^14 + x^13 + x^11 + 1. -/
def tagShift (l : Nat) : Nat :=
  let b := (b2n (l.testBit 0) + b2n (l.testBit 2) + b2n (l.testBit 3) + b2n (l.testBit 5)) % 2
  l / 2 + b * 32768

def State.tagOn (s : State) (p : Nat) : Bool := s.flag (TAG_CFG p) Fld.TAG_CFG_EN

/-- An instruction is fetched: the down-counter decrements. -/
def State.tagFetch (s : State) (p : Nat) : State :=
  if s.tagOn p then
    let v := s.svAt p
    s.setSv p { v with tagCnt := v.tagCnt - 1 }
  else s

/-- The down-counter loads and the LFSR shifts once. -/
def State.tagReload (s : State) (p : Nat) : State :=
  let l := s.fld (TAG_LFSR p) Fld.TAG_LFSR_STATE
  let j := s.fld (TAG_CFG p) Fld.TAG_CFG_J
  let b := Nat.max 1 (s.fld (TAG_CFG p) Fld.TAG_CFG_BASE)
  let v := s.svAt p
  (s.setSv p { v with tagCnt := b + l % 2 ^ j }).setFld (TAG_LFSR p) Fld.TAG_LFSR_STATE (tagShift l)

/-- INSTRUCTION_TAG: the counter is at 0 and the next instruction fetched, the one at PC, is tagged. Its stamps (to D, I, X, M,
then to retirement) and its flags (instruction cache miss, data cache miss, interlock, device access, TRAPPED) come with the
event. -/
def execInstructionTag (p : Fin 2) (stamps : BitVec 40) (flags : BitVec 5) (s : State) : Host.Outcome State Fault Refusal :=
  let p := p.val
  let v := s.svAt p
  let n := s.fld (TAG_STAT p) Fld.TAG_STAT_LEVEL
  if !s.tagOn p || v.tagCnt != 0 || !v.up then .next s
  else if 16 ≤ n then .next ((s.incFld (TAG_STAT p) Fld.TAG_STAT_MISSED).tagReload p)
  else
    let a := TAG_REC p n
    let lvl := bits v.st.toNat 11 10
    let w2 := bits stamps.toNat 39 32 + 2 ^ 8 * flags.toNat + 2 ^ 16 * lvl + 2 ^ 20 * (v.ptId.toNat % 16)
    let s := ((s.setReg a v.pc).setReg (a + 4) (stamps.setWidth 32)).setReg (a + 8) (BitVec.ofNat 32 w2)
    let s := (s.setReg (a + 12) (BitVec.ofNat 32 s.ticks)).setFld (TAG_STAT p) Fld.TAG_STAT_LEVEL (n + 1)
    .next (s.tagReload p)

/-- All records of a pair are discarded. -/
def State.tagEmpty (s : State) (p : Nat) : State :=
  let s := s.each 64 fun s k => s.setReg (TAG_REC p 0 + 4 * k) 0
  s.setFld (TAG_STAT p) Fld.TAG_STAT_LEVEL 0

/-- TAG_EMPTY: TAG_p_CLR is written with EMPTY set. -/
def execTagEmpty (i : Initiator) (p : Fin 2) (s : State) : Host.Outcome State Fault Refusal :=
  .next (s.perfAccess i (TAG_CLR p) fun s => s.tagEmpty p)

/-! ## Histograms (R412) -/

/-- A write of HIST_h_CFG reconfigures the histogram and clears its bins. -/
def State.histWrite (s : State) (h : Nat) (w : Word) : State :=
  (s.plainWrite (HIST_CFG h) w).each 16 fun s k => s.setReg (HIST_BIN h k) 0

/-- HIST_CFG_WRITE. -/
def execHistCfgWrite (i : Initiator) (h : Fin 8) (w : Word) (s : State) : Host.Outcome State Fault Refusal :=
  .next (s.perfAccess i (HIST_CFG h) fun s => s.histWrite h w)

/-- A write of a PERF register. A TAG_p_LFSR write of 0 is refused. -/
def State.perfWrite (s : State) (i : Initiator) (a : Nat) (w : Word) : State :=
  s.perfAccess i a fun s =>
    let o := a % 0x10000
    if a = PERF_CLR then s.perfClrWrite w
    else if (a = TAG_LFSR 0 ∨ a = TAG_LFSR 1) ∧ w.toNat % 65536 = 0 then s.busErr
    else if a = TAG_CLR 0 then if w.toNat.testBit 0 then s.tagEmpty 0 else s
    else if a = TAG_CLR 1 then if w.toNat.testBit 0 then s.tagEmpty 1 else s
    else if 0x200 ≤ o ∧ o < 0x600 ∧ o % 0x80 = 0 then s.histWrite ((o - 0x200) / 0x80) w
    else s.plainWrite a w

end Sys2Proof.Machine
end

