-- ==== Sys2Proof/Machine/Acquisition.lean ====
section
/-! DEFINITION. The acquisition unit (R414 to R427): probes, records, the trigger, mask tests, the capture states. -/

namespace Sys2Proof.Machine
open Sys2Proof.Machine.Reg

/-- Codes of ACQ_STAT.STATE. -/
def acqIdle : Nat := 0
def acqFill : Nat := 1
def acqArmed : Nat := 2
def acqPost : Nat := 3
def acqDone : Nat := 4

def State.acqState (s : State) : Nat := s.fld ACQ_STAT Fld.ACQ_STAT_STATE

/-- STATE is FILL, ARMED or POST. -/
def State.acqBusy (s : State) : Bool := 1 ≤ s.acqState && s.acqState ≤ 3

def State.acqTo (s : State) (st cause : Nat) : State :=
  (s.setFld ACQ_STAT Fld.ACQ_STAT_STATE st).setFld ACQ_STAT Fld.ACQ_STAT_CAUSE cause

/-! ## Configuration of a probe (R416) -/

structure Probe where
  on     : Bool
  signed : Bool
  avg    : Nat
  w      : Nat
  pos    : Nat
  kind   : Nat
  slot   : Nat
  deriving DecidableEq, Repr

def State.probe (s : State) (c : Nat) : Probe :=
  let a := ACQ_P_SRC c
  { on := s.flag a Fld.ACQ_P_SRC_EN
    signed := s.flag a Fld.ACQ_P_SRC_SIGNED
    avg := s.fld a Fld.ACQ_P_SRC_AVG
    w := s.fld a Fld.ACQ_P_SRC_W
    pos := s.fld a Fld.ACQ_P_SRC_POS
    kind := s.fld a Fld.ACQ_P_SRC_KIND
    slot := s.fld a Fld.ACQ_P_SRC_SLOT }

/-- Enabled probes in ascending order. -/
def State.probesOn (s : State) : List Nat := (List.range 64).filter fun c => (s.probe c).on

/-- The source word of a probe; none where its slot was not written since the previous latch. -/
def State.probeWord (s : State) (q : Probe) : Option Nat :=
  match q.kind with
  | 0 => if s.acq.valid.contains q.slot then some (Tbl.get 0 s.acq.slots q.slot).toNat else none
  | 1 => some (s.reg FIO_DI).toNat
  | 2 => some (s.reg FIO_DO).toNat
  | _ => some (s.tt.flightNo % 2 ^ 64)

/-- The sample of a probe. -/
def State.sampleOf (s : State) (c : Nat) : Option Int :=
  let q := s.probe c
  if !q.on then none else
  (s.probeWord q).map fun v =>
    let f := v >>> q.pos % 2 ^ q.w
    if q.signed then sxt q.w f else (f : Nat)

/-! ## Record words (R418) -/

def ceilHalf (k : Nat) : Nat := (k + 1) / 2

/-- The averaged value of the latest 2^k samples; none where one of them is invalid. -/
def averaged (k : Nat) (h : List (Option Int)) : Option Int :=
  let l := h.take (2 ^ k)
  if l.length < 2 ^ k then none
  else (l.mapM id).map fun v => asr (v.foldl (· + ·) 0) (ceilHalf k)

/-- A record word. -/
def recordWord (r : Option Int) : Word :=
  match r with
  | some v => BitVec.ofInt 32 v
  | none => 0x80000000

/-! ## Conditions (R421, R422) -/

/-- Bit c of TVAL or TMASK. -/
def State.pairBit (s : State) (lo c : Nat) : Bool := (s.reg (lo + 4 * (c / 32))).toNat.testBit (c % 32)

/-- Condition bit C_c of a sample. -/
def State.acqCond (s : State) (c : Nat) (v : Option Int) : Bool :=
  match v with
  | none => !s.pairBit ACQ_TVAL_LO c
  | some v =>
    let l := s.reg (ACQ_P_LEVEL c)
    let lv : Int := if (s.probe c).signed then l.toInt else (l.toNat : Int)
    match s.fld (ACQ_P_COND c) Fld.ACQ_P_COND_OP with
    | 1 => decide (lv ≤ v)
    | 2 => decide (v < lv)
    | 3 => v == lv
    | 4 => v != lv
    | _ => false

/-- The pattern holds. -/
def State.patternHolds (s : State) (cond : Nat → Bool) : Bool :=
  (List.range 64).all fun c => !s.pairBit ACQ_TMASK_LO c || cond c == s.pairBit ACQ_TVAL_LO c

/-! ## Mask units (R423, R424) -/

/-- One unit in a record: the state after it, and whether the record fails. It stops behind i = 1,023 (1,024 here, which INDEX shows
as 1,023; DESIGN CHOICE, log entry 298). -/
def State.maskUnit (s : State) (m : Nat) (cond : Nat → Bool) (stored : Nat → Option Int) : State × Bool :=
  let a := ACQ_M_CFG m
  if !s.flag a Fld.ACQ_M_CFG_EN then (s, false) else
  let u := vget s.acq.mask {} m
  let c := cond (s.fld a Fld.ACQ_M_CFG_SYNC)
  let fail := match u.idx with
    | none => none
    | some i =>
      if i < s.fld a Fld.ACQ_M_CFG_LEN ∧ i < 1024 then
        match stored (s.fld a Fld.ACQ_M_CFG_PROBE) with
        | none => some none
        | some r => some (some (decide ((s.reg (ACQ_M_UP m i)).toInt < r ∨ r < (s.reg (ACQ_M_LO m i)).toInt)))
      else none
  let s := match fail with
    | some none => s.incFld (ACQ_M_STAT m) Fld.ACQ_M_STAT_SKIP
    | some (some true) => s.incFld (ACQ_M_STAT m) Fld.ACQ_M_STAT_VCNT
    | _ => s
  let rose := c && u.sync == some false
  let idx := if rose then some 0 else u.idx.map fun i => Nat.min 1024 (i + 1)
  let s := s.modAcq fun q => { q with mask := q.mask.setIfInBounds m { idx := idx, sync := some c } }
  let s := s.setFld (ACQ_M_STAT m) Fld.ACQ_M_STAT_INDEX (match idx with | some i => Nat.min 1023 i | none => 0)
  (s, fail == some (some true))

/-- The four units: the state, whether one failed, and whether a failing one triggers. -/
def State.maskUnits (s : State) (cond : Nat → Bool) (stored : Nat → Option Int) : State × Bool × Bool :=
  (List.range 4).foldl (fun (acc : State × Bool × Bool) m =>
    let r := acc.1.maskUnit m cond stored
    (r.1, acc.2.1 || r.2, acc.2.2 || (r.2 && s.flag (ACQ_M_CFG m) Fld.ACQ_M_CFG_TRIG))) (s, false, false)

/-! ## The capture (R419, R425 to R427) -/

/-- Words of the trace memory. -/
def traceWords : Nat := 2097152

/-- Slots of a ring of records of `n` words. -/
def depthOf (n : Nat) : Nat := traceWords / n

/-- Entry into DONE: the readout registers and the interrupt. -/
def State.acqEnd (s : State) (cause : Nat) : State :=
  let d := depthOf s.acq.size
  let k := s.acq.stored
  let s := (s.acqTo acqDone cause).setReg ACQ_COUNT (BitVec.ofNat 32 (Nat.min k d))
  let s := s.setReg ACQ_OLDEST (BitVec.ofNat 32 (if k ≤ d then 0 else k % d))
  let s := s.setReg ACQ_TRIGREC (match s.acq.trig with | some j => BitVec.ofNat 32 j | none => 0xFFFFFFFF)
  (s.modAcq fun q => { q with force := false, await := false }).irqPulse 17

/-- TT_STATUS.RUNNING falls to 0. -/
def State.acqRunFall (s : State) : State := if s.acqBusy then s.acqEnd 5 else s

/-- The trigger comes in this flight. -/
def State.acqFire (s : State) (cause : Nat) : State :=
  let f := s.tt.flightNo
  let s := (s.setReg ACQ_TFLIGHT_LO (BitVec.ofNat 32 f)).setReg ACQ_TFLIGHT_HI (BitVec.ofNat 32 (f / 2 ^ 32))
  (s.acqTo acqPost cause).modAcq fun q => { q with await := true, force := false }

/-- Store a record in the ring and move the state on. -/
def State.acqStore (s : State) (viol inv : Bool) (words : List Word) : State :=
  let q := s.acq
  let f := s.tt.flightNo
  let j := q.stored % depthOf q.size
  let gap := q.last.any fun l => f != l + s.fld ACQ_CFG Fld.ACQ_CFG_DECIM
  let w0 := f % 2 ^ 24 + 2 ^ 24 * b2n q.await + 2 ^ 25 * b2n viol + 2 ^ 26 * b2n inv + 2 ^ 27 * b2n gap
  let bytes := (BitVec.ofNat 32 w0 :: words).flatMap fun (w : Word) => leBytes 4 w.toNat
  let s := s.setCells (0x14000000 + 4 * (j * q.size)) bytes
  let after := if q.await then 0 else if q.trig.isSome then q.after + 1 else q.after
  let trig := if q.await then some j else q.trig
  let s := s.modAcq fun q => { q with stored := q.stored + 1, last := some f, trig := trig, after := after, await := false }
  let s := s.setReg ACQ_COUNT (BitVec.ofNat 32 (Nat.min s.acq.stored (depthOf q.size)))
  if s.acqState = acqFill ∧ s.fld ACQ_PRE Fld.ACQ_PRE_RECORDS ≤ s.acq.stored then s.acqTo acqArmed 0
  else if s.acqState = acqPost ∧ trig.isSome ∧ s.fld ACQ_POST Fld.ACQ_POST_RECORDS ≤ after then
    s.acqEnd (s.fld ACQ_STAT Fld.ACQ_STAT_CAUSE)
  else s

/-- The part of a latch that runs with the sequencer: samples, conditions, masks, the trigger, the record. -/
def State.acqSample (s : State) : State :=
  let v : Vector (Option Int) 64 := Vector.ofFn fun (c : Fin 64) => s.sampleOf c
  let smp := fun c => vget v none c
  let s := s.probesOn.foldl (fun s c => s.setReg (ACQ_P_LAST c) (recordWord (smp c))) s
  let s := s.modAcq fun q => { q with hist := Vector.ofFn fun (c : Fin 64) => (smp c :: vget q.hist [] c).take 256 }
  let cond := fun c => s.acqCond c (smp c)
  let holds := s.patternHolds cond
  let fires := holds && (!s.flag ACQ_CFG Fld.ACQ_CFG_TMODE || !s.acq.held)
  let s := s.modAcq fun q => { q with held := holds }
  if !s.acqBusy then s else
  let stored := fun c => averaged (s.probe c).avg (vget s.acq.hist [] c)
  let rec? := decide (s.tt.flightNo % s.fld ACQ_CFG Fld.ACQ_CFG_DECIM = 0)
  let r := if rec? then s.maskUnits cond stored else (s, false, false)
  let s := r.1
  let s := if s.acqState = acqArmed ∧ fires then s.acqFire 1
    else if s.acqState = acqArmed ∧ r.2.2 then s.acqFire 2
    else if s.acq.force ∧ s.acqState ≠ acqPost then s.acqFire 3
    else s.modAcq fun q => { q with force := false }
  if rec? then
    let words := s.probesOn.map fun c => stored c
    s.acqStore r.2.1 (words.any Option.isNone) (words.map recordWord)
  else s

/-- ACQ_LATCH: tick ACQ_PT of a flight. -/
def execAcqLatch (s : State) : Host.Outcome State Fault Refusal :=
  if !s.domOn domAQ then .next s
  else
    let s := if s.running then s.acqSample else s.modAcq fun q => { q with hist := Vector.replicate 64 [] }
    .next (s.modAcq fun q => { q with valid := [] })

/-- The checks of START (R426). -/
def State.acqStartOk (s : State) : Bool :=
  let d := s.fld ACQ_CFG Fld.ACQ_CFG_DECIM
  let l := s.probesOn
  l != [] && d != 0 && s.running &&
    (l.all fun c =>
      let q := s.probe c
      q.avg ≤ 8 && decide (2 ^ q.avg ≤ d) && decide (1 ≤ q.w ∧ q.w ≤ 24) && decide (q.pos + q.w ≤ 64) &&
        decide (s.fld (ACQ_P_COND c) Fld.ACQ_P_COND_OP ≤ 4)) &&
    decide (s.fld ACQ_PRE Fld.ACQ_PRE_RECORDS + s.fld ACQ_POST Fld.ACQ_POST_RECORDS + 1 ≤ depthOf (l.length + 1))

/-- START is written. -/
def State.acqStart (s : State) : State :=
  if s.acqBusy then s
  else if !s.acqStartOk then s.setFld ACQ_STAT Fld.ACQ_STAT_CFG_ERR 1
  else
    let n := s.probesOn.length + 1
    let s := s.modAcq fun q => { q with size := n, stored := 0, last := none, trig := none, after := 0, await := false }
    let s := s.modAcq fun q => { q with force := false, mask := Vector.replicate 4 {} }
    let s := s.each 4 fun s m => s.setReg (ACQ_M_STAT m) 0
    let s := (s.setReg ACQ_DEPTH (BitVec.ofNat 32 (depthOf n))).setReg ACQ_COUNT 0
    s.acqTo acqFill 0

/-- STOP is written. -/
def State.acqStop (s : State) : State := if s.acqBusy then s.acqEnd 4 else s

/-- FORCE is written: it acts at the latch of the flight, after the pattern and the mask units. -/
def State.acqForce (s : State) : State :=
  if s.acqState = acqFill ∨ s.acqState = acqArmed then s.modAcq fun q => { q with force := true } else s

/-- A write of ACQ_CTRL. -/
def State.acqCtrlWrite (s : State) (w : Word) : State :=
  let s := if w.toNat.testBit 1 then s.acqStop else s
  let s := if w.toNat.testBit 0 then s.acqStart else s
  if w.toNat.testBit 2 then s.acqForce else s

/-- ACQ_START: ACQ_CTRL is written with START. -/
def execAcqStart (s : State) : Host.Outcome State Fault Refusal := .next (s.access ACQ_CTRL fun s => s.acqCtrlWrite 1)

/-- ACQ_STOP: ACQ_CTRL is written with STOP. -/
def execAcqStop (s : State) : Host.Outcome State Fault Refusal := .next (s.access ACQ_CTRL fun s => s.acqCtrlWrite 2)

/-- ACQ_FORCE: ACQ_CTRL is written with FORCE. -/
def execAcqForce (s : State) : Host.Outcome State Fault Refusal := .next (s.access ACQ_CTRL fun s => s.acqCtrlWrite 4)

/-- A write of an ACQ register (R421, R426). -/
def State.acqWrite (s : State) (a : Nat) (w : Word) : State :=
  let o := a % 0x10000
  if a = ACQ_CTRL then s.acqCtrlWrite w
  else if s.acqBusy then s.refuse (srcId 0x0C 0)
  else if 0x100 ≤ o ∧ o < 0x500 ∧ o % 16 = 4 ∧ 4 < w.toNat % 8 then s.busErr
  else s.plainWrite a w

end Sys2Proof.Machine
end

