-- ==== Sys2Proof/Machine/LineTime.lean ====
section
/-! DEFINITION. Line time (R428 to R438): the counter, compare units, steps, the servo, the references and their states. -/

namespace Sys2Proof.Machine
open Sys2Proof.Machine.Reg

/-- Source of Ethernet and line time (R335). -/
def timeSrc : Nat := srcId 0x0D 0

/-- ±500 ppm in units of 2^−40 (R428). -/
def rateMax : Int := 549755813

/-! ## The counter (R428, R429) -/

/-- One cycle of the 250 MHz clock: 64 × (1 + RATE × 2^−40) fraction units. -/
def TimeSt.advance (t : TimeSt) (rate : Int) : TimeSt :=
  let v : Int := (t.line.toNat : Int) * (2 ^ 40 : Nat) + t.ext.toNat + 64 * ((2 ^ 40 : Nat) + rate)
  { t with line := BitVec.ofInt 64 (asr v 40), ext := BitVec.ofInt 40 v }

/-- A read of TIME_NOW_LO (R429). -/
def State.timeNowLo (s : State) (i : Initiator) : State :=
  if !s.domOn domNW then s.answer (.data 0)
  else
    let key := 2 ^ 32 * initNo i + TIME_NOW_HI
    ({ s with hiLatch := Tbl.put 0 s.hiLatch key (BitVec.ofNat 32 (s.time.line.toNat / 2 ^ 32)) }).answer
      (.data (BitVec.ofNat 32 s.time.line.toNat))

/-- TIME_NOW_LO. -/
def execTimeNowLo (i : Initiator) (s : State) : Host.Outcome State Fault Refusal := .next (s.timeNowLo i)

/-! ## Compare units (R431) -/

/-- A write of TIME_CMP_k arms the unit. -/
def State.cmpArm (s : State) (k : Nat) (w : Word) : State := (s.setReg (TIME_CMP k) w).setFld TIME_CMPSTAT ⟨k, k⟩ 1

/-- TIME_CMP_ARM. -/
def execTimeCmpArm (k : Fin 8) (w : Word) (s : State) : Host.Outcome State Fault Refusal :=
  .next (s.access (TIME_CMP k) fun s => s.cmpArm k w)

/-- The distance from a 32-bit target tick to now, as R431 compares it. -/
def State.since (s : State) (c : Word) : Int := sxt 32 (s.ticks + 2 ^ 32 - c.toNat)

/-- TIME_CMP_FIRE: the target tick is reached. -/
def execTimeCmpFire (k : Fin 8) (s : State) : Host.Outcome State Fault Refusal :=
  let k := k.val
  if s.domOn domNW ∧ s.flag TIME_CMPSTAT ⟨k, k⟩ ∧ 0 ≤ s.since (s.reg (TIME_CMP k)) then
    .next ((s.setFld TIME_CMPSTAT ⟨k, k⟩ 0).setFld TIME_CMPSTAT ⟨8 + k, 8 + k⟩ 1)
  else .next s

/-! ## States of the references (R433, R436 to R438) -/

def stFree : Nat := 0
def stAcquire : Nat := 1
def stLocked : Nat := 2
def stHoldover : Nat := 3
def stSwitch : Nat := 4
def stMaster : Nat := 5

def State.timeState (s : State) : Nat := s.fld TIME_STAT Fld.TIME_STAT_STATE
def State.timeRef (s : State) : Nat := s.fld TIME_STAT Fld.TIME_STAT_SRC

/-- The servo is on: with SERVO_EN = 0 the states do not change (R432). -/
def State.servoOn (s : State) : Bool := s.flag TIME_CTRL Fld.TIME_CTRL_SERVO_EN

/-- STATE changes (interrupt source 10). -/
def State.timeTo (s : State) (st : Nat) : State :=
  if s.timeState = st then s else (s.setFld TIME_STAT Fld.TIME_STAT_STATE st).irqPulse 10

def State.refAt (s : State) (r : Nat) : TimeRef := vget s.time.refs {} r
def State.setRef (s : State) (r : Nat) (x : TimeRef) : State := s.modTime fun t => { t with refs := t.refs.setIfInBounds r x }

/-- Sync interval of a reference in clock ticks: 2^LOG_SYNC s for PTP, CYC_F flights of the follower for CAN (R467). -/
def State.syncInterval (s : State) (r : Nat) : Nat :=
  if r < 2 then
    let l := s.fld TIME_PTP_CFG Fld.TIME_PTP_CFG_LOG_SYNC
    1000 * msTicks / 2 ^ ((16 - l) % 16)
  else
    let c := if s.fld (CAN_TM_CFG 1) Fld.CAN_TM_CFG_MODE = 2 then 1 else 0
    s.fld (CAN_TM_CFG c) Fld.CAN_TM_CFG_CYC_F * s.grid.1

/-- Rank of a reference (R436); 15 excludes it. -/
def State.refPrio (s : State) (r : Nat) : Nat :=
  s.fld TIME_REF_CFG (if r < 2 then Fld.TIME_REF_CFG_PRIO_PTP else Fld.TIME_REF_CFG_PRIO_CAN)

/-- Reference `a` is better than `b`. -/
def State.refBetter (s : State) (a b : Nat) : Bool :=
  if s.refPrio a ≠ s.refPrio b then s.refPrio a < s.refPrio b
  else if a < 2 ∧ b < 2 then
    let x := s.fld (ETH_P_STAT a) Fld.ETH_P_STAT_STEPS_REM
    let y := s.fld (ETH_P_STAT b) Fld.ETH_P_STAT_STEPS_REM
    if x ≠ y then x < y else a < b
  else false

/-- The best qualified reference other than `r`. -/
def State.bestOther (s : State) (r : Nat) : Option Nat :=
  (([0, 1, 2].filter fun k => k != r && (s.refAt k).qual && s.refPrio k != 15)).foldl (fun (acc : Option Nat) k =>
    match acc with
    | none => some k
    | some b => if s.refBetter k b then some k else some b) none

/-- A switch window opens on a candidate: 4 of its sync intervals. -/
def State.openWindow (s : State) (r : Nat) : State :=
  if !s.servoOn then s else
  let prev := if s.timeState = stSwitch then s.time.prev else s.timeState
  let s := s.modTime fun t => { t with cand := some r, prev := prev, holdAt := none }
  (s.timeTo stSwitch).startTimer .switchWindow (4 * s.syncInterval r)

/-- The reference becomes the one in use: ACQUIRE, no step. -/
def State.commitRef (s : State) (r : Nat) : State :=
  if !s.servoOn then s else
  let s := (s.setFld TIME_STAT Fld.TIME_STAT_SRC r).incFld TIME_CNT Fld.TIME_CNT_SWITCHES
  let s := s.modTime fun t => { t with cand := none, good := 0, holdAt := none }
  (s.timeTo stAcquire).stopTimer .switchWindow

/-- Entry into HOLDOVER: a corrected fault. -/
def State.enterHoldover (s : State) : State :=
  if !s.servoOn then s else
  let s := s.modTime fun t => { t with holdAt := some s.clock }
  (s.timeTo stHoldover).logCorrected timeSrc

/-- The module is elected grandmaster: RATE is held. -/
def State.enterMaster (s : State) : State :=
  if !s.servoOn then s else
  let s := s.setFld TIME_STAT Fld.TIME_STAT_SRC 3
  let s := s.modTime fun t => { t with cand := none, holdAt := none }
  (s.timeTo stMaster).stopTimer .switchWindow

/-! ## Steps (R433, R434) -/

/-- No channel has EN = 1 and the mode is not Run, Degraded or Safe Stop. -/
def State.stepAllowed (s : State) : Bool :=
  s.mode != .run && s.mode != .degraded && s.mode != .safeStop &&
    (List.range (axisCount s.part)).all fun n => !s.flag (PWM_CTRL n) Fld.PWM_CTRL_EN

/-- The step that a STEP command fixes: TIME_STEP, or −O of the last Sync measured. -/
def State.stepDelta (s : State) (meas : Bool) : Option Int :=
  if meas then s.time.ofs.map fun o => -o
  else some (sxt 64 ((s.reg TIME_STEP_LO).toNat + 2 ^ 32 * (s.reg TIME_STEP_HI).toNat))

/-- RATE takes a value. -/
def State.setRate (s : State) (v : Int) : State := s.setReg TIME_RATE (BitVec.ofInt 32 (clampI (-rateMax) rateMax v))

/-- With SERVO_EN = 0, RATE follows TIME_RATE_MAN (R432). -/
def State.manualRate (s : State) : State :=
  if s.servoOn then s else s.setRate (s.reg TIME_RATE_MAN).toInt

/-- A write of TIME_CTRL. -/
def State.timeCtrlWrite (s : State) (w : Word) : State :=
  if fget w Fld.TIME_CTRL_STEP = 1 then
    match s.stepAllowed, s.stepDelta (fget w Fld.TIME_CTRL_STEP_MEAS = 1) with
    | true, some d => ((s.plainWrite TIME_CTRL w).modTime fun t => { t with step := some d }).manualRate
    | _, _ => s.refuse timeSrc
  else (s.plainWrite TIME_CTRL w).manualRate

/-- TIME_STEP: TIME_CTRL is written with STEP. -/
def execTimeStep (w : Word) (s : State) : Host.Outcome State Fault Refusal :=
  .next (s.access TIME_CTRL fun s => s.timeCtrlWrite (fset w Fld.TIME_CTRL_STEP 1))

/-- The step takes effect at a flight boundary: line time jumps, the step is counted and logged. -/
def State.stepLine (s : State) (d : Int) : State :=
  let s := s.modTime fun t => { t with line := t.line + BitVec.ofInt 64 d, step := none }
  (s.incFld TIME_CNT Fld.TIME_CNT_STEPS).logCorrected timeSrc (BitVec.ofInt 32 d)

/-- A lock-in step (R433). The answer says whether a step was fixed. -/
def State.lockInStep (s : State) (o : Int) : State × Bool :=
  if 10 * s.fld TIME_THR Fld.TIME_THR_STEP_THR < o.natAbs ∧ s.flag TIME_CTRL Fld.TIME_CTRL_STEP_OK then
    if s.stepAllowed then (s.modTime fun t => { t with step := some (-o) }, true)
    else (s.setFld TIME_STAT Fld.TIME_STAT_STEP_BLK 1, false)
  else (s, false)

/-! ## The servo (R432) -/

/-- The servo takes an offset. -/
def State.servo (s : State) (o : Int) : State :=
  if !s.servoOn then s else
  let ki := s.fld TIME_SERVO Fld.TIME_SERVO_KI_SH
  let kp := s.fld TIME_SERVO Fld.TIME_SERVO_KP_SH
  let acc := clampI (-rateMax) rateMax (s.time.acc + o * (2 ^ ki : Nat))
  let s := s.modTime fun t => { t with acc := acc }
  s.setRate (s.time.rate0 - o * (2 ^ kp : Nat) - acc)

/-- ACQUIRE: 16 consecutive Syncs within LOCK_THR lock the counter. -/
def State.track (s : State) (o : Int) : State :=
  if s.timeState ≠ stAcquire ∨ ¬ s.servoOn then s
  else if s.fld TIME_THR Fld.TIME_THR_LOCK_THR < o.natAbs then s.modTime fun t => { t with good := 0 }
  else if s.time.good + 1 < 16 then s.modTime fun t => { t with good := t.good + 1 }
  else
    let r := (s.reg TIME_RATE).toInt
    (s.modTime fun t => { t with good := 0, rate0 := r }).timeTo stLocked

/-- A reference qualifies. The answer says whether a lock-in step was fixed. -/
def State.qualifies (s : State) (r : Nat) (o : Int) : State × Bool :=
  let st := s.timeState
  if st = stFree then
    let s := s.setFld TIME_STAT Fld.TIME_STAT_SRC r
    let s := s.modTime fun t => { t with good := 0 }
    (s.timeTo stAcquire).lockInStep o
  else if st = stHoldover then (s.openWindow r, false)
  else if st = stSwitch then
    (if s.time.cand.any fun c => s.refBetter r c then s.openWindow r else s, false)
  else if (st = stLocked ∨ st = stAcquire) ∧ r ≠ s.timeRef ∧ s.refBetter r s.timeRef then (s.commitRef r, false)
  else (s, false)

/-- A Sync of a reference that passed the checks of its protocol: its offset O (R432, R436, R437). -/
def State.syncArrive (s : State) (r : Nat) (o : Int) : State :=
  let s := (s.modTime fun t => { t with ofs := some o }).setReg TIME_OFS (BitVec.ofInt 32 (clampI (-2147483648) 2147483647 o))
  let x := s.refAt r
  if s.refPrio r = 15 then s
  else if s.timeState = stLocked ∧ 16 * s.fld TIME_THR Fld.TIME_THR_LOCK_THR < o.natAbs then s.setRef r { x with run := 0 }
  else
    let near := x.last.any fun l => 2 * (s.clock - l) ≤ 3 * s.syncInterval r
    let run := if near then x.run + 1 else 1
    let new := s.servoOn && !x.qual && 16 ≤ run
    let s := s.setRef r { last := some s.clock, run := run, qual := x.qual || new }
    let s := if s.timeState = stSwitch ∧ s.timeRef = r ∧ s.time.cand ≠ some r ∧ ¬ s.due .switchWindow ∧ s.servoOn then
        let s := (s.timeTo s.time.prev).incFld TIME_CNT Fld.TIME_CNT_ABANDONS
        let back := s.timeState = stHoldover
        (s.modTime fun t => { t with cand := none, holdAt := if back then some s.clock else none }).stopTimer .switchWindow
      else s
    let q := if new then s.qualifies r o else (s, false)
    let s := q.1
    if s.timeRef = r ∧ (s.timeState = stAcquire ∨ s.timeState = stLocked) ∧ !q.2 then (s.servo o).track o else s

/-- REFERENCE_LOSS: LOSS_N intervals have passed without a valid Sync (R436, R437). -/
def execReferenceLoss (r : Fin 3) (s : State) : Host.Outcome State Fault Refusal :=
  let r := r.val
  let x := s.refAt r
  let n := s.fld TIME_REF_CFG Fld.TIME_REF_CFG_LOSS_N
  if !(x.last.any fun l => n * s.syncInterval r ≤ s.clock - l) then .next s
  else
    let s := s.setRef r { x with run := 0, qual := false }
    if s.timeRef = r ∧ (s.timeState = stAcquire ∨ s.timeState = stLocked) then
      match s.bestOther r with
      | some k => .next (s.openWindow k)
      | none => .next s.enterHoldover
    else .next s

/-- SWITCH_WINDOW_END: the candidate becomes the reference (R437). -/
def execSwitchWindowEnd (s : State) : Host.Outcome State Fault Refusal :=
  match s.time.cand with
  | some r => .next (if s.timeState = stSwitch ∧ s.due .switchWindow then s.commitRef r else s)
  | none => .next s

/-- Seconds in the current holdover (TIME_HOLD.ELAPSED). -/
def State.holdElapsed (s : State) : Nat :=
  match s.time.holdAt with
  | some t => Nat.min 65535 ((s.clock - t) / (1000 * msTicks))
  | none => 0

/-- HOLDOVER_LIMIT: a holdover longer than LIMIT logs a contained fault, once (R438). -/
def execHoldoverLimit (s : State) : Host.Outcome State Fault Refusal :=
  let lim := Nat.max 1 (s.fld TIME_HOLD Fld.TIME_HOLD_LIMIT)
  if s.timeState = stHoldover ∧ s.time.holdAt.any (fun t => lim * (1000 * msTicks) < s.clock - t) ∧
      ¬ s.flag TIME_STAT Fld.TIME_STAT_HOLD_LIM then
    .next ((s.setFld TIME_STAT Fld.TIME_STAT_HOLD_LIM 1).logContained timeSrc)
  else .next s

/-! ## Register writes -/

/-- A write of a TIME register. -/
def State.timeWrite (s : State) (a : Nat) (w : Word) : State :=
  if a = TIME_CTRL then s.timeCtrlWrite w
  else if a = TIME_RATE_MAN then (s.plainWrite a w).manualRate
  else if TIME_CMP 0 ≤ a ∧ a ≤ TIME_CMP 7 then s.cmpArm ((a - TIME_CMP 0) / 4) w
  else s.plainWrite a w

/-- A read of a TIME register. -/
def State.timeRead (s : State) (i : Initiator) (a : Nat) : State :=
  if a = TIME_NOW_LO then s.timeNowLo i
  else if !s.domOn domNW then s.answer (.data 0)
  else if a = TIME_NOW_HI then s.answer (.data (Tbl.get 0 s.hiLatch (2 ^ 32 * initNo i + TIME_NOW_HI)))
  else if a = TIME_HOLD then s.answer (.data (fset (s.reg a) Fld.TIME_HOLD_ELAPSED s.holdElapsed))
  else s.answer (.data (s.reg a))

/-- TIME_EPOCH is accepted in Wake, Commission and Hold (R430). -/
def State.epochOk (s : State) : Bool := s.mode == .wake || s.mode == .commission || s.mode == .hold

end Sys2Proof.Machine
end

