-- ==== Sys2Proof/Machine/Ethernet.lean ====
section
/-! DEFINITION. The Ethernet ports and the switch (R439 to R442), time transfer (R443 to R445), scheduled transmission (R447,
R448), and the Towline frames that touch no register (R449 to R453, R456). -/

namespace Sys2Proof.Machine
open Sys2Proof.Machine.Reg

def State.ethPort (s : State) (p : Nat) : EthPort := vget s.eth.port {} p
def State.setPort (s : State) (p : Nat) (x : EthPort) : State := s.modEth fun e => { e with port := e.port.setIfInBounds p x }

/-- The other port. -/
def otherPort (p : Nat) : Nat := 1 - p

/-- The switch is enabled and the link of the port is up. -/
def State.portUp (s : State) (p : Nat) : Bool :=
  s.domOn domNW && s.flag ETH_CTRL Fld.ETH_CTRL_EN && s.flag (ETH_P_STAT p) Fld.ETH_P_STAT_LINK

def State.frameIn (s : State) (p : Nat) : State := s.incFld (ETH_P_CNT_RX p) ⟨31, 0⟩
def State.frameOut (s : State) (p : Nat) : State := s.incFld (ETH_P_CNT_TX p) ⟨31, 0⟩
def State.frameErr (s : State) (p : Nat) : State := s.incFld (ETH_P_CNT_ERR p) ⟨31, 0⟩

/-- A frame of the module's own leaves on every port that is up. -/
def State.frameBoth (s : State) : State :=
  s.each 2 fun s p => if s.portUp p then s.frameOut p else s

/-- The module's MAC address, byte 0 highest. -/
def State.ownMac (s : State) : BitVec 48 :=
  BitVec.ofNat 48 ((s.reg ETH_MAC_HI).toNat % 2 ^ 16 * 2 ^ 32 + (s.reg ETH_MAC_LO).toNat)

/-! ## The best master clock algorithm (R443) -/

/-- A priority vector as one number: the lower is the better. -/
def prioKey (p1 q p2 gm steps sender : Nat) : Nat :=
  ((((p1 * 2 ^ 32 + q) * 2 ^ 8 + p2) * 2 ^ 64 + gm) * 2 ^ 16 + steps) * 2 ^ 80 + sender

def State.ownClock (s : State) : BitVec 64 := Config.clockIdentity s.ownMac

def State.ownKey (s : State) : Nat :=
  prioKey (s.fld TIME_PTP_CFG Fld.TIME_PTP_CFG_PRIO1) Config.clockQuality.toNat (s.fld TIME_PTP_CFG Fld.TIME_PTP_CFG_PRIO2)
    s.ownClock.toNat 0 (s.ownClock.toNat * 2 ^ 16)

/-- The port with the best Announce. -/
def State.bestPort (s : State) : Option (Nat × Nat × BitVec 64) :=
  match (s.ethPort 0).ann, (s.ethPort 1).ann with
  | some a, some b => if b.1 < a.1 then some (1, b) else some (0, a)
  | some a, none => some (0, a)
  | none, some b => some (1, b)
  | none, none => none

/-- PTP_STATE of a port: 0 disabled, 1 master, 2 slave, 3 passive. `slave` is the port of the grandmaster's vector, with the key
that the module would send on. -/
def State.portRole (s : State) (p : Nat) (slave : Option (Nat × Nat)) : Nat :=
  if !s.flag (ETH_P_STAT p) Fld.ETH_P_STAT_LINK then 0
  else
    match slave with
    | none => 1
    | some (q, k) => if p = q then 2 else if (s.ethPort p).ann.any fun a => a.1 < k then 3 else 1

/-- Run the algorithm on both ports. -/
def State.bmca (s : State) : State :=
  let cap := s.flag TIME_PTP_CFG Fld.TIME_PTP_CFG_GM_CAP
  let own := cap && match s.bestPort with
    | none => true
    | some (_, k, _) => s.ownKey < k
  let slave := if own then none else s.bestPort.map fun (b : Nat × Nat × BitVec 64) => (b.1, b.2.1 + 2 ^ 80)
  let s := if own then (s.modEth fun e => { e with gm := some s.ownClock }).enterMaster
    else
      match s.bestPort with
      | none => s.modEth fun e => { e with gm := none }
      | some (p, _, g) =>
        let s := s.modEth fun e => { e with gm := some g }
        if s.timeState = stMaster then s.openWindow p else s
  s.each 2 fun s p => s.setFld (ETH_P_STAT p) Fld.ETH_P_STAT_PTP_STATE (s.portRole p slave)

/-- PTP_ANNOUNCE: an Announce arrives and the algorithm runs. One of another domain, or of the module itself, is discarded. -/
def execPtpAnnounce (p : Fin 2) (f : Announce) (s : State) : Host.Outcome State Fault Refusal :=
  let p := p.val
  if !s.portUp p then .next s
  else
    let s := s.frameIn p
    if f.domain.toNat ≠ s.fld TIME_PTP_CFG Fld.TIME_PTP_CFG_DOMAIN ∨ f.gm = s.ownClock then .next s
    else
      let k := prioKey f.prio1.toNat f.quality.toNat f.prio2.toNat f.gm.toNat f.steps.toNat f.sender.toNat
      let s := s.setFld (ETH_P_STAT p) Fld.ETH_P_STAT_STEPS_REM f.steps.toNat
      .next (s.setPort p { s.ethPort p with ann := some (k, f.gm) }).bmca

/-- ANNOUNCE_RECEIPT_TIMEOUT: no Announce came on a port within the receipt timeout. -/
def execAnnounceReceiptTimeout (p : Fin 2) (s : State) : Host.Outcome State Fault Refusal :=
  if !s.domOn domNW then .next s
  else .next (s.setPort p { s.ethPort p with ann := none }).bmca

/-! ## Sync and peer delay (R432, R444, R445) -/

/-- Fraction units of a correctionField in 2^−16 ns. -/
def corrUnits (c : Int) : Int := asr c 12

/-- What a relay adds to correctionField: residence time and link delay, in 2^−16 ns, times the rate ratio 1 + `ro` × 2^−41. -/
def relayAdd (units ro : Int) : Int := asr (units * 4096 * ((2 ^ 41 : Nat) + ro)) 41

/-- PTP time of the epoch in units of 62.5 ps (R430). -/
def State.epochBase (s : State) : Int := ((s.fld TIME_EPOCH Fld.TIME_EPOCH_E * 2 ^ 28 * 1000000000 * 16 : Nat) : Int)

/-- The copy of a Sync that leaves on the other port. -/
def State.relaySync (s : State) (p : Nat) (f : PtpSync) : State :=
  let q := otherPort p
  if !s.portUp q then s
  else
    let units := (f.egress - f.stamp).toInt + (s.reg (ETH_P_DELAY p)).toInt
    let ro := f.csro.toInt + (s.ethPort p).nrr
    (s.setPort q { s.ethPort q with sync := some (f.origin, f.corr.toInt + relayAdd units ro, ro) }).frameOut q

/-- PTP_SYNC: a Sync is stamped, relayed, measured. -/
def execPtpSync (p : Fin 2) (f : PtpSync) (s : State) : Host.Outcome State Fault Refusal :=
  let p := p.val
  if !s.portUp p then .next s
  else
    let s := (s.frameIn p).relaySync p f
    if f.domain.toNat ≠ s.fld TIME_PTP_CFG Fld.TIME_PTP_CFG_DOMAIN ∨ s.eth.gm ≠ some f.gm then .next s
    else
      let t : Int := 16 * (f.origin : Int) + corrUnits f.corr.toInt + (s.reg (ETH_P_DELAY p)).toInt + (s.reg (ETH_P_ASYM p)).toInt
      let r := t - s.epochBase
      if r < 0 ∨ ((2 ^ 64 : Nat) : Int) < r then .next (s.setFld TIME_STAT Fld.TIME_STAT_EPOCH_ERR 1)
      else .next (s.syncArrive p ((f.stamp.toNat : Int) - r))

/-- PDELAY_REQ: a request is answered with the turnaround time. -/
def execPdelayReq (p : Fin 2) (ingress egress : W64) (s : State) : Host.Outcome State Fault Refusal :=
  let p := p.val
  if !s.portUp p then .next s
  else .next (((s.frameIn p).setPort p { s.ethPort p with resp := some (egress - ingress).toInt }).frameOut p)

/-- PDELAY_TX: a request leaves at a stamp. -/
def execPdelayTx (p : Fin 2) (stamp : W64) (s : State) : Host.Outcome State Fault Refusal :=
  let p := p.val
  if !s.portUp p then .next s
  else .next ((s.setPort p { s.ethPort p with t1 := some stamp }).frameOut p)

/-- PDELAY_RESP: the answer arrives at a stamp with its turnaround time in 2^−16 ns; the neighbour's rate ratio − 1 in 2^−41 is as
measured. -/
def execPdelayResp (p : Fin 2) (stamp turn : W64) (nrr : Word) (s : State) : Host.Outcome State Fault Refusal :=
  let p := p.val
  let x := s.ethPort p
  if !s.portUp p then .next s
  else
    let s := s.frameIn p
    match x.t1 with
    | none => .next s
    | some t1 =>
      let trip := asr ((stamp - t1).toInt * ((2 ^ 41 : Nat) + nrr.toInt)) 41
      let d := asr (trip - corrUnits turn.toInt) 1
      let s := s.setPort p { x with t1 := none, nrr := nrr.toInt }
      .next (s.setReg (ETH_P_DELAY p) (BitVec.ofInt 32 d))

/-- GM_SYNC_TX: as grandmaster the module sends a Sync that leaves a port at a stamp. -/
def execGmSyncTx (p : Fin 2) (stamp : W64) (s : State) : Host.Outcome State Fault Refusal :=
  let p := p.val
  if s.timeState ≠ stMaster ∨ !s.portUp p then .next s
  else
    let ns := s.fld TIME_EPOCH Fld.TIME_EPOCH_E * 2 ^ 28 * 1000000000 + stamp.toNat / 16
    .next ((s.setPort p { s.ethPort p with sync := some (ns, 0, 0) }).frameOut p)

/-! ## Ports and frames (R439 to R442) -/

/-- The link of a port takes a state (interrupt source 12). -/
def State.setLinkUp (s : State) (p : Nat) (up : Bool) : State :=
  if s.flag (ETH_P_STAT p) Fld.ETH_P_STAT_LINK = up then s
  else
    let s := (s.setFld (ETH_P_STAT p) Fld.ETH_P_STAT_LINK (b2n up)).irqPulse 12
    let s := if up then s else s.setPort p { s.ethPort p with ann := none, t1 := none }
    s.bmca

/-- ETH_LINK_CHANGE: what the PCS or the PHY reports: link, 1000 Mb/s full duplex, auto-negotiation complete. -/
def execEthLinkChange (p : Fin 2) (up full an : Bool) (s : State) : Host.Outcome State Fault Refusal :=
  let p := p.val
  let m := s.fld (ETH_P_CFG p) Fld.ETH_P_CFG_MODE
  if !s.domOn domNW || m == 0 then .next s
  else
    let s := s.setFld (ETH_P_STAT p) Fld.ETH_P_STAT_AN_DONE (b2n (an && s.flag (ETH_P_CFG p) Fld.ETH_P_CFG_AN_EN))
    let s := if up ∧ ¬ full then s.setFld (ETH_P_STAT p) Fld.ETH_P_STAT_SPEED_ERR 1 else s
    .next (s.setLinkUp p (up && full))

/-- Length of a frame from the destination address to the FCS. -/
def frameSize (f : EthFrame) : Nat := 18 + (if f.hsr.isSome then 6 else 0) + f.data.length

/-- A group address. -/
def groupMac (m : BitVec 48) : Bool := m.toNat.testBit 40

/-- A big-endian number of two bytes. -/
def be16 (l : List Byte) (o : Nat) : Nat := (vgetL l 0 o).toNat * 256 + (vgetL l 0 (o + 1)).toNat

/-- The module's address, where SYS_ADDR is valid (R31, R32). -/
def State.ownAddr (s : State) : Option Nat := if s.flag SYS_ADDR Fld.SYS_ADDR_VALID then some (s.fld SYS_ADDR ⟨13, 0⟩) else none

/-- The destination of a Towline frame of a type is this module (R449, R450). -/
def State.tlForMe (s : State) (type dst : Nat) (unicast : Bool) : Bool :=
  dst == 0x8000 || s.ownAddr == some dst || (s.ownAddr.isNone && dst == 0xC000 && type == 2 && unicast)

def State.tlBad (s : State) : State := s.incFld ETH_TL_STAT Fld.ETH_TL_STAT_BAD

/-- NW takes a frame; a Towline frame with a bad header is discarded and counted. -/
def State.frameToNw (s : State) (f : EthFrame) : State :=
  if f.etype.toNat = s.fld ETH_TL_CFG Fld.ETH_TL_CFG_ETYPE ∧
      ((vgetL f.data 0 0).toNat ≠ 1 ∨ f.data.length < 16 + be16 f.data 10 ∨
        ¬ s.tlForMe (vgetL f.data 0 1).toNat (be16 f.data 6) (f.dst == s.ownMac)) then s.tlBad
  else s.modEth fun e => { e with nw := some f }

/-- The duplicate table has 512 entries; the oldest one makes room. -/
def dupAdd (l : List (Nat × Nat × Nat)) (mac seq clock : Nat) : List (Nat × Nat × Nat) :=
  (l.drop (l.length - 511)) ++ [(mac, seq, clock)]

/-- A frame goes on to the other port. -/
def State.forward (s : State) (p : Nat) (f : EthFrame) : State :=
  let q := otherPort p
  if !s.portUp q || f.dst == s.ownMac then s
  else if f.fcsOk then s.frameOut q else (s.frameOut q).frameErr q

/-- ETH_FRAME_RX: a frame arrives at a port. -/
def execEthFrameRx (p : Fin 2) (f : EthFrame) (s : State) : Host.Outcome State Fault Refusal :=
  let p := p.val
  if !s.portUp p then .next s
  else
    let s := s.frameIn p
    if frameSize f < 64 then .next s
    else if 9216 < frameSize f then .next (s.frameErr p)
    else if !s.flag ETH_CTRL Fld.ETH_CTRL_HSR_EN then
      let s := s.forward p f
      if !f.fcsOk then .next (s.frameErr p)
      else .next (if f.dst = s.ownMac ∨ groupMac f.dst then s.frameToNw f else s)
    else if f.src = s.ownMac then
      if f.etype = 0x88FB then
        .next ((s.modEth fun e => { e with sup := 0 }).setFld ETH_HSR_STAT Fld.ETH_HSR_STAT_RING_OPEN 0)
      else .next s
    else
      let s := s.forward p f
      if !f.fcsOk then .next (s.frameErr p)
      else
        match f.hsr with
        | none => .next (s.frameToNw f)
        | some n =>
          if s.eth.dup.any fun d => d.1 == f.src.toNat && d.2.1 == n.toNat then
            .next (s.incFld ETH_HSR_STAT Fld.ETH_HSR_STAT_DUPDISC)
          else .next ((s.modEth fun e => { e with dup := dupAdd e.dup f.src.toNat n.toNat s.clock }).frameToNw f)

/-- HSR is on. -/
def State.hsrOn (s : State) : Bool := s.domOn domNW && s.flag ETH_CTRL Fld.ETH_CTRL_EN && s.flag ETH_CTRL Fld.ETH_CTRL_HSR_EN

/-- HSR_SUPERVISION_TX: every 2 s a supervision frame leaves on both ports. -/
def execHsrSupervisionTx (s : State) : Host.Outcome State Fault Refusal :=
  if !s.hsrOn then .next s
  else .next (s.modEth fun e => { e with seq := (e.seq + 1) % 65536, sup := e.sup + 1 }).frameBoth

/-- RING_OPEN: no own supervision frame came back for 3 intervals. -/
def execRingOpen (s : State) : Host.Outcome State Fault Refusal :=
  .next (if s.hsrOn ∧ 3 ≤ s.eth.sup then s.setFld ETH_HSR_STAT Fld.ETH_HSR_STAT_RING_OPEN 1 else s)

/-- HSR_ENTRY_AGE: an entry of the duplicate table is 400 ms old. -/
def execHsrEntryAge (mac : BitVec 48) (seq : BitVec 16) (s : State) : Host.Outcome State Fault Refusal :=
  .next (s.modEth fun e => { e with dup := e.dup.filter fun d =>
    !(d.1 == mac.toNat && d.2.1 == seq.toNat && d.2.2 + 400 * msTicks ≤ s.clock) })

/-! ## Gate control lists (R447) -/

/-- The operational entry `i` of a port begins; behind the last entry every class is closed. -/
def EthPort.entry (x : EthPort) (i : Nat) (start : W64) : EthPort :=
  let w := Tbl.get (0 : Word) x.gcl i
  if x.len = 0 then { x with idx := 0, gates := 255, fin := start }
  else if i < x.len then { x with idx := i, gates := bits w.toNat 31 24, fin := start + BitVec.ofNat 64 (16 * bits w.toNat 23 0) }
  else { x with idx := x.len, gates := 0, fin := start }

/-- GCL_ENTRY_EXPIRY: the interval of the entry in progress ends. -/
def execGclEntryExpiry (p : Fin 2) (s : State) : Host.Outcome State Fault Refusal :=
  let x := s.ethPort p
  .next (if s.domOn domNW ∧ x.idx < x.len ∧ x.fin ≤ s.time.line then s.setPort p (x.entry (x.idx + 1) x.fin) else s)

/-- The admin bank of a port, as its registers show it. -/
def State.adminBank (s : State) (p : Nat) : Tbl Word :=
  (List.range 256).foldl (fun t i => Tbl.put 0 t i (s.reg (ETH_P_GCL p i))) []

/-- The banks change places. -/
def State.bankSwitch (s : State) (p : Nat) : State :=
  let x := s.ethPort p
  let new := s.adminBank p
  let n := Nat.min 256 (s.fld (ETH_P_QBV_CTRL p) Fld.ETH_P_QBV_CTRL_LEN)
  let s := s.each 256 fun s i => s.setReg (ETH_P_GCL p i) (Tbl.get 0 x.gcl i)
  let b := s.fld (ETH_P_QBV_CTRL p) Fld.ETH_P_QBV_CTRL_BANK
  (s.setPort p { x with gcl := new, len := n, change := false }).setFld (ETH_P_QBV_CTRL p) Fld.ETH_P_QBV_CTRL_BANK (1 - b)

/-- GATE_CYCLE_START: the list restarts; a scheduled bank change whose time has come takes effect. -/
def execGateCycleStart (p : Fin 2) (s : State) : Host.Outcome State Fault Refusal :=
  let p := p.val
  if !s.domOn domNW || s.reg (ETH_P_CYCLE p) = 0 then .next s
  else
    let s := if (s.ethPort p).change ∧ 0 ≤ s.since (s.reg (ETH_P_CHANGE_TIME p)) then s.bankSwitch p else s
    .next (s.setPort p ((s.ethPort p).entry 0 s.time.line))

/-- A write of ETH_P_p_QBV_CTRL. -/
def State.qbvWrite (s : State) (p : Nat) (w : Word) : State :=
  let s := s.plainWrite (ETH_P_QBV_CTRL p) w
  if fget w Fld.ETH_P_QBV_CTRL_CHANGE = 1 then s.setPort p { s.ethPort p with change := true } else s

/-- QBV_CHANGE: ETH_P_p_QBV_CTRL is written with CHANGE. -/
def execQbvChange (p : Fin 2) (w : Word) (s : State) : Host.Outcome State Fault Refusal :=
  .next (s.access (ETH_P_QBV_CTRL p) fun s => s.qbvWrite p (fset w Fld.ETH_P_QBV_CTRL_CHANGE 1))

/-! ## Launch queues (R448) -/

/-- The launch queue of a port, and its level. -/
def State.setLq (s : State) (p : Nat) (l : List LaunchEnt) : State :=
  (s.setPort p { s.ethPort p with lq := l }).setFld (ETH_P_LQ p) Fld.ETH_P_LQ_LEVEL l.length

/-- A write of word `k` of ETH_P_p_LQ_PUSH; word 3 pushes. -/
def State.lqWrite (s : State) (p k : Nat) (w : Word) : State :=
  let x := s.ethPort p
  if k < 3 then s.setPort p { x with push := x.push.setIfInBounds k w }
  else
    let w1 := (vget x.push 0 1).toNat
    let e : LaunchEnt := { addr := (vget x.push 0 0).toNat, len := bits w1 13 0, cls := bits w1 18 16,
                           at_ := BitVec.ofNat 64 ((vget x.push 0 2).toNat + 2 ^ 32 * w.toNat) }
    if 64 ≤ x.lq.length ∨ x.lq.getLast?.any fun l => e.at_ < l.at_ then s.busErr
    else s.setLq p (x.lq ++ [e])

/-- LQ_PUSH: the last word of ETH_P_p_LQ_PUSH is written. -/
def execLqPush (p : Fin 2) (w : Word) (s : State) : Host.Outcome State Fault Refusal :=
  .next (s.access (ETH_P_LQ_PUSH p + 12) fun s => s.lqWrite p 3 w)

/-- The entries of the operational list that follow the one in progress, and INTERVAL of an entry in units of line time. A list that
fills the cycle goes on with its first entry. -/
def EthPort.after (x : EthPort) (cycle : Nat) : List Nat :=
  let l := (List.range x.len).drop (x.idx + 1)
  if ((List.range x.len).map fun j => bits (Tbl.get (0 : Word) x.gcl j).toNat 23 0).sum = cycle then l ++ (List.range x.len).take (x.idx + 1) else l
def EthPort.interval (x : EthPort) (j : Nat) : Nat := 16 * bits (Tbl.get (0 : Word) x.gcl j).toNat 23 0
def EthPort.opens (x : EthPort) (cls j : Nat) : Bool := (bits (Tbl.get (0 : Word) x.gcl j).toNat 31 24).testBit cls

/-- A frame of `n` bytes of a class that starts now ends before its gate closes: the gate stays open through the entries that follow
without a gap. -/
def EthPort.fits (x : EthPort) (cls n cycle : Nat) (now : W64) : Bool :=
  let next := x.after cycle
  let run := next.takeWhile (x.opens cls)
  x.gates.testBit cls &&
    (x.len = 0 || (run.length == x.len) || now.toNat + 128 * (n + 12) ≤ x.fin.toNat + (run.map x.interval).sum)

/-- LAUNCH: the head of a launch queue starts. -/
def execLaunch (p : Fin 2) (s : State) : Host.Outcome State Fault Refusal :=
  let p := p.val
  let x := s.ethPort p
  match x.lq with
  | [] => .next s
  | e :: t => .next (if s.portUp p ∧ e.at_ ≤ s.time.line ∧ x.fits e.cls e.len (s.reg (ETH_P_CYCLE p)).toNat s.time.line then (s.setLq p t).frameOut p else s)

/-- LAUNCH_LATE_DROP: the head has not started by L + LATE_NS. -/
def execLaunchLateDrop (p : Fin 2) (s : State) : Host.Outcome State Fault Refusal :=
  let p := p.val
  match (s.ethPort p).lq with
  | [] => .next s
  | e :: t =>
    let late := e.at_.toNat + 64 * s.fld (ETH_P_LQ p) Fld.ETH_P_LQ_LATE_NS
    .next (if s.domOn domNW ∧ late < s.time.line.toNat then (s.setLq p t).incFld (ETH_P_CNT_LATE p) ⟨31, 0⟩ else s)

/-- An entry of the module's own takes its place in the order of launch times. -/
def lqInsert (l : List LaunchEnt) (e : LaunchEnt) : List LaunchEnt :=
  if 64 ≤ l.length then l else (l.filter fun x => x.at_ ≤ e.at_) ++ e :: (l.filter fun x => !(x.at_ ≤ e.at_))

/-! ## Towline (R449 to R453, R456) -/

/-- The sequence number of a frame of a type that leaves. -/
def State.tlNext (s : State) (type : Nat) : State :=
  s.modEth fun e => { e with tlSeq := Tbl.put 0 e.tlSeq type ((Tbl.get 0 e.tlSeq type + 1) % 65536) }

/-- A Towline frame of a type reached the module; one that is not for it is counted. -/
def State.tlAccept (s : State) (type : Nat) (h : TlHdr) (f : State → State) : State :=
  if !s.domOn domNW || !s.flag ETH_CTRL Fld.ETH_CTRL_EN then s
  else if s.tlForMe type h.dst.toNat h.unicast then f s else s.tlBad

/-- An axis object with its FX reaches the subscriptions that name it. -/
def State.tlObject (s : State) (fx : Word) (o : TlObj) : State :=
  if o.kind ≠ 0 then s else
  s.each 64 fun s k =>
    if s.flag (ETH_TL_SUB k) Fld.ETH_TL_SUB_EN ∧ s.fld (ETH_TL_SUB k) Fld.ETH_TL_SUB_AXIS = o.axis.toNat then
      match vget s.eth.subs none k with
      | some x =>
        if 0 < (fx - x.fx).toInt then
          s.modEth fun e => { e with subs := e.subs.setIfInBounds k (some { p := o.p, v := o.v, a := o.a, fx := fx }) }
        else s
      | none =>
        (s.modEth fun e => { e with subs := e.subs.setIfInBounds k (some { p := o.p, v := o.v, a := o.a, fx := fx }) }).setFld
          (ETH_TL_SUB k) Fld.ETH_TL_SUB_HELD 1
    else s

/-- A value that port 32 received in this flight. -/
def State.nwInput (s : State) (k : Nat) : Option W64 :=
  (s.tow.inbox.find? fun e => e.1 == 2 ^ 24 * 32 + k && e.2.2 == s.tt.flightNo).map fun e => e.2.1

/-- The object that ETH_TL_PUB_i publishes, from the stream whose P lies at place `k`, VC and AC behind it (R241). -/
def State.pubObject (s : State) (i k : Nat) : Option TlObj :=
  if !s.flag (ETH_TL_PUB i) Fld.ETH_TL_PUB_EN then none
  else
    match s.nwInput k, s.nwInput (k + 1), s.nwInput (k + 2) with
    | some p, some v, some a =>
      some { axis := BitVec.ofNat 20 (s.fld SYS_ADDR ⟨13, 0⟩ * 64 + s.fld (ETH_TL_PUB i) Fld.ETH_TL_PUB_CH), p := p,
             v := BitVec.ofInt 32 (asr v.toInt 24), a := BitVec.ofInt 32 (asr a.toInt 32) }
    | _, _, _ => none

/-- The exchange instant of the flight in progress (R452). -/
def State.exchange (s : State) : Bool :=
  let n := s.fld ETH_TL_CFG Fld.ETH_TL_CFG_CYC_F
  n != 0 && s.tt.flightNo % n == s.fld ETH_TL_CFG Fld.ETH_TL_CFG_CYC_PH

/-- TL_PUBLISH: NW takes the published objects and queues the cyclic frame on both ports. -/
def execTlPublish (routes : List (Fin 8 × Nat)) (s : State) : Host.Outcome State Fault Refusal :=
  if !s.domOn domNW || !s.flag ETH_CTRL Fld.ETH_CTRL_EN || !s.exchange || s.ownAddr.isNone then .next s
  else
    let objs := (routes.take 8).filterMap fun (r : Fin 8 × Nat) => s.pubObject r.1 r.2
    let fx := BitVec.ofNat 32 s.tt.flightNo
    let at_ := BitVec.ofInt 64 (s.boundaryOf s.tt.flightNo + 64 * s.fld ETH_TL_LAUNCH Fld.ETH_TL_LAUNCH_LAUNCH)
    let e : LaunchEnt := { addr := 0, len := 40 + 20 * objs.length, cls := 6, at_ := at_ }
    let s := s.each 2 fun s p => s.setLq p (lqInsert (s.ethPort p).lq e)
    let s := (s.modEth fun x => { x with cyc := some (fx.toNat, objs) }).tlNext 1
    .next (objs.foldl (fun s o => s.tlObject fx o) s)

/-- TL_CYCLIC: a cyclic frame arrives. A module without an address takes no part (R32). -/
def execTlCyclic (h : TlHdr) (fx : Word) (objs : List TlObj) (s : State) : Host.Outcome State Fault Refusal :=
  .next (s.tlAccept 1 h fun s =>
    if 8 < objs.length then s.tlBad
    else if s.ownAddr.isNone then s
    else objs.foldl (fun s o => s.tlObject fx o) s)

/-- The messages held, and their number. -/
def State.setMsgs (s : State) (l : List TlMsg) : State :=
  (s.modEth fun e => { e with msgs := l }).setFld ETH_TL_STAT Fld.ETH_TL_STAT_MSGLEVEL l.length

/-- TL_MESSAGE: a message frame arrives. -/
def execTlMessage (h : TlHdr) (data : List Byte) (s : State) : Host.Outcome State Fault Refusal :=
  .next (s.tlAccept 7 h fun s =>
    if data.length = 0 ∨ 40 < data.length then s.tlBad
    else if 32 ≤ s.eth.msgs.length then s.incFld ETH_TL_STAT Fld.ETH_TL_STAT_MSGLOST
    else s.setMsgs (s.eth.msgs ++ [{ src := h.src.toNat % 2 ^ 14, data := data }]))

/-- A read of the status word of ETH_TL_MSG: it removes the head once its payload has been read. -/
def State.tlMsgStatus (s : State) : State :=
  match s.eth.msgs with
  | [] => s.answer (.data 0)
  | m :: t =>
    let w : Word := BitVec.ofNat 32 (2 ^ 31 + 2 ^ 16 * m.data.length + m.src)
    let s := if s.eth.seen = 0x3FF then (s.setMsgs t).modEth fun e => { e with seen := 0 } else s
    s.answer (.data w)

/-- A read of payload word `k` of ETH_TL_MSG. -/
def State.tlMsgWord (s : State) (k : Nat) : State :=
  match s.eth.msgs with
  | [] => s.answer (.data 0)
  | m :: _ =>
    (s.modEth fun e => { e with seen := e.seen ||| 2 ^ k }).answer (.data (BitVec.ofNat 32 (leNat ((m.data.drop (4 * k)).take 4))))

/-- TL_MSG_READ: the status word of ETH_TL_MSG is read. -/
def execTlMsgRead (s : State) : Host.Outcome State Fault Refusal :=
  .next (if s.domOn domNW then s.tlMsgStatus else s.answer (.data 0))

/-- The send queue of messages takes one (R456). -/
def State.tlSend (s : State) (dest : Nat) (data : List Byte) : State × Bool :=
  if 32 ≤ s.eth.sendq.length then (s, false)
  else (s.modEth fun e => { e with sendq := e.sendq ++ [(dest, data)] }, true)

/-- The oldest message of the send queue leaves, where a port is up. -/
def State.tlDrain (s : State) : State :=
  match s.eth.sendq with
  | [] => s
  | _ :: t => if s.portUp 0 || s.portUp 1 then ((s.modEth fun e => { e with sendq := t }).tlNext 7).frameBoth else s

/-! ## Register accesses -/

/-- A write of an ETH register. -/
def State.ethWrite (s : State) (a : Nat) (w : Word) : State :=
  let o := a % 0x10000
  let p := (o - 0x100) / 0x100
  if a = ETH_CTRL then
    if s.mode = .wake ∨ s.mode = .commission ∨ s.mode = .hold then s.plainWrite a w else s.busErr
  else if 0x1100 ≤ o ∧ o < 0x1120 then
    if srcExists s.part (fget w Fld.ETH_TL_PUB_CH) then s.plainWrite a w else s.busErr
  else if 0x100 ≤ o ∧ o < 0x300 then
    if o % 0x100 = 0 then
      if fget w Fld.ETH_P_CFG_MODE = 3 then s.busErr
      else
        let s := s.plainWrite a w
        if fget w Fld.ETH_P_CFG_MODE = 0 then s.setLinkUp p false else s
    else if o % 0x100 = 0x20 then s.qbvWrite p w
    else if 0x38 ≤ o % 0x100 ∧ o % 0x100 < 0x48 then s.lqWrite p ((o % 0x100 - 0x38) / 4) w
    else s.plainWrite a w
  else s.plainWrite a w

/-- A read of an ETH register. -/
def State.ethRead (s : State) (a : Nat) : State :=
  if !s.domOn domNW then s.answer (.data 0)
  else if a = ETH_TL_MSG then s.tlMsgStatus
  else if ETH_TL_MSG + 0x20 ≤ a ∧ a < ETH_TL_MSG + 0x48 then s.tlMsgWord ((a - (ETH_TL_MSG + 0x20)) / 4)
  else s.answer (.data (s.reg a))

end Sys2Proof.Machine
end

