-- ==== Sys2Proof/Machine/Basin.lean ====
section
/-! DEFINITION. The basin (R222 to R233, R252 to R256): descriptors, submission, reports, notifications, stop sources. -/

namespace Sys2Proof.Machine
open Sys2Proof.Machine.Reg

/-- Source of a queue (R335). -/
def basinSrc (q : Nat) : Nat := srcId 0x06 q

def State.qcfg (s : State) (q : Nat) (f : Fld) : Nat := s.fld (BASIN_Q_CFG q) f
def State.qNext (s : State) (q : Nat) : Nat := s.fld (BASIN_Q_SEQ q) Fld.BASIN_Q_SEQ_NEXT
def State.qDone (s : State) (q : Nat) : Nat := s.fld (BASIN_Q_SEQ q) Fld.BASIN_Q_SEQ_DONE

/-- Descriptors that a queue holds. -/
def Queue.held (q : Queue) : List Nat := q.exec.toList ++ q.queued

/-! ## Numbers of descriptors (R224, R230) -/

def State.presentQueues (s : State) : List Nat := (List.range 80).filter fun q => queuePresent s.part q

/-- ΣQRES. -/
def State.qresSum (s : State) : Nat := s.presentQueues.foldl (fun n q => n + s.qcfg q Fld.BASIN_Q_CFG_QRES) 0

def State.poolSize (s : State) : Nat := 32768 - s.qresSum

/-- Descriptors held from the pool. -/
def State.poolUsed (s : State) : Nat :=
  s.presentQueues.foldl (fun n q => n + ((s.queueAt q).held.length - (s.queueAt q).fromRes.length)) 0

def State.heldAll (s : State) : List Nat := s.presentQueues.flatMap fun q => (s.queueAt q).held

def State.queuedAll (s : State) : Nat := s.presentQueues.foldl (fun n q => n + (s.queueAt q).queued.length) 0
def State.execAll (s : State) : Nat := s.presentQueues.foldl (fun n q => n + (s.queueAt q).exec.toList.length) 0

/-- The lowest index that is not in use. -/
def freeIndex (used : List Nat) : Nat := ((List.range (used.length + 1)).find? fun i => !used.contains i).getD 0

/-- A submission to the queue finds a descriptor: from its reserve (true), or from the pool (false). -/
def State.takeFrom (s : State) (q : Nat) : Option Bool :=
  if (s.queueAt q).fromRes.length < s.qcfg q Fld.BASIN_Q_CFG_QRES then some true
  else if s.qcfg q Fld.BASIN_Q_CFG_BORROW = 1 ∧ s.poolUsed < s.poolSize then some false
  else none

/-! ## The checks of a submission (R225 to R227) -/

/-- Bytes `lo` to 59 of a descriptor are 0. -/
def dZero (d : Desc) (lo : Nat) : Bool := dfld d lo (60 - lo) == 0

/-- A type exists and its queues include this one. -/
def bargeTypeOk (t q : Nat) : Bool :=
  if 1 ≤ t ∧ t ≤ 6 then q < 64 else if t = 7 then true else 0x10 ≤ t && t ≤ 0x13 && 64 ≤ q

/-- FLAGS bits that a type uses. -/
def flagsOf (t : Nat) : Nat := if t = 1 then 5 else if t = 3 then 3 else if t = 0x12 then 9 else 1

/-- Every field is in range and unused bytes are 0. -/
def bargeFieldsOk (d : Desc) : Bool :=
  let b := fun o => dfld d o 1
  let sg := fun o => sxt 64 (dfld d o 8)
  let t := dType d
  let fl := dFlags d
  (fl ||| flagsOf t) == flagsOf t &&
  (if t = 1 then decide (1 ≤ dfld d 14 4 ∧ dfld d 14 4 ≤ 8388607) && dZero d 36
   else if t = 2 then b 14 ≤ 1 && b 15 == 0 && dfld d 24 4 ≤ 8388607 && dZero d 28
   else if t = 3 then b 14 ≤ 63 && b 15 ≤ 1 && decide (0 < sg 24) && dZero d 56
   else if t = 4 then b 14 ≤ 1 && b 15 == 0 && decide (sg 16 < sg 24) && dZero d 48
   else if t = 5 then b 14 ≤ 1 && b 15 ≤ 1 && decide (sg 16 < sg 24) && decide (0 ≤ sg 40) && dZero d 59
   else if t = 6 then b 14 ≤ 2 && b 15 ≤ 1 && dZero d 24
   else if t = 7 then dZero d 14
   else if t = 0x10 then dfld d 14 2 &&& dfld d 16 2 == 0 && dZero d 18
   else if t = 0x11 then b 14 ≤ 2 && decide (1 ≤ b 15 ∧ b 15 ≤ 40) &&
     (if b 14 = 0 then dfld d 16 2 < 2 ^ 14 else dfld d 16 2 ≤ 127) && dZero d 58
   else if t = 0x12 then dfld d 14 4 % 4 == 0 && dZero d 26
   else dfld d 14 4 % 8 == 0 && dfld d 18 4 % 8 == 0 && dfld d 22 4 % 8 == 0 &&
     decide (8 ≤ dfld d 22 4 ∧ dfld d 22 4 ≤ 65536) && dZero d 26)

/-- A range lies whole within lo to hi − 1. -/
def rangeIn (a n lo hi : Nat) : Bool := lo ≤ a && a + n ≤ hi

/-- A DMA range that may be written. -/
def dmaTarget (a n : Nat) : Bool :=
  rangeIn a n 0x09000000 0x09080000 || rangeIn a n 0x0A000000 0x0A080000 || rangeIn a n 0x14000000 0x14800000

/-- REGW targets and DMA ranges that are permitted. -/
def bargeTargetOk (d : Desc) : Bool :=
  if dType d = 0x12 then
    let a := dfld d 14 4
    let b := a / 0x10000
    a < 2 ^ 32 && !(blockDefs a).isEmpty && b != 0x4000 && b != 0x4001 && b != 0x4002 && b != 0x4004 && b != 0x400C && b != 0x400E
  else if dType d = 0x13 then
    let n := dfld d 22 4
    let a := dfld d 14 4
    (dmaTarget a n || rangeIn a n 0x30000000 0x40000000) && dmaTarget (dfld d 18 4) n
  else true

/-- The CRC of a descriptor matches. -/
def dCrcOk (d : Desc) : Bool := crc32c (leBytes 60 (d.toNat % 2 ^ 480)) == dfld d 60 4

/-- The result code of a submission. -/
def State.submitCode (s : State) (q : Nat) (d : Desc) : Nat :=
  if !queuePresent s.part q then 1
  else if !dCrcOk d then 2
  else if !bargeTypeOk (dType d) q then 3
  else if dSeq d ≠ s.qNext q then 4
  else if !bargeFieldsOk d then 5
  else if !bargeTargetOk d then 6
  else if (s.queueAt q).stopped then 7
  else if (s.takeFrom q).isNone then 8
  else 0

/-- An accepted descriptor is linked at the tail of its queue. -/
def State.linkBarge (s : State) (q : Nat) (d : Desc) : State :=
  let i := freeIndex s.heldAll
  let x := s.queueAt q
  let res := if s.takeFrom q = some true then x.fromRes ++ [i] else x.fromRes
  let s := s.modBasin fun b => { b with desc := Tbl.put 0 b.desc i d, accAt := Tbl.put 0 b.accAt i s.clock }
  let at_ := if x.queued.isEmpty ∧ x.exec.isNone then s.time.line.toNat else x.headAt
  let s := s.setQueue q { x with queued := x.queued ++ [i], fromRes := res, headAt := at_ }
  s.setFld (BASIN_Q_SEQ q) Fld.BASIN_Q_SEQ_NEXT (dSeq d + 1)

/-- The check and the linking, with its code; a supervisor's submissions are counted (R409). -/
def State.submit (s : State) (i : Initiator) (q : Nat) (d : Desc) : State × Nat :=
  let c := s.submitCode q d
  let s := if c = 0 then s.linkBarge q d else s
  let s := if initNo i < 2 then s.count (cntSv (initNo i)) (if c = 0 then 36 else 37) else s
  (s, c)

/-! ## Staging and BASIN_SUBMIT (R227, R228) -/

/-- Initiators that have a staging. -/
def hasStage (i : Initiator) : Bool := i != .sc

def State.stageWord (s : State) (i : Initiator) (w : Nat) : Word := Tbl.get 0 s.basin.stage (16 * initNo i + w)

/-- The descriptor an initiator has staged. -/
def State.staged (s : State) (i : Initiator) : Desc :=
  BitVec.ofNat 512 ((List.range 16).foldl (fun (n : Nat) w => n + (s.stageWord i w).toNat * 2 ^ (32 * w)) 0)

def State.setSubstat (s : State) (i : Initiator) (f : Fld) (v : Nat) : State :=
  s.modBasin fun b => { b with substat := Tbl.put 0 b.substat (initNo i) (fset (Tbl.get 0 b.substat (initNo i)) f v) }

/-- A write of BASIN_SUBMIT. -/
def State.submitWrite (s : State) (i : Initiator) (w : Word) : State :=
  if fget w Fld.BASIN_SUBMIT_GO = 0 then s
  else if !hasStage i then s.busErr
  else if s.basin.checks.any fun c => c.1 == initNo i then s.setSubstat i Fld.BASIN_SUBSTAT_CODE 9
  else
    let s := s.modBasin fun b => { b with checks := b.checks ++ [(initNo i, fget w Fld.BASIN_SUBMIT_QUEUE, s.staged i)] }
    s.setSubstat i Fld.BASIN_SUBSTAT_CODE 0xFF

/-- BASIN_SUBMIT: BASIN_SUBMIT is written with GO. -/
def execBasinSubmit (i : Initiator) (q : Fin 128) (s : State) : Host.Outcome State Fault Refusal :=
  .next (s.access BASIN_SUBMIT fun s => s.submitWrite i (BitVec.ofNat 32 (2 ^ 31 + q)))

/-- SUBMIT_CHECK_DONE: the check of an initiator's submission ends. -/
def execSubmitCheckDone (i : Initiator) (s : State) : Host.Outcome State Fault Refusal :=
  match s.basin.checks.find? fun c => c.1 == initNo i with
  | none => .next s
  | some c =>
    let s := s.modBasin fun b => { b with checks := b.checks.filter fun x => x.1 != initNo i }
    let r := s.submit i c.2.1 c.2.2
    let s := r.1.setSubstat i Fld.BASIN_SUBSTAT_CODE r.2
    .next (if r.2 = 0 then s.setSubstat i Fld.BASIN_SUBSTAT_SEQ (dSeq c.2.2) else s)

/-- The staging of a supervisor pair is cleared (R228). -/
def State.clearStage (s : State) (p : Nat) : State :=
  s.modBasin fun b => { b with stage := Tbl.keep b.stage fun k => k / 16 != p }

/-! ## Retirement and notifications (R229) -/

/-- A notification is posted; beyond 256 it is dropped and counted. -/
def State.notify (s : State) (n : Note) : State :=
  if s.basin.notes.length < 256 then s.modBasin fun b => { b with notes := b.notes ++ [n] }
  else (s.setFld BASIN_NOTESTAT Fld.BASIN_NOTESTAT_OVF 1).incFld BASIN_NOTESTAT Fld.BASIN_NOTESTAT_LOST

/-- A descriptor becomes free with a result. -/
def State.freeDesc (s : State) (q i result : Nat) : State :=
  let x := s.queueAt q
  let d := s.desc i
  let at_ := if x.exec = some i then s.time.line.toNat else x.headAt
  let s := s.setQueue q { x with queued := x.queued.filter (· != i), exec := x.exec.filter (· != i),
                                 fromRes := x.fromRes.filter (· != i), headAt := at_ }
  if (dFlags d).testBit 0 then s.notify { queue := q, seq := dSeq d, tag := dTag d, result := result } else s

/-- A barge retires: DONE := SEQ. -/
def State.retire (s : State) (q i result : Nat) : State :=
  (s.freeDesc q i result).setFld (BASIN_Q_SEQ q) Fld.BASIN_Q_SEQ_DONE (dSeq (s.desc i))

/-- The queued barges of a queue become free with FLUSHED. -/
def State.flush (s : State) (q : Nat) : State := (s.queueAt q).queued.foldl (fun s i => s.freeDesc q i 3) s

/-- SEQ `a` is after SEQ `b` (R230). -/
def seqAfter (a b : Nat) : Bool := decide (1 ≤ (a + 65536 - b) % 65536 ∧ (a + 65536 - b) % 65536 ≤ 32767)

/-- A barge becomes the executing one. -/
def State.beginBarge (s : State) (q i : Nat) : State :=
  let x := s.queueAt q
  let s := s.setQueue q { x with queued := x.queued.filter (· != i), exec := some i }
  s.measure 3 (s.clock - Tbl.get 0 s.basin.accAt i) fun sel => sel % 128 == q

/-! ## Reports (R232, R233) -/

/-- The basin applies a report. -/
def State.report233 (s : State) (q : Nat) (r : W64) : State :=
  let v := r.toNat
  let dn := bits v 31 16
  let done0 := s.qDone q
  let gone := (s.queueAt q).held.filter fun i =>
    let a := dSeq (s.desc i)
    seqAfter a done0 && (a == dn || seqAfter dn a)
  let s := gone.foldl (fun s i => s.retire q i (if dSeq (s.desc i) = dn then bits v 35 32 else 8)) s
  let x := s.queueAt q
  let s := match x.exec, x.queued with
    | none, i :: _ => if v.testBit 40 ∧ dSeq (s.desc i) = bits v 15 0 then s.beginBarge q i else s
    | _, _ => s
  let a := BASIN_Q_STAT q
  let s := s.setFld a Fld.BASIN_Q_STAT_LAW (bits v 39 36)
  let s := if v.testBit 41 then s.setFld a Fld.BASIN_Q_STAT_UNDR 1 else s
  let s := if v.testBit 42 then s.setFld a Fld.BASIN_Q_STAT_MLOST 1 else s
  let s := if v.testBit 45 then s.setFld a Fld.BASIN_Q_STAT_STALE 1 else s
  let x := s.queueAt q
  let ker := v.testBit 41 || v.testBit 42 || v.testBit 43 || v.testBit 44
  let held := x.stopped && s.qcfg q Fld.BASIN_Q_CFG_FOLLOW == 1 && bits v 39 36 == 7 && !v.testBit 40
  let x := if ker then (x.note (4, 0)).raise q (4, 0) else x
  s.setQueue q { x with flushDue := x.flushDue || held }

/-- BASIN_REPORT: a report of K_INTERP reaches the basin. -/
def execBasinReport (q : Fin 64) (r : W64) (s : State) : Host.Outcome State Fault Refusal :=
  .next (if s.domOn domTP ∧ queuePresent s.part q then s.report233 q r else s)

/-- BASIN_NOTE_HI of a notification. -/
def Note.high (n : Note) : Word := BitVec.ofNat 32 (2 ^ 31 + 2 ^ 16 * n.queue + n.result)

/-- NOTE_POP: a read of BASIN_NOTE_HI removes the oldest notification. -/
def State.notePop (s : State) : State :=
  match s.basin.notes with
  | [] => s.answer (.data 0)
  | n :: t => (s.modBasin fun b => { b with notes := t }).answer (.data n.high)

/-- NOTE_POP. -/
def execNotePop (s : State) : Host.Outcome State Fault Refusal :=
  .next (if s.domOn domTP then s.notePop else s.answer (.data 0))

/-! ## Stop sources (R252, R253, R255, R256) -/

/-- The queues of the group of `q`, or the queue alone. -/
def State.groupOf (s : State) (q : Nat) : List Nat :=
  let g := s.qcfg q Fld.BASIN_Q_CFG_GROUP
  if g = 0 then [q] else s.presentQueues.filter fun k => s.qcfg k Fld.BASIN_Q_CFG_GROUP == g

/-- Sources raised since the last boundary that still hold reach the group. Safe Stop stops every queue by itself. -/
def State.spreadStops (s : State) (q : Nat) : State :=
  let x := s.queueAt q
  let new := x.srcs.filter fun c => x.rose.contains c && c != (3, 1)
  ((s.groupOf q).filter (· != q)).foldl (fun s k => s.setQueue k (new.foldl (fun y c => y.raise q c) (s.queueAt k))) s

/-- What a flight boundary does to a queue: a source that holds, or was raised since the last boundary, sets STOPPED. -/
def State.queueBoundary (s : State) (q : Nat) : State :=
  let x := s.queueAt q
  let hit : Bool := !x.rose.isEmpty
  let x := { x with stopGrp := x.stopGrp.filter fun o => (s.queueAt o).stopSs, rose := [] }
  let s := s.setQueue q x
  let s := if (hit ∨ x.stopSrc ≠ 0) ∧ ¬ x.stopped then
      let s := s.setQueue q { x with stopped := true }
      if s.qcfg q Fld.BASIN_Q_CFG_FOLLOW = 1 then s else s.flush q
    else s
  if (s.queueAt q).flushDue then
    let s := s.flush q
    s.setQueue q { s.queueAt q with flushDue := false }
  else s

/-- The flight boundary in the basin: resumed queues first, then new sources, then stops and flushes. -/
def State.basinBoundary (s : State) : State :=
  let l := s.presentQueues
  let s := l.foldl (fun s q =>
    let x := s.queueAt q
    if x.resume then s.setQueue q { x with resume := false, stopKer := false, stopped := false } else s) s
  let s := l.foldl State.spreadStops s
  l.foldl State.queueBoundary s

/-- RESUME of a queue is accepted. -/
def State.resumeOk (s : State) (q : Nat) : Bool :=
  (s.groupOf q).all fun k =>
    s.fld (BASIN_Q_STAT k) Fld.BASIN_Q_STAT_LAW == 7 && bits (s.queueAt k).stopSrc 3 0 == 0

/-- A write of BASIN_Q_q_CTRL. -/
def State.qctrlWrite (s : State) (q : Nat) (w : Word) : State :=
  if w.toNat.testBit 2 ∧ ¬ s.resumeOk q then s.refuse (basinSrc q)
  else
    let s := if w.toNat.testBit 1 then s.setQueue q { s.queueAt q with stopFw := false } else s
    let s := if w.toNat.testBit 0 then s.setQueue q (((s.queueAt q).note (0, 0)).raise q (0, 0)) else s
    if w.toNat.testBit 2 then
      (s.groupOf q).foldl (fun s k => s.setQueue k { s.queueAt k with resume := true }) s
    else s

/-- QUEUE_STOP: BASIN_Q_q_CTRL is written with STOP. -/
def execQueueStop (q : Fin 80) (s : State) : Host.Outcome State Fault Refusal :=
  .next (s.access (BASIN_Q_CTRL q) fun s => s.qctrlWrite q 1)

/-- STOP_CLR: BASIN_Q_q_CTRL is written with STOP_CLR. -/
def execStopClr (q : Fin 80) (s : State) : Host.Outcome State Fault Refusal :=
  .next (s.access (BASIN_Q_CTRL q) fun s => s.qctrlWrite q 2)

/-- QUEUE_RESUME: BASIN_Q_q_CTRL is written with RESUME. -/
def execQueueResume (q : Fin 80) (s : State) : Host.Outcome State Fault Refusal :=
  .next (s.access (BASIN_Q_CTRL q) fun s => s.qctrlWrite q 4)

/-! ## Register accesses -/

/-- A write of BASIN_Q_q_CFG (R224). It is refused where ΣQRES would leave the pool smaller than what queues hold of it (R230;
DESIGN CHOICE: log entry 260). -/
def State.qcfgWrite (s : State) (q : Nat) (w : Word) : State :=
  let ok := (s.mode == .wake || s.mode == .commission || s.mode == .hold) && (s.queueAt q).held.isEmpty
  if !ok then s.busErr
  else if 32768 < s.qresSum - s.qcfg q Fld.BASIN_Q_CFG_QRES + fget w Fld.BASIN_Q_CFG_QRES + s.poolUsed then s.refuse (basinSrc q)
  else s.plainWrite (BASIN_Q_CFG q) w

/-- A write of a BASIN register. -/
def State.basinWrite (s : State) (i : Initiator) (a : Nat) (w : Word) : State :=
  let o := a % 0x10000
  if a = BASIN_SUBMIT then s.submitWrite i w
  else if 0x40 ≤ o ∧ o < 0x80 then
    if hasStage i then s.modBasin fun b => { b with stage := Tbl.put 0 b.stage (16 * initNo i + (o - 0x40) / 4) w } else s.busErr
  else if 0x1000 ≤ o ∧ o < 0x1500 then
    let q := (o - 0x1000) / 16
    if o % 16 = 0 then s.qcfgWrite q w
    else if o % 16 = 12 then s.qctrlWrite q w
    else s.plainWrite a w
  else s.plainWrite a w

/-- BASIN_Q_q_STAT as it reads. -/
def State.qstat (s : State) (q : Nat) : Word :=
  let x := s.queueAt q
  let w := fset (s.reg (BASIN_Q_STAT q)) Fld.BASIN_Q_STAT_STOPPED (b2n x.stopped)
  let w := fset w Fld.BASIN_Q_STAT_STOP_SRC x.stopSrc
  fset (fset w Fld.BASIN_Q_STAT_EXEC (b2n x.exec.isSome)) Fld.BASIN_Q_STAT_QUEUED x.queued.length

/-- The value of a BASIN register for an initiator; only BASIN_NOTE_HI changes by a read. -/
def State.basinValue (s : State) (i : Initiator) (a : Nat) : Word :=
  let o := a % 0x10000
  if a = BASIN_FREE then BitVec.ofNat 32 (32768 - s.heldAll.length)
  else if a = BASIN_COUNT then BitVec.ofNat 32 (2 ^ 16 * s.execAll + s.queuedAll)
  else if a = BASIN_POOL then BitVec.ofNat 32 (2 ^ 16 * (s.poolSize - s.poolUsed) + s.poolSize)
  else if a = BASIN_SUBSTAT then Tbl.get 0 s.basin.substat (initNo i)
  else if a = BASIN_NOTE_LO then
    match s.basin.notes with
    | [] => 0
    | n :: _ => BitVec.ofNat 32 (2 ^ 16 * n.tag + n.seq)
  else if a = BASIN_NOTE_HI then (s.basin.notes.head?.map Note.high).getD 0
  else if a = BASIN_NOTESTAT then fset (s.reg a) Fld.BASIN_NOTESTAT_COUNT s.basin.notes.length
  else if 0x40 ≤ o ∧ o < 0x80 then s.stageWord i ((o - 0x40) / 4)
  else if 0x1000 ≤ o ∧ o < 0x1500 ∧ o % 16 = 4 then s.qstat ((o - 0x1000) / 16)
  else s.reg a

/-- A read of a BASIN register. -/
def State.basinRead (s : State) (i : Initiator) (a : Nat) : State :=
  if !s.domOn domTP then s.answer (.data 0)
  else if a = BASIN_NOTE_HI ∧ i ≠ .jtag then s.notePop
  else s.answer (.data (s.basinValue i a))

end Sys2Proof.Machine
end

