-- ==== Sys2Proof/Machine/InService.lean ====
section
/-! DEFINITION. The in-service test (R353, R354, R589), and the start and the end of a
lock, within which RT_IST runs (R42, R45, R123, R130). -/

namespace Sys2Proof.Machine
open Sys2Proof.Machine.Reg

/-! ## Test rounds (R353, R354) -/

/-- The tests of a round beside the engines' own, by unit code; 0 stands for the collector, which has none. -/
def istTests : List Nat := [0x04, 0x07, 0x06, 0x05, 0x02, 0x08, 0x0B, 0x00]

/-- The unit code of a loop engine. -/
def istEngine : Nat := 0x01

/-- An engine that can run idle locks. -/
def State.istLive (s : State) (e : Nat) : Bool := s.domOn (domLe e) && !s.lost e

/-- The test that RT_IST runs on LE_e: the one it left unfinished, its own, else one that is not done and that no other live engine is
at. -/
def State.istWork (s : State) (e : Nat) : Option Nat :=
  match s.fc.istAt.find? (·.1 == e) with
  | some p => some p.2
  | none =>
    if !s.fc.istSelf.contains e then some istEngine
    else istTests.find? fun k => !s.fc.istDone.contains k && !s.fc.istAt.any fun p => p.2 == k && s.istLive p.1

/-- Planned locks whose region in the mirror disagrees with its complement or, where no write waits to be forwarded, with its replica. -/
def State.mirrorFaults (s : State) (g : Image) : List Nat :=
  (((g.sec 0).locks.filter fun (l : LockEntry) => l.kind == 0).filter fun (l : LockEntry) =>
    ((List.range l.stateWords).any fun k => Tbl.get (0 : D24) s.mirror.diff (l.mirrorFirst + k) != 0) ||
    (match g.replicaOf l.id with
     | some (_, a) =>
       !s.tt.stale.contains l.id && !s.mirror.fwd.contains l.id &&
         !(s.activeSec.locks.any fun (k : LockEntry) => k.id == l.id && k.engine == g.spare) &&
         (List.range l.stateWords).any fun k => s.leWord g.spare ((a.stateBase + k) % 16384) != Tbl.get (0 : D24) s.mirror.words (l.mirrorFirst + k)
     | none => false)).map LockEntry.id

/-- Queues that hold a descriptor whose CRC does not match. -/
def State.crcFaults (s : State) : List Nat :=
  (List.range 80).filter fun q => ((s.queueAt q).exec.toList ++ (s.queueAt q).queued).any fun k => !dCrcOk (s.desc k)

/-- A delay line of an encoder port. -/
def encLine : DelayLine → Bool
  | .enc _ => true
  | _ => false

/-- A test is complete: what it finds in the state is reported under unit 0x13 with the class and the reaction of the unit's row of
R341. What engines, planes, pairs, dies and comparators show in theirs comes as a FAULT_REPORT. -/
def State.istTest (s : State) (k : Nat) : State :=
  let src := srcId 0x13 k
  if k = 0x05 then
    if s.tt.torn.any s.tt.torn2.contains then s.logFatal src
    else if s.tt.torn ≠ [] ∨ s.tt.torn2 ≠ [] then s.logCorrected src else s
  else if k = 0x06 then
    let l := s.crcFaults
    if l = [] then s else s.logContained src .axstop l
  else if k = 0x07 then
    match s.tt.image with
    | none => s
    | some g =>
      let l := s.mirrorFaults g
      if l = [] then s
      else (s.modTt fun t => { t with stale := l.foldl addOnce t.stale }).logContained src
  else if k = 0x0B then
    let s := if s.psync.coarse.any fun l => !encLine l then s.logContained src else s
    if s.psync.coarse.any encLine then s.logContained (srcId 0x13 0x0A) else s
  else s

/-- A round has run for more than 2 s. -/
def State.roundLong (s : State) : Bool := s.fc.roundAt.any fun t => t + 2000 * msTicks < s.clock

/-- The round is overdue: corrected, and contained for the third in a row. -/
def State.roundOverdue (s : State) : State :=
  let k := s.fc.overdue + 1
  let s := (s.modFc fun f => { f with roundOver := true, overdue := if k = 3 then 0 else k }).setFld FC_IST Fld.FC_IST_OVERDUE 1
  let s := s.logCorrected (srcId 0x13 0)
  if k = 3 then s.logContained (srcId 0x13 0) else s

/-- IST_ROUND_OVERDUE. -/
def execIstRoundOverdue (s : State) : Host.Outcome State Fault Refusal :=
  .next (if s.flag TT_CTRL Fld.TT_CTRL_TEST_EN ∧ s.fc.roundOver = false ∧ s.roundLong then s.roundOverdue else s)

/-- The round ends where every test of it is done. -/
def State.istRoundEnd (s : State) : State :=
  if !(istTests.all s.fc.istDone.contains && (List.range 12).all fun e => !s.istLive e || s.fc.istSelf.contains e) then s
  else
    let s := if s.roundLong && !s.fc.roundOver then s.roundOverdue else s
    let ms := (s.clock - s.fc.roundAt.getD s.clock) / msTicks
    let s := (s.setFld FC_IST Fld.FC_IST_LAST_MS (Nat.min ms 4095)).setFld FC_IST Fld.FC_IST_ROUNDS (s.fld FC_IST Fld.FC_IST_ROUNDS + 1)
    s.modFc fun f => { f with overdue := if f.roundOver then f.overdue else 0, roundOver := false, roundAt := none,
                              istSelf := [], istDone := [], istAt := [] }

/-- A work unit begins on LE_e; the first one of a round begins the round. -/
def State.istStart (s : State) (e : Nat) : State :=
  match s.istWork e with
  | none => s
  | some k => s.modFc fun f => { f with roundAt := some (f.roundAt.getD s.clock), istAt := (e, k) :: f.istAt.filter (·.1 != e) }

/-- A work unit ends on LE_e. How many units a test has is left open: whether this was the last one is free. -/
def State.istUnit (s : State) (e : Nat) : State :=
  match s.fc.istAt.find? (·.1 == e) with
  | none => s
  | some (_, k) =>
    let last := s.fresh % 2 = 1
    let s := s.useFree
    if !last then s
    else
      let s := s.modFc fun f => { f with istAt := f.istAt.filter (·.1 != e),
                                         istSelf := if k = istEngine then addOnce f.istSelf e else f.istSelf,
                                         istDone := if k = istEngine then f.istDone else addOnce f.istDone k }
      (s.istTest k).istRoundEnd

/-- Tokens that RT_IST wants before a unit: 48 cycles, 16 for stalls, 1 for END (R589). -/
def istTokens : Nat := 65

/-- Tokens left and units begun when RT_IST stops beginning units: units of 1 to 48 cycles, as many as fit; how many is free. -/
def istSpend (tokens a b : Nat) : Nat × Nat :=
  let left := 17 + a % 48
  let c := tokens - left
  (left, (c + 47) / 48 + b % (c + 1 - (c + 47) / 48))

/-- RT_IST begins in an idle lock: work units begin while at least 65 tokens remain. The last of them ends with END. -/
def State.istRun (s : State) (e : Nat) : State :=
  match (s.leAt e).run with
  | none => s
  | some r =>
    if r.lock.kind = 0 ∨ r.rom ≠ some 0x8020 ∨ r.tokens < istTokens ∨ r.unit ∨ s.istWork e = none then s
    else
      let p := istSpend r.tokens s.fresh s.useFree.fresh
      let s := s.useFree.useFree
      let s := s.each (p.2 - 1) fun s _ => (s.istStart e).istUnit e
      (s.istStart e).setLe e { s.leAt e with run := some { r with tokens := p.1, cyc := r.cyc + (r.tokens - p.1), unit := true } }

/-! ## Lock start and END -/

/-- LOCK_START: lock `l` of the running section starts on LE_e. -/
def execLockStart (e : Fin 12) (l : Nat) (s : State) : Host.Outcome State Fault Refusal :=
  match s.activeSec.locks[l]?, s.tt.image with
  | some k, some g =>
    if !s.lockMayStart e k g.voyage then .next s
    else
      let u := s.entryUse false l
      if !u.2 then .next u.1
      else
        let s := u.1.cutOff e 0x80
        let ph := s.tt.flightNo % g.voyage
        let act := s.fld TT_STATUS Fld.TT_STATUS_ACTIVE
        let bank := startBank k (BitVec.ofNat 32 s.tt.flightNo) (BitVec.ofNat 32 (ph + 256 * b2n s.bankB + 4096 * act))
        let r : LeRun := { lock := k, sec := act, tokens := k.budget, rom := if romEntries.contains k.entry then some k.entry else none }
        let s := s.setLe e { s.leAt e with bank := bank, frozen := false, run := some r, pend := [], ds := none, rep := none }
        .next (((s.arrive e).count (cntLe e) (if k.kind = 0 then 2 else 3)).istRun e)
  | _, _ => .next s

/-- A ROM kernel reaches its END: one that runs as ENTRY, or RT_IST. -/
def State.romEnd (s : State) (e k : Nat) : State :=
  let s := s.istRun e
  match (s.leAt e).run with
  | none => s
  | some r =>
    if r.called ∧ k ≠ 0x8020 then s
    else if r.tokens = 0 then s.cutOff e 0x80
    else if r.lock.kind = 0 ∧ r.commits < r.lock.ncommit then s.cutOff e 0x06
    else
      let s := (s.endRun e (s.leAt e) r).count (cntLe e) 1
      if r.unit then s.istUnit e else s

/-- END (R123). -/
def execEndLock (e : Fin 12) (s : State) : Host.Outcome State Fault Refusal :=
  match s.romActive e with
  | some (k, _) => .next (s.romEnd e k)
  | none => .next (s.leEnd e)

end Sys2Proof.Machine
end

