-- ==== Sys2Proof/Machine/CanFd.lean ====
section
/-! DEFINITION. The CAN FD controllers (R457 to R467). -/

namespace Sys2Proof.Machine
open Sys2Proof.Machine.Reg

def canFault (c : Nat) : Nat := srcId 0x0E c

def State.canAt (s : State) (c : Nat) : Can := vget s.can {} c
def State.setCan (s : State) (c : Nat) (x : Can) : State := { s with can := s.can.setIfInBounds c x }

/-- An interrupt flag of CAN_IF. -/
def State.canFlag (s : State) (c k : Nat) : State := s.setFld (CAN_IF c) ⟨k, k⟩ 1

def State.canEn (s : State) (c : Nat) : Bool := s.domOn domCN && s.flag (CAN_CTRL c) Fld.CAN_CTRL_EN
def State.canSynced (s : State) (c : Nat) : Bool := s.canEn c && s.flag (CAN_STAT c) Fld.CAN_STAT_SYNCED
def State.canMode (s : State) (c : Nat) : Nat := s.fld (CAN_CTRL c) Fld.CAN_CTRL_MODE
def State.canSt (s : State) (c : Nat) : Nat := s.fld (CAN_STAT c) Fld.CAN_STAT_STATE

/-! ## Message objects (R460) -/

/-- Word `k` of an object. -/
def objWord (c m k : Nat) : Nat := CAN_OBJ c m + 4 * k

/-- Bits of the control word. -/
def objOwn : Fld := ⟨31, 31⟩
def objDir : Fld := ⟨30, 30⟩
def objFdf : Fld := ⟨29, 29⟩
def objBrs : Fld := ⟨28, 28⟩
def objEsi : Fld := ⟨27, 27⟩
def objOneshot : Fld := ⟨26, 26⟩
def objNew : Fld := ⟨24, 24⟩
def objOvr : Fld := ⟨23, 23⟩
def objTxerr : Fld := ⟨22, 22⟩
def objDlc : Fld := ⟨3, 0⟩

def State.obj (s : State) (c m : Nat) (f : Fld) : Nat := s.fld (objWord c m 2) f
def State.setObj (s : State) (c m : Nat) (f : Fld) (v : Nat) : State := s.setFld (objWord c m 2) f v

/-- Bytes that a DLC names. -/
def dlcLen (d : Nat) : Nat :=
  if d ≤ 8 then d else if d = 9 then 12 else if d = 10 then 16 else if d = 11 then 20 else if d = 12 then 24 else if d = 13 then 32
  else if d = 14 then 48 else 64

/-- The smallest DLC that holds `n` bytes. -/
def dlcFor (n : Nat) : Nat := ((List.range 16).find? fun d => n ≤ dlcLen d).getD 15

/-- Data bytes of an object. -/
def State.objData (s : State) (c m : Nat) : List Byte :=
  ((List.range 16).flatMap fun k => leBytes 4 (s.reg (objWord c m (3 + k))).toNat).take (dlcLen (s.obj c m objDlc))

/-- The data words of an object take bytes, padded with 0 to whole words. -/
def State.setObjData (s : State) (c m : Nat) (l : List Byte) : State :=
  s.each ((l.length + 3) / 4) fun s k => s.setReg (objWord c m (3 + k)) (BitVec.ofNat 32 (leNat ((l.drop (4 * k)).take 4)))

/-- Release of an object to firmware. -/
def State.objRelease (s : State) (c m : Nat) : State :=
  let x := s.canAt c
  let s := s.setCan c { x with rel := x.rel.filter (· != m), onBus := x.onBus.filter (· != m) }
  let s := s.setObj c m objOwn 0
  s.setFld (CAN_STAT c) Fld.CAN_STAT_RELEASING (b2n (!(s.canAt c).rel.isEmpty))

/-! ## Transmission (R461) -/

/-- Arbitration order: base identifier, RTR or SRR, IDE, identifier extension, RTR. -/
def arbKey (w0 : Nat) (fd : Bool) : Nat :=
  let rtr := if fd then 0 else b2n (w0.testBit 30)
  if w0.testBit 29 then ((bits w0 28 18 * 2 + 1) * 2 + 1) * 2 ^ 19 + bits w0 17 0 * 2 + rtr
  else ((bits w0 10 0 * 2 + rtr) * 2) * 2 ^ 19

/-- The requesting object that goes first. -/
def State.canWinner (s : State) (c : Nat) : Option Nat :=
  let key := fun m => arbKey (s.reg (objWord c m 0)).toNat (s.obj c m objFdf = 1)
  ((List.range 128).filter fun m => s.obj c m objOwn == 1 && s.obj c m objDir == 1).foldl (fun (b : Option Nat) m =>
    match b with
    | none => some m
    | some k => if key m < key k then some m else some k) none

/-- A controller that may send selects the next frame. -/
def State.canKick (s : State) (c : Nat) : State :=
  let x := s.canAt c
  if x.onBus.isSome || !s.canSynced c || s.canSt c == 2 || s.canMode c == 1 then s
  else s.setCan c { x with onBus := s.canWinner c }

/-! ## Error counters (R464) -/

/-- STATE, EW and the counters follow TEC and REC. -/
def State.canErrors (s : State) (c tec rec_ : Nat) : State :=
  let a := CAN_STAT c
  let st := s.canSt c
  let s := s.setCan c { s.canAt c with tec := tec }
  let s := (s.setFld a Fld.CAN_STAT_TEC (Nat.min tec 255)).setFld a Fld.CAN_STAT_REC (Nat.min rec_ 255)
  let l := s.fld (CAN_CTRL c) Fld.CAN_CTRL_EWL
  let ew := l ≤ tec || l ≤ rec_
  let s := if ew ∧ ¬ s.flag a Fld.CAN_STAT_EW then s.canFlag c 3 else s
  let s := s.setFld a Fld.CAN_STAT_EW (b2n ew)
  if st = 3 ∨ st = 2 then s
  else if 255 < tec then
    let s := (s.setFld a Fld.CAN_STAT_STATE 2).canFlag c 5
    let s := (s.incFld (CAN_ERRCNT c) Fld.CAN_ERRCNT_BUSOFF).setCan c { s.canAt c with onBus := none }
    let s := s.setFld a Fld.CAN_STAT_RECOVERING (s.fld (CAN_CTRL c) Fld.CAN_CTRL_AUTO_REC)
    s.logCorrected (canFault c)
  else if 127 < tec ∨ 127 < rec_ then
    let s := if st = 1 then s else s.canFlag c 4
    s.setFld a Fld.CAN_STAT_STATE 1
  else s.setFld a Fld.CAN_STAT_STATE 0

def State.canRec (s : State) (c : Nat) : Nat := s.fld (CAN_STAT c) Fld.CAN_STAT_REC

/-! ## Reception (R462) -/

/-- A receive object matches a frame. -/
def State.objMatches (s : State) (c m : Nat) (f : CanFrame) : Bool :=
  let w0 := (s.reg (objWord c m 0)).toNat
  s.obj c m objDir == 0 && (f.id.toNat ^^^ bits w0 28 0) &&& bits (s.reg (objWord c m 1)).toNat 28 0 == 0 &&
    w0.testBit 29 == f.ide && (!f.rtr || w0.testBit 30)

/-- The objects take a frame with its SOF stamp. -/
def State.canReceive (s : State) (c : Nat) (f : CanFrame) (sof : W64) : State :=
  let l := (List.range 128).filter fun m => s.objMatches c m f
  match l.find? fun m => s.obj c m objOwn == 1, l with
  | some m, _ =>
    let s := s.setObjData c m f.data
    let s := ((s.setObj c m objDlc f.dlc).setObj c m objFdf (b2n f.fdf)).setObj c m objBrs (b2n f.brs)
    let s := ((s.setObj c m objEsi (b2n f.esi)).setObj c m objNew 1).setReg (objWord c m 19) (BitVec.ofNat 32 (sof.toNat / 64))
    (s.objRelease c m).canFlag c 1
  | none, m :: _ => ((s.setObj c m objOvr 1).incFld (CAN_CNT c) Fld.CAN_CNT_RXLOST).canFlag c 2
  | none, [] => s.incFld (CAN_CNT c) Fld.CAN_CNT_NOMATCH

/-- REC after a frame received without error: down by 1, and from above 127 to a value between 119 and 127. -/
def State.canRecDown (s : State) (c : Nat) : State :=
  let r := s.canRec c
  if 127 < r then s.useFree.canErrors c (s.canAt c).tec (119 + s.fresh % 9) else s.canErrors c (s.canAt c).tec (r - 1)

/-- A frame is the reference message that a follower takes (R467). -/
def State.isTimeRef (s : State) (c : Nat) (f : CanFrame) : Bool :=
  s.fld (CAN_TM_CFG c) Fld.CAN_TM_CFG_MODE == 2 && f.id.toNat == s.fld (CAN_TM_ID c) Fld.CAN_TM_ID_ID &&
    b2n f.ide == s.fld (CAN_TM_ID c) Fld.CAN_TM_ID_IDE

/-- CAN_FRAME_RX: a frame is received without error. -/
def execCanFrameRx (c : Fin 2) (f : CanFrame) (sof : W64) (s : State) : Host.Outcome State Fault Refusal :=
  let c := c.val
  if !s.canSynced c || s.canSt c == 2 || s.canMode c == 2 then .next s
  else
    let s := s.canRecDown c
    .next (if s.isTimeRef c f then s else s.canReceive c f sof)

/-- CAN_TX_DONE: the frame on the bus is acknowledged without error. In loopback the objects receive it too. -/
def execCanTxDone (c : Fin 2) (sof : W64) (s : State) : Host.Outcome State Fault Refusal :=
  let c := c.val
  match (s.canAt c).onBus with
  | none => .next s
  | some m =>
    if !s.canSynced c || s.canSt c == 2 then .next s
    else
      let w0 := (s.reg (objWord c m 0)).toNat
      let f : CanFrame := { id := BitVec.ofNat 29 w0, ide := w0.testBit 29, rtr := w0.testBit 30, fdf := s.obj c m objFdf = 1,
                            brs := s.obj c m objBrs = 1, esi := s.canSt c = 1,
                            dlc := ⟨s.obj c m objDlc % 16, Nat.mod_lt _ (by decide)⟩, data := s.objData c m }
      let s := s.setReg (objWord c m 19) (BitVec.ofNat 32 (sof.toNat / 64))
      let s := (s.objRelease c m).canFlag c 0
      let s := s.canErrors c ((s.canAt c).tec - 1) (s.canRec c)
      let s := if s.canMode c = 2 then s.canReceive c f sof else s
      .next (s.canKick c)

/-- CAN_TX_ERROR: the frame on the bus loses arbitration, or fails. -/
def execCanTxError (c : Fin 2) (lost : Bool) (s : State) : Host.Outcome State Fault Refusal :=
  let c := c.val
  match (s.canAt c).onBus with
  | none => .next s
  | some m =>
    if !s.canSynced c || s.canSt c == 2 then .next s
    else
      let ends := s.obj c m objOneshot = 1 ∨ (s.canAt c).rel.contains m
      let s := if ends then ((s.setObj c m objTxerr 1).objRelease c m).canFlag c 7 else s.setCan c { s.canAt c with onBus := none }
      let s := if lost then s else (s.incFld (CAN_ERRCNT c) Fld.CAN_ERRCNT_ERRFRM).canErrors c ((s.canAt c).tec + 8) (s.canRec c)
      .next (s.canKick c)

/-! ## Writes of an object (R460, R463) -/

/-- ABORT of an object that the controller owns. -/
def State.objAbort (s : State) (c m : Nat) : State :=
  let x := s.canAt c
  if s.obj c m objDir = 1 ∧ x.onBus = some m then
    (s.setCan c { x with rel := addOnce x.rel m }).setFld (CAN_STAT c) Fld.CAN_STAT_RELEASING 1
  else s.objRelease c m

/-- A write of word `k` of an object. -/
def State.objWrite (s : State) (c m k : Nat) (w : Word) : State :=
  let owned := s.obj c m objOwn = 1
  if k = 2 then
    if owned then
      if ¬ w.toNat.testBit 25 then s.refuse (canFault c)
      else if (s.canAt c).rel.contains m then s
      else s.objAbort c m
    else
      let d : RegDef := { off := 0, rw := 0xF400000F, w1c := 0x01C00000 }
      (s.setReg (objWord c m 2) (mergeWrite d (s.reg (objWord c m 2)).toNat w.toNat)).canKick c
  else if owned then s.refuse (canFault c)
  else if k = 0 then s.setReg (objWord c m 0) (w &&& 0x7FFFFFFF)
  else if k = 1 then s.setReg (objWord c m 1) (w &&& 0x1FFFFFFF)
  else if k < 19 then s.setReg (objWord c m k) w
  else s

/-- CAN_OBJ_OWN: a control word is written with OWN = 1. -/
def execCanObjOwn (c : Fin 2) (m : Fin 128) (w : Word) (s : State) : Host.Outcome State Fault Refusal :=
  .next (s.access (objWord c m 2) fun s => s.objWrite c m 2 (w ||| 0x80000000))

/-- CAN_ABORT: a control word is written with ABORT = 1, its other fields as they stand. -/
def execCanAbort (c : Fin 2) (m : Fin 128) (s : State) : Host.Outcome State Fault Refusal :=
  .next (s.access (objWord c m 2) fun s => s.objWrite c m 2 ((s.reg (objWord c m 2) &&& 0xF400000F) ||| 0x02000000))

/-- A MSG barge (R463): the payload goes into the object; false where the object is busy or no transmit object. -/
def State.canMessage (s : State) (c m : Nat) (l : List Byte) : State × Bool :=
  if !s.domOn domCN || s.obj c m objOwn = 1 || s.obj c m objDir = 0 then (s, false)
  else
    let d := dlcFor l.length
    let s := s.setObjData c m (l ++ List.replicate (dlcLen d - l.length) 0)
    (((s.setObj c m objDlc d).setObj c m objOwn 1).canKick c, true)

/-! ## The controller (R458, R459, R465) -/

/-- EN = 0: every state ends. -/
def State.canOff (s : State) (c : Nat) : State :=
  let s := s.each 128 fun s m =>
    if s.obj c m objOwn = 1 then
      let s := if (s.canAt c).onBus = some m then (s.setObj c m objTxerr 1).canFlag c 7 else s
      s.objRelease c m
    else s
  let s := (s.setReg (CAN_STAT c) 0x0000000C)
  s.setCan c { s.canAt c with tec := 0, onBus := none, rel := [] }

/-- A write of CAN_CTRL. -/
def State.canCtrlWrite (s : State) (c : Nat) (w : Word) : State :=
  let en := s.flag (CAN_CTRL c) Fld.CAN_CTRL_EN
  if fget w Fld.CAN_CTRL_MODE = 3 then s.busErr
  else if en ∧ fget w Fld.CAN_CTRL_MODE ≠ s.canMode c then s.refuse (canFault c)
  else
    let on := fget w Fld.CAN_CTRL_EN = 1
    let s := s.plainWrite (CAN_CTRL c) w
    if on ∧ ¬ en then (s.setFld (CAN_STAT c) Fld.CAN_STAT_STATE 0).setFld (CAN_STAT c) Fld.CAN_STAT_SYNCED 0
    else if !on then if en then s.canOff c else s
    else
      let s := s.canErrors c (s.canAt c).tec (s.canRec c)
      let go := fget w Fld.CAN_CTRL_REC_REQ = 1 ∨ fget w Fld.CAN_CTRL_AUTO_REC = 1
      if go ∧ s.canSt c = 2 then s.setFld (CAN_STAT c) Fld.CAN_STAT_RECOVERING 1 else s

/-- CAN_EN_SET: CAN_CTRL is written with EN = 1. -/
def execCanEnSet (c : Fin 2) (w : Word) (s : State) : Host.Outcome State Fault Refusal :=
  .next (s.access (CAN_CTRL c) fun s => s.canCtrlWrite c (fset w Fld.CAN_CTRL_EN 1))

/-- CAN_EN_CLEAR: CAN_CTRL is written with EN = 0. -/
def execCanEnClear (c : Fin 2) (w : Word) (s : State) : Host.Outcome State Fault Refusal :=
  .next (s.access (CAN_CTRL c) fun s => s.canCtrlWrite c (fset w Fld.CAN_CTRL_EN 0))

/-- REC_REQ: CAN_CTRL is written with REC_REQ = 1, its other fields as they stand. -/
def execRecReq (c : Fin 2) (s : State) : Host.Outcome State Fault Refusal :=
  .next (s.access (CAN_CTRL c) fun s => s.canCtrlWrite c (fset (s.reg (CAN_CTRL c)) Fld.CAN_CTRL_REC_REQ 1))

/-- CAN_SYNCED: 11 consecutive recessive bits after EN. -/
def execCanSynced (c : Fin 2) (s : State) : Host.Outcome State Fault Refusal :=
  let c := c.val
  if s.canEn c ∧ ¬ s.canSynced c then .next ((s.setFld (CAN_STAT c) Fld.CAN_STAT_SYNCED 1).canKick c) else .next s

/-- BUS_OFF_RECOVERED: 128 occurrences of 11 recessive bits. -/
def execBusOffRecovered (c : Fin 2) (s : State) : Host.Outcome State Fault Refusal :=
  let c := c.val
  if s.canEn c ∧ s.canSt c = 2 ∧ s.flag (CAN_STAT c) Fld.CAN_STAT_RECOVERING then
    let s := (s.setFld (CAN_STAT c) Fld.CAN_STAT_RECOVERING 0).setFld (CAN_STAT c) Fld.CAN_STAT_STATE 0
    .next (((s.canErrors c 0 0).canFlag c 6).canKick c)
  else .next s

/-! ## Line time over CAN (R466, R467) -/

/-- CAN_TM_SEND: the reference message of a flight; `sof` is its stamp, none where it was not sent by the next boundary. -/
def execCanTmSend (c : Fin 2) (sof : Option W64) (s : State) : Host.Outcome State Fault Refusal :=
  let c := c.val
  let n := s.fld (CAN_TM_CFG c) Fld.CAN_TM_CFG_CYC_F
  if !s.canSynced c || s.canSt c == 2 || s.canMode c == 1 || s.fld (CAN_TM_CFG c) Fld.CAN_TM_CFG_MODE != 1 || n == 0 ||
      s.tt.flightNo % n != 0 then .next s
  else
    let x := s.canAt c
    let seq := (s.fld (CAN_TM_STAT c) Fld.CAN_TM_STAT_SEQ + 1) % 256
    let lock := s.timeState = stLocked ∨ s.timeState = stMaster
    let msg := leBytes 1 seq ++ leBytes 1 (b2n x.tmSof.isSome + 2 * b2n lock) ++ leBytes 2 (s.fld TIME_EPOCH Fld.TIME_EPOCH_E) ++
      leBytes 8 (match x.tmSof with | some v => v.toNat | none => 0)
    let s := (s.setCan c { x with tmSof := sof, tmMsg := msg }).setFld (CAN_TM_STAT c) Fld.CAN_TM_STAT_SEQ seq
    .next (if sof.isSome then (s.incFld (CAN_TM_STAT c) Fld.CAN_TM_STAT_SYNCS).canFlag c 8 else s)

/-- CAN_TM_RX: a follower receives a reference message at a stamp. -/
def execCanTmRx (c : Fin 2) (seq flags : Byte) (epoch : BitVec 16) (stamp sof : W64) (s : State) :
    Host.Outcome State Fault Refusal :=
  let c := c.val
  if !s.canSynced c || s.canSt c == 2 || s.fld (CAN_TM_CFG c) Fld.CAN_TM_CFG_MODE != 2 then .next s
  else
    let x := s.canAt c
    let s := (s.setCan c { x with tmPrev := some (seq.toNat, sof) }).setFld (CAN_TM_STAT c) Fld.CAN_TM_STAT_SEQ seq.toNat
    if epoch.toNat ≠ s.fld TIME_EPOCH Fld.TIME_EPOCH_E then .next (s.setFld TIME_STAT Fld.TIME_STAT_EPOCH_ERR 1)
    else
      match x.tmPrev with
      | none => .next s
      | some p =>
        if flags.toNat % 4 = 3 ∧ seq.toNat = (p.1 + 1) % 256 then
          let o : Int := (p.2.toNat : Int) - ((stamp.toNat : Int) + (s.reg (CAN_TM_DELAY c)).toNat)
          let s := (s.incFld (CAN_TM_STAT c) Fld.CAN_TM_STAT_SYNCS).canFlag c 8
          .next (if s.domOn domNW then s.syncArrive 2 o else s)
        else .next s

/-! ## Register accesses -/

/-- A write of a register of controller `c`. -/
def State.canWrite (s : State) (a : Nat) (w : Word) : State :=
  let c := (a - 0x40070000) / 0x10000
  let o := a % 0x10000
  if 0x2000 ≤ o ∧ o < 0x4800 then s.objWrite c ((o - 0x2000) / 0x50) ((o - 0x2000) % 0x50 / 4) w
  else if o = 0 then s.canCtrlWrite c w
  else if o = 8 ∨ o = 12 then if s.flag (CAN_CTRL c) Fld.CAN_CTRL_EN then s.refuse (canFault c) else s.plainWrite a w
  else if o = 0x20 then
    let m := fget w Fld.CAN_TM_CFG_MODE
    if m = 3 ∨ (m = 2 ∧ s.fld (CAN_TM_CFG (1 - c)) Fld.CAN_TM_CFG_MODE = 2) then s.busErr else s.plainWrite a w
  else if 0x40 ≤ o ∧ o < 0x50 then
    s.each 32 fun s k => if w.toNat.testBit k then s.setObj c (8 * (o - 0x40) + k) objNew 0 else s
  else s.plainWrite a w

/-- The value of a register of controller `c`. -/
def State.canValue (s : State) (a : Nat) : Word :=
  let c := (a - 0x40070000) / 0x10000
  let o := a % 0x10000
  let gather := fun (g : Nat) (f : Fld) => BitVec.ofNat 32 ((List.range 32).foldl (fun (n : Nat) k => n + s.obj c (32 * g + k) f * 2 ^ k) 0)
  if 0x40 ≤ o ∧ o < 0x50 then gather ((o - 0x40) / 4) objNew
  else if 0x50 ≤ o ∧ o < 0x60 then gather ((o - 0x50) / 4) objOwn
  else s.reg a

end Sys2Proof.Machine
end

