-- ==== Sys2Proof/Machine/FieldIo.lean ====
section
/-! DEFINITION. Isolated field I/O (R478 to R496): the field link, inputs, counters, outputs, test pulses, the L+ monitor. -/

namespace Sys2Proof.Machine
open Sys2Proof.Machine.Reg

/-- Source of a field channel (R495): DI_i as i, DO_k as 32 + k, SO_k as 48 + k, T_k as 52 + k, the rest 0xFF. -/
def fioSrc (k : Nat) : Nat := srcId 0x0F k

def State.fiOn (s : State) : Bool := s.domOn domFI

/-! ## Outputs (R480, R486, R487, R494) -/

/-- The switches follow the command or fail-safe word, holds and L+. -/
def Fio.switches (x : Fio) : Fio :=
  let w := if x.fsAct then x.fs else x.cmd
  let off := x.fsAct || x.ov
  { x with doOn := if x.ov then 0 else w &&& (0xFFFF ^^^ x.held), soHs := if off then 0 else x.soA, soLs := if off then 0 else x.soB }

/-- A field of a channel mask over the four outputs. -/
def soMask (v : Vector Bool 4) : Nat := (List.range 4).foldl (fun (n : Nat) k => n + b2n (vget v false k) * 2 ^ k) 0

/-- A hold of DO_k ends. -/
def State.unhold (s : State) (k : Nat) : State :=
  let s := s.modFio fun x => { x with held := x.held &&& (0xFFFF ^^^ 2 ^ k), hot := x.hot &&& (0xFFFF ^^^ 2 ^ k) }
  let s := s.modFio Fio.switches
  (s.stopTimer (.doRetry k)).cease (fioSrc (32 + k)) 0

/-- The field side takes a downlink frame: command word, fail-safe word, safety outputs. -/
def State.downlink (s : State) : State :=
  let w := s.fld FIO_DO Fld.FIO_DO_CMD
  let fs := s.fld FIO_DO_FS Fld.FIO_DO_FS_FS
  let s := s.modFio fun x => { x with cmd := w, fs := fs, fsAct := false, downAt := s.clock }
  let s := s.modFio fun x => { x with soA := soMask s.safe.a.so, soB := soMask s.safe.b.so }
  let s := s.each 16 fun s k => if nbit s.fio.held k ∧ ¬ nbit w k then s.unhold k else s
  s.modFio Fio.switches

/-- A frame of the field link as it arrives passes its checks (R479): the CRC-16 of R19 over all its other bytes, most significant
byte first at the end, and the sequence number `q` that is due (its place, the first byte, is a DESIGN CHOICE: log entry 257). -/
def fieldFrameOk (l : List Byte) (q : Nat) : Bool :=
  let n := l.length
  decide (3 ≤ n) && crc16 (l.take (n - 2)) == ((l[n - 2]?).getD 0).toNat * 256 + ((l[n - 1]?).getD 0).toNat &&
    ((l[0]?).getD 0).toNat == q

/-- FIELD_LINK_DOWNLINK: the control side sends a frame, whose bytes arrive as named (the layout of their content is not given: it is
what the registers hold). A frame that fails is discarded, with no retry; its number is used up. -/
def execFieldLinkDownlink (bytes : List Byte) (s : State) : Host.Outcome State Fault Refusal :=
  if !s.fiOn || s.hwSafeOn then .next s
  else
    let q := s.fio.seqDn
    let s := s.modFio fun x => { x with seqDn := (q + 1) % 256 }
    .next (if fieldFrameOk bytes q then s.downlink else s.incFld FIO_LINKCNT Fld.FIO_LINKCNT_DOWN)

/-- FS_TIMEOUT: 100 µs without a downlink frame at the field side. -/
def execFsTimeout (s : State) : Host.Outcome State Fault Refusal :=
  if !s.fiOn || s.fio.fsAct || s.clock < s.fio.downAt + 100 * usTicks then .next s
  else .next (s.modFio fun x => ({ x with fsAct := true, fsNew := true } : Fio).switches)

/-! ## The uplink (R479, R480, R484, R493) -/

/-- Inputs of used pairs whose TYPE or FILT differ, by bit. -/
def State.unequalPairs (s : State) : Nat :=
  (List.range 8).foldl (fun (m : Nat) p =>
    let f := fun i => (s.reg (FIO_DI_CFG i)).toNat &&& 0x17FFF
    if (pairCfg s.block p).mode ≠ 0 ∧ f (16 + 2 * p) ≠ f (17 + 2 * p) then m + 3 * 4 ^ p else m) 0

/-- Counters of the field side: a clear leaves the edges of this frame period. -/
def State.counters (s : State) : State :=
  let s := s.each 8 fun s i =>
    let x := s.fio
    let v := if nbit x.clr i then BitVec.ofNat 32 (vget x.edges 0 i) else vget x.cnt 0 i
    let s := s.modFio fun x => { x with cnt := x.cnt.setIfInBounds i v }
    (s.setReg (FIO_CNT i) v).setReg (FIO_FREQ i) (vget x.freq 0 i)
  s.modFio fun x => { x with clr := 0, edges := Vector.replicate 8 0 }

/-- A valid uplink frame: raw samples, L+ code and the SOH voltages as measured come with it. -/
def State.uplink (s : State) (raw : Word) (lplus : BitVec 12) (vout : BitVec 4) : State :=
  let x := s.fio
  let s := s.modFio fun y => { y with lost := 0, fsNew := false }
  let s := (s.setFld FIO_STAT Fld.FIO_STAT_LINK_OK 1).setFld FIO_STAT Fld.FIO_STAT_FPWR_OK 1
  let s := s.setFld FIO_STAT Fld.FIO_STAT_FS_ACT (b2n x.fsAct)
  let s := ((s.setReg FIO_DI (BitVec.ofNat 32 x.di)).setReg FIO_DIRAW raw).setReg FIO_LPLUS (lplus.setWidth 32)
  let s := (s.setFld FIO_DO_ACT Fld.FIO_DO_ACT_ON x.doOn).setFld FIO_DO_ACT Fld.FIO_DO_ACT_HELD x.held
  let s := (s.setFld FIO_SO_STAT Fld.FIO_SO_STAT_VOUT vout.toNat).setFld FIO_SO_STAT Fld.FIO_SO_STAT_VINV (b2n x.uv)
  let s := (s.setFld SAFE_SO Fld.SAFE_SO_HS x.soHs).setFld SAFE_SO Fld.SAFE_SO_LS x.soLs
  let new := x.soA = soMask s.safe.a.so ∧ x.soB = soMask s.safe.b.so
  let s := s.modFio fun y => { y with soNew := y.soNew || new }
  let s := s.setFld FIO_TPSTAT Fld.FIO_TPSTAT_CROSS (s.fld FIO_TPSTAT Fld.FIO_TPSTAT_CROSS ||| s.unequalPairs)
  let s := s.counters.cease (fioSrc 0xFF) 0
  if x.fsNew then (s.setFld FIO_STAT Fld.FIO_STAT_FS_S 1).logContained (fioSrc 0xFF) .log [] 4 else s

/-- FIELD_LINK_UPLINK: a frame comes back, its bytes as they arrive; one that fails its checks is lost. -/
def execFieldLinkUplink (bytes : List Byte) (raw : Word) (lplus : BitVec 12) (vout : BitVec 4) (s : State) :
    Host.Outcome State Fault Refusal :=
  if !s.fiOn then .next s
  else
    let q := s.fio.seqUp
    let s := s.modFio fun x => { x with seqUp := (q + 1) % 256 }
    if fieldFrameOk bytes q then .next (s.uplink raw lplus vout)
    else .next ((s.incFld FIO_LINKCNT Fld.FIO_LINKCNT_UP).modFio fun x => { x with lost := x.lost + 1 })

/-- UPLINK_LOSS: the third consecutive uplink frame is lost. -/
def execUplinkLoss (s : State) : Host.Outcome State Fault Refusal :=
  if !s.fiOn || s.fio.lost < 3 || !s.flag FIO_STAT Fld.FIO_STAT_LINK_OK then .next s
  else
    let s := ((s.setReg FIO_DI 0).setReg FIO_DIRAW 0).setFld FIO_STAT Fld.FIO_STAT_LINK_OK 0
    .next (s.logContained (fioSrc 0xFF) .log [] 2 (some 0))

/-! ## Inputs, counters, frequencies (R482, R484, R485) -/

def State.diCfg (s : State) (i : Nat) (f : Fld) : Nat := s.fld (FIO_DI_CFG i) f

/-- The filter of an input (R482) over raw samples, oldest first: the filtered state and the samples in a row that differ from it. FILT
of them change it, and FILT = 0 passes each sample. -/
def diFilter (filt : Nat) (x : Bool × Nat) (raw : List Bool) : Bool × Nat :=
  raw.foldl (fun (x : Bool × Nat) r => if r = x.1 then (x.1, 0) else if filt ≤ x.2 + 1 then (r, 0) else (x.1, x.2 + 1)) x

/-- DI_CHANGE: the next raw samples of an input, 1 µs apart, pass its filter on the field side (those that a test pulse replaces are
named as R492 replaces them). -/
def execDiChange (i : Fin 32) (raw : List Bool) (s : State) : Host.Outcome State Fault Refusal :=
  if !s.fiOn then .next s
  else
    let r := diFilter (s.diCfg i Fld.FIO_DI_CFG_FILT) (nbit s.fio.di i, vget s.fio.diRun 0 i) raw
    .next (s.modFio fun x => { x with di := if r.1 then x.di ||| 2 ^ i.val else x.di &&& (0xFFFFFFFF ^^^ 2 ^ i.val),
                                      diRun := x.diRun.setIfInBounds i r.2 })

/-- GATE in units of 100 ns. -/
def gateLen (g : Nat) : Nat := 10000 * 10 ^ g

/-- COUNTER_EDGE: an edge is accepted at a stamp of 100 ns. One more than 1 s after the opening closes nothing: it opens a new window. -/
def execCounterEdge (i : Fin 8) (rise : Bool) (t : Nat) (s : State) : Host.Outcome State Fault Refusal :=
  let i := i.val
  let m := s.diCfg i Fld.FIO_DI_CFG_CNT_MODE
  let e := s.diCfg i Fld.FIO_DI_CFG_EDGE
  if !s.fiOn || (e == 0 && !rise) || (e == 1 && rise) then .next s
  else
    let s := if m = 1 ∨ m = 3 then
        s.modFio fun x => { x with cnt := x.cnt.setIfInBounds i (vget x.cnt 0 i + 1), edges := x.edges.setIfInBounds i (vget x.edges 0 i + 1) }
      else s
    if m = 2 ∨ m = 3 then
      match vget s.fio.win none i with
      | none => .next (s.modFio fun x => { x with win := x.win.setIfInBounds i (some { t0 := t, n := 1 }) })
      | some w =>
        let d := t - w.t0
        if 10000000 < d then
          .next (s.modFio fun x => { x with freq := x.freq.setIfInBounds i 0, win := x.win.setIfInBounds i (some { t0 := t, n := 1 }) })
        else if d < gateLen (s.diCfg i Fld.FIO_DI_CFG_GATE) then
          .next (s.modFio fun x => { x with win := x.win.setIfInBounds i (some { t0 := w.t0, n := w.n + 1 }) })
        else
          let f := BitVec.ofNat 32 (w.n * 10000000000 / d)
          .next (s.modFio fun x => { x with freq := x.freq.setIfInBounds i f, win := x.win.setIfInBounds i none })
    else .next s

/-- FREQ_TIMEOUT: no closing edge within 1 s of the opening. -/
def execFreqTimeout (i : Fin 8) (s : State) : Host.Outcome State Fault Refusal :=
  if !s.fiOn || (vget s.fio.win none i).isNone then .next s
  else .next (s.modFio fun x => { x with freq := x.freq.setIfInBounds i 0, win := x.win.setIfInBounds i none })

/-! ## Register writes (R483, R486, R491) -/

/-- The command word takes a value. -/
def State.doCommand (s : State) (v : Nat) : State := s.setFld FIO_DO Fld.FIO_DO_CMD v

/-- A write of a FIO register. -/
def State.fioWrite (s : State) (a : Nat) (w : Word) : State :=
  let o := a % 0x10000
  let cmd := s.fld FIO_DO Fld.FIO_DO_CMD
  let lo := w.toNat % 65536
  if a = FIO_DO then s.doCommand lo
  else if a = FIO_DO_SET then s.doCommand (cmd ||| lo)
  else if a = FIO_DO_CLR then s.doCommand (cmd &&& (0xFFFF ^^^ lo))
  else if a = FIO_CNT_CLR then s.modFio fun x => { x with clr := x.clr ||| lo % 256 }
  else if a = FIO_TP then
    let per := fget w Fld.FIO_TP_PER
    let wid := fget w Fld.FIO_TP_W
    if s.armed then s.refuse (fioSrc 0xFF)
    else if per < 1 ∨ 100 < per ∨ wid < 10 ∨ 100 < wid then s.busErr
    else s.plainWrite a w
  else if 0x100 ≤ o ∧ o < 0x180 then
    let i := (o - 0x100) / 4
    let w := if i < 8 then w else w &&& 0x00FFFFFF
    if 16 ≤ i ∧ s.armed then s.refuse (fioSrc i)
    else if 3 < fget w Fld.FIO_DI_CFG_GATE ∨ 25000 < fget w Fld.FIO_DI_CFG_FILT then s.busErr
    else s.plainWrite a w
  else s.plainWrite a w

/-- CNT_CLR: FIO_CNT_CLR is written. -/
def execCntClr (w : Word) (s : State) : Host.Outcome State Fault Refusal := .next (s.access FIO_CNT_CLR fun s => s.fioWrite FIO_CNT_CLR w)

/-- DO_WRITE: FIO_DO is written. -/
def execDoWrite (w : Word) (s : State) : Host.Outcome State Fault Refusal := .next (s.access FIO_DO fun s => s.fioWrite FIO_DO w)

/-- DO_SET: FIO_DO_SET is written. -/
def execDoSet (w : Word) (s : State) : Host.Outcome State Fault Refusal := .next (s.access FIO_DO_SET fun s => s.fioWrite FIO_DO_SET w)

/-- DO_CLR: FIO_DO_CLR is written. -/
def execDoClr (w : Word) (s : State) : Host.Outcome State Fault Refusal := .next (s.access FIO_DO_CLR fun s => s.fioWrite FIO_DO_CLR w)

/-! ## Output diagnostics (R487, R488) -/

/-- DO_OVERLOAD: an output stays in the current limit for 500 µs, or its switch reaches 150 °C. -/
def execDoOverload (k : Fin 16) (hot : Bool) (s : State) : Host.Outcome State Fault Refusal :=
  let k := k.val
  if !s.fiOn || !nbit s.fio.doOn k || (!hot && s.fio.uv) then .next s
  else
    let s := s.modFio fun x => { x with held := x.held ||| 2 ^ k, hot := if hot then x.hot ||| 2 ^ k else x.hot }
    let s := s.modFio Fio.switches
    let s := s.setFld (if hot then FIO_DO_OT else FIO_DO_FLT) ⟨k, k⟩ 1
    let s := if nbit (s.fld FIO_DO_CFG Fld.FIO_DO_CFG_RETRY) k then s.startTimer (.doRetry k) (100 * msTicks) else s
    .next (s.logContained (fioSrc (32 + k)) .log [] (BitVec.ofNat 32 (2 ^ k)) (some 0))

/-- DO_RETRY: 100 ms are over; `cool`: the switch is below 135 °C. -/
def execDoRetry (k : Fin 16) (cool : Bool) (s : State) : Host.Outcome State Fault Refusal :=
  let k := k.val
  if !s.fiOn || !s.due (.doRetry k) || s.fio.uv then .next s
  else if !nbit (s.fld FIO_DO_CFG Fld.FIO_DO_CFG_RETRY) k || !nbit s.fio.held k || !nbit s.fio.cmd k then .next (s.stopTimer (.doRetry k))
  else if nbit s.fio.hot k ∧ ¬ cool then .next (s.startTimer (.doRetry k) (100 * msTicks))
  else .next (s.unhold k)

/-- DO_OPEN_WIRE: below 1 mA for 20 ms while on, or above 4 V for 20 ms while off with the test enabled. -/
def execDoOpenWire (k : Fin 16) (s : State) : Host.Outcome State Fault Refusal :=
  let k := k.val
  if !s.fiOn || s.fio.uv || (!nbit s.fio.doOn k && !nbit (s.fld FIO_DO_CFG Fld.FIO_DO_CFG_OWOFF_EN) k) then .next s
  else .next ((s.setFld FIO_DO_FLT ⟨16 + k, 16 + k⟩ 1).logCorrected (fioSrc (32 + k)) (BitVec.ofNat 32 (2 ^ (16 + k))))

/-! ## Test pulses (R366, R491, R492) -/

/-- Paired inputs fed from T_t, by bit, while a safety block is in force. -/
def State.pulseInputs (s : State) (t : Nat) : Nat :=
  if !s.armed then 0 else
  (List.range 16).foldl (fun (m : Nat) j =>
    let c := pairCfg s.block (j / 2)
    if c.mode ≠ 0 ∧ (c.test = t + 1 ∨ (c.test = 3 ∧ j % 2 = t)) then m + 2 ^ j else m) 0

/-- TEST_PULSE: T_t pulses to 0 V; `off`: the paired inputs that read OFF in the window of the pulse. -/
def execTestPulse (t : Fin 2) (off : BitVec 16) (s : State) : Host.Outcome State Fault Refusal :=
  let t := t.val
  if !s.fiOn || !nbit (s.reg FIO_TP).toNat t || s.fio.fsAct || s.fio.ov then .next s
  else
    let own := s.pulseInputs t
    let other := s.pulseInputs (1 - t)
    let ok := s.fld FIO_TPSTAT Fld.FIO_TPSTAT_PULSE_OK
    let x := s.fld FIO_TPSTAT Fld.FIO_TPSTAT_CROSS
    let s := s.setFld FIO_TPSTAT Fld.FIO_TPSTAT_PULSE_OK ((ok &&& (0xFFFF ^^^ own)) ||| (off.toNat &&& own))
    let s := s.setFld FIO_TPSTAT Fld.FIO_TPSTAT_CROSS ((x &&& (0xFFFF ^^^ other)) ||| (off.toNat &&& other) ||| s.unequalPairs)
    .next (s.modFio fun y => { y with tpSeen := y.tpSeen ||| own })

/-! ## The L+ monitor (R494) -/

/-- LP_UV: L+ is measured against the undervoltage thresholds 17.5 V and 18.5 V, in 40 V / 4,096. -/
def execLpUv (code : BitVec 12) (s : State) : Host.Outcome State Fault Refusal :=
  let c := code.toNat
  if !s.fiOn then .next s
  else if ¬ s.fio.uv ∧ c < 1792 then
    let s := s.modFio fun x => { x with uv := true }
    let s := (s.setFld FIO_STAT Fld.FIO_STAT_LP_UV 1).setFld FIO_STAT Fld.FIO_STAT_LP_UV_S 1
    .next (s.logCorrected (fioSrc 0xFF) 0x10)
  else if s.fio.uv ∧ 37888 < 20 * c then .next ((s.modFio fun x => { x with uv := false }).setFld FIO_STAT Fld.FIO_STAT_LP_UV 0)
  else .next s

/-- LP_OV: L+ is measured against the overvoltage thresholds 31.0 V and 30.5 V. -/
def execLpOv (code : BitVec 12) (s : State) : Host.Outcome State Fault Refusal :=
  let c := code.toNat
  if !s.fiOn then .next s
  else if ¬ s.fio.ov ∧ 31 * 4096 < 40 * c then
    let s := (s.modFio fun x => { x with ov := true }).modFio Fio.switches
    let s := (s.setFld FIO_STAT Fld.FIO_STAT_LP_OV 1).setFld FIO_STAT Fld.FIO_STAT_LP_OV_S 1
    .next (s.logContained (fioSrc 0xFF) .log [] 0x20 (some 1))
  else if s.fio.ov ∧ 80 * c < 61 * 4096 then
    let s := (s.modFio fun x => { x with ov := false }).modFio Fio.switches
    .next ((s.setFld FIO_STAT Fld.FIO_STAT_LP_OV 0).cease (fioSrc 0xFF) 1)
  else .next s

/-- A read of a FIO register: with FI off every register but FIO_STAT answers with a bus error (R478). -/
def State.fioRead (s : State) (a : Nat) : State :=
  if a = FIO_STAT then s.answer (.data (if s.domOn domTP then s.reg a else 0))
  else if s.fiOn then s.answer (.data (s.reg a)) else s.busErr

end Sys2Proof.Machine
end

