-- ==== Sys2Proof/Machine/Boot.lean ====
section
/-! DEFINITION. Images, the boot flow, the NOR service, key slots (R524 to R536) and the parameter store (R539 to R545). -/

namespace Sys2Proof.Machine
open Sys2Proof.Machine.Reg

def hostSrc : Nat := srcId 0x10 0

/-- VIN is below VIN_WARN. -/
def State.vinWarn (s : State) : Bool := s.flag SYS_VIN_STAT Fld.SYS_VIN_STAT_WARN

/-! ## Flash and images -/

def norSize : Nat := 0x10000000

def State.norBytes (s : State) (o n : Nat) : List Byte := (List.range n).map fun k => s.cell (0x30000000 + o + k)

/-- Bytes as a big-endian number: HASH, PUBKEY, SIG (R526). -/
def beNat (l : List Byte) : Nat := l.foldl (fun (n : Nat) b => 256 * n + b.toNat) 0

/-- A boot record is valid (R525). -/
def recordOk (l : List Byte) : Bool :=
  lf l 0 4 == 0x42524543 && crc32c (l.take 60) == lf l 60 4 && zeroAt l 41 19

/-- Record `a` is later than record `b`. -/
def laterRecord (a b : List Byte) : Bool :=
  let d := (lf a 4 4 + 2 ^ 32 - lf b 4 4) % 2 ^ 32
  1 ≤ d && d < 2 ^ 31

/-- The boot record that stands. Of two valid records neither of which is later, a free value says which one. -/
def State.standing (s : State) : Option Nat :=
  let a := s.norBytes 0 64
  let b := s.norBytes 0x1000 64
  match recordOk a, recordOk b with
  | false, false => none
  | true, false => some 0
  | false, true => some 0x1000
  | true, true =>
    if laterRecord a b then some 0 else if laterRecord b a then some 0x1000 else some (s.fresh % 2 * 0x1000)

/-- The offset of slot `b` (A false, B true) of type `t` in a boot record. -/
def slotOfs (rec : List Byte) (t : Nat) (b : Bool) : Nat := lf rec (8 * t + 4 * b2n b) 4

def noOfs : Nat := 0xFFFFFFFF

/-- Slot of type `t` in set P, or in set F. -/
def setSlot (pref : Nat) (f : Bool) (t : Nat) : Bool := nbit pref (t - 1) != f

def hdrLen (h : List Byte) : Nat := lf h 12 4
def hdrId (h : List Byte) : Nat := lf h 16 4
def hdrKey (h : List Byte) : Nat := lf h 7 1

/-- IMAGE_IDs that a header lists. -/
def hdrPartners (h : List Byte) : List Nat := (List.range (lf h 48 1)).map fun k => lf h (64 + 4 * k) 4

/-- LEN, LOAD and ENTRY of a header (R524, R526). `tot` is TOTAL_LEN of the payload of a timetable. -/
def hdrRanges (h : List Byte) (t tot : Nat) : Bool :=
  let n := hdrLen h
  let load := lf h 20 4
  let entry := lf h 24 4
  if t ≤ 2 then
    4 ≤ n && n ≤ 0x80000 && load % 4 == 0 && load + n ≤ 0x80000 && 0x08000000 + load ≤ entry && entry ≤ 0x08000000 + load + n - 4
  else
    load == 0 && entry == 0 &&
    (if t = 3 then 4 ≤ n && n ≤ 0x8000 && n % 4 == 0 else 64 ≤ n && n ≤ 0x800000 && n == tot)

/-- Zero fields of a header. -/
def hdrZeros (h : List Byte) : Bool :=
  let k := lf h 48 1
  k ≤ 16 && hdrId h != 0 && zeroAt h 28 4 && zeroAt h 42 6 && zeroAt h 49 15 && zeroAt h (64 + 4 * k) (64 - 4 * k) && zeroAt h 288 224

/-- SHA-256 over header bytes 0 to 191 and the payload, as the module computes it (R526). -/
def State.imageHash (s : State) (o : Nat) : Nat :=
  let h := s.norBytes o 512
  sha (h.take 192 ++ s.norBytes (o + 512) (hdrLen h))

/-- HASH of the header at an offset. -/
def State.hdrHash (s : State) (o : Nat) : Nat := beNat (((s.norBytes o 512).drop 192).take 32)

/-- The key slot holds the key of a header (R527). -/
def State.keyOk (s : State) (h : List Byte) : Bool :=
  let k := hdrKey h
  k < 4 && vget s.boot.keys none k == some (sha ((h.drop 128).take 64)) && !vget s.boot.revoked false k

/-- Codes 0x02 to 0x07 of R529 for an image of type `t` at an offset, 0 where it passes. -/
def State.imageCode7 (s : State) (t o : Nat) : Nat :=
  if norSize ≤ o + 512 then 2 else
  let h := s.norBytes o 512
  let tot := leNat (s.norBytes (o + 540) 4)
  if lf h 0 4 ≠ 0x4849584D ∨ lf h 4 2 ≠ 512 ∨ lf h 6 1 ≠ t ∨ !hdrRanges h t tot ∨ !hdrZeros h ∨ norSize < o + 512 + hdrLen h then 2
  else if !s.keyOk h then 3
  else if s.imageHash o ≠ s.hdrHash o then 4
  else if !Config.ecdsaValid (s.hdrHash o) (beNat ((h.drop 224).take 64)) (sha ((h.drop 128).take 64)) then 5
  else if !nbit (lf h 32 4) (maskBit s.part) then 6
  else if !versionFits (lf h 36 2) 1 2 then 7
  else 0

/-- Codes 0x02 to 0x09; `abi` is the ABI major of the type 0x01 image. -/
def State.imageCode (s : State) (t o abi : Nat) : Nat :=
  if o = noOfs then (if t ≤ 2 then 2 else 0) else
  let c := s.imageCode7 t o
  if c ≠ 0 then c else
  let h := s.norBytes o 512
  if (if t = 1 ∨ t = 4 then !versionFits (lf h 38 2) 1 1 else lf h 38 2 != 0) then 8
  else if lf h 40 2 / 256 ≠ abi then 9
  else 0

/-- The lower type of the first pair of images of which neither lists the other (R530). -/
def untested (im : List (Nat × List Byte)) : Option Nat :=
  im.findSome? fun a => im.findSome? fun b =>
    if a.1 < b.1 && !(hdrPartners a.2).contains (hdrId b.2) && !(hdrPartners b.2).contains (hdrId a.2) then some a.1 else none

/-- Code and type that reject a set of a boot record, code 0 where the set passes (R529). -/
def State.setCode (s : State) (rec : List Byte) (pref : Nat) (f : Bool) : Nat × Nat :=
  let ofs := fun t => slotOfs rec t (setSlot pref f t)
  let abi := lf (s.norBytes (ofs 1) 512) 40 2 / 256
  match [1, 2, 3, 4].find? fun t => s.imageCode t (ofs t) abi != 0 with
  | some t => (s.imageCode t (ofs t) abi, t)
  | none =>
    match untested (([1, 2, 3, 4].filter fun t => ofs t != noOfs).map fun t => (t, s.norBytes (ofs t) 512)) with
    | some t => (0xA, t)
    | none => (0, 0)

/-! ## Starting firmware (R532, R533) and kernels (R502) -/

/-- The payload of the booted image of type `p + 1` is copied to SV_p, and the pair starts at ENTRY at Machine level. -/
def State.svLoad (s : State) (p o : Nat) : State :=
  let h := s.norBytes o 512
  let s := s.setCells (tcmBase p + lf h 20 4) (s.norBytes (o + 512) (hdrLen h))
  s.setSv p { ({} : Sv) with pc := BitVec.ofNat 32 (lf h 24 4), up := true }

/-- A restart reloads the firmware; none where no image is booted or its payload does not match HASH. -/
def State.svReload (s : State) (p : Nat) : Option State :=
  match vget s.boot.slot none p with
  | none => none
  | some o => if s.imageHash o = s.hdrHash o then some (s.svLoad p o) else none

/-- Consecutive words of a byte list. -/
def wordsOf (l : List Byte) : List Word := (List.range (l.length / 4)).map fun k => BitVec.ofNat 32 (lf l (4 * k) 4)

/-- The kernel payload goes to the program RAM of LE_e; false where it does not match HASH. -/
def State.kernelLoad (s : State) (e : Nat) : State × Bool :=
  match vget s.boot.slot none 2 with
  | none => (s, true)
  | some o =>
    if s.imageHash o ≠ s.hdrHash o then (s, false)
    else
      let ws := wordsOf (s.norBytes (o + 512) (hdrLen (s.norBytes o 512)))
      (s.setLe e { s.leAt e with prog := ws.zipIdx.foldl (fun t w => Tbl.put 0 t w.2 w.1) [] }, true)

/-! ## The parameter store (R539 to R545) -/

def storeBase : Nat := 0x1C000000

/-- Length rounded up to a multiple of 8. -/
def pad8 (n : Nat) : Nat := (n + 7) / 8 * 8

def recSize (n : Nat) : Nat := 32 + 2 * pad8 n

/-- The bytes of a record (R540). -/
def recBytes (key ver : Nat) (val : List Byte) : List Byte :=
  let h := leBytes 2 0x5052 ++ leBytes 2 key ++ leBytes 4 ver ++ leBytes 4 val.length
  let v := val ++ List.replicate (pad8 val.length - val.length) 0
  h ++ leBytes 4 (crc32c h) ++ v ++ v.map (fun b => ~~~b) ++ leBytes 4 (crc32c val) ++ leBytes 4 0 ++ leBytes 4 0x50434D54 ++
    leBytes 4 0xAFBCB2AB

def State.storeBytes (s : State) (a n : Nat) : List Byte := (List.range n).map fun k => s.cell (a + k)

def State.recKey (s : State) (a : Nat) : Nat := leNat (s.storeBytes (a + 2) 2)
def State.recVer (s : State) (a : Nat) : Nat := leNat (s.storeBytes (a + 4) 4)
def State.recLen (s : State) (a : Nat) : Nat := leNat (s.storeBytes (a + 8) 4)

/-- HCRC and the commit words are correct (R544). -/
def State.recIndexed (s : State) (a : Nat) : Bool :=
  let h := s.storeBytes a 16
  let p := pad8 (s.recLen a)
  lf h 0 2 == 0x5052 && crc32c (h.take 12) == lf h 12 4 && s.recLen a ≤ 32720 &&
    s.storeBytes (a + 24 + 2 * p) 8 == leBytes 4 0x50434D54 ++ leBytes 4 0xAFBCB2AB

/-- A record is valid (R540). -/
def State.recValid (s : State) (a : Nat) : Bool :=
  let n := s.recLen a
  let v := s.storeBytes (a + 16) (pad8 n)
  s.recIndexed a && crc32c (v.take n) == leNat (s.storeBytes (a + 16 + 2 * pad8 n) 4) &&
    s.storeBytes (a + 16 + pad8 n) (pad8 n) == v.map (fun b => ~~~b)

/-- Records of a key that the index holds. -/
def State.versions (s : State) (key : Nat) : List Nat :=
  s.boot.recs.filter fun a => s.recIndexed a && !s.boot.bad.contains a && s.recKey a == key

/-- The record with the highest VER. -/
def State.newest (s : State) (l : List Nat) : Option Nat :=
  l.foldl (fun b a => match b with
    | some c => if s.recVer c < s.recVer a then some a else some c
    | none => some a) none

def State.current (s : State) (key : Nat) : Option Nat := s.newest (s.versions key)

/-- Keys the index holds. -/
def State.storeKeys (s : State) : List Nat := (s.boot.recs.filter s.recIndexed |>.map s.recKey).eraseDups

/-- The record is its key's current version and not a deletion. -/
def State.isCurrent (s : State) (a : Nat) : Bool := s.current (s.recKey a) == some a && s.recLen a != 0

/-- End of the used part of segment `k`. -/
def State.segFill (s : State) (k : Nat) : Nat := Tbl.get 16 s.boot.segEnd k

/-- Free bytes in the store: the parts of the segments that no record uses. -/
def State.storeFree (s : State) : Nat := (List.range 32).foldl (fun (n : Nat) k => n + (65536 - s.segFill k)) 0

/-- The segment that takes a record of `n` bytes: the open one, else the next empty one in turn. -/
def State.segFor (s : State) (n : Nat) : Option Nat :=
  if s.segFill s.boot.segOpen + n ≤ 65536 then some s.boot.segOpen
  else ((List.range 31).map fun k => (s.boot.segOpen + k + 1) % 32).find? fun k => s.segFill k == 16

/-- Append record bytes; `k` bytes of them reach the array. None where no segment has room. -/
def State.append (s : State) (l : List Byte) (k : Nat) : Option State :=
  match s.segFor l.length with
  | none => none
  | some g =>
    let o := s.segFill g
    let a := storeBase + 65536 * g + o
    let s := s.setCells a (l.take k)
    some (s.modBoot fun b => { b with segOpen := g, segEnd := Tbl.put 16 b.segEnd g (o + l.length), recs := b.recs ++ [a] })

/-- The segment of a store address. -/
def segOf (a : Nat) : Nat := (a - storeBase) / 65536

/-- Bytes of current data in a segment. -/
def State.segLive (s : State) (g : Nat) : Nat :=
  ((s.boot.recs.filter fun a => segOf a == g && s.isCurrent a).foldl (fun (n : Nat) a => n + recSize (s.recLen a)) 0)

/-- The segment that compaction takes: not the open one, used, with the least current data. -/
def State.segVictim (s : State) : Option Nat :=
  ((List.range 32).filter fun g => g != s.boot.segOpen && s.segFill g != 16).foldl
    (fun (b : Option Nat) g => match b with
      | some c => if s.segLive g < s.segLive c then some g else some c
      | none => some g) none

/-- Compaction of one segment (R545): its current records are copied with their VER, then it is released. Keys whose
current version is a deletion that lies in it are dropped. Nothing changes where the copies find no room. -/
def State.compact (s : State) : State :=
  match s.segVictim with
  | none => s
  | some g =>
    let mine := s.boot.recs.filter fun a => segOf a == g
    let live := mine.filter s.isCurrent
    let dead := (mine.filter fun a => s.current (s.recKey a) == some a && s.recLen a == 0).map s.recKey
    let copied := live.foldl (fun (r : Option State) a => match r with
      | some t => t.append (s.storeBytes a (recSize (s.recLen a))) (recSize (s.recLen a))
      | none => none) (some s)
    match copied with
    | none => s
    | some t => t.modBoot fun b =>
        { b with recs := b.recs.filter (fun a => segOf a != g && !dead.contains (s.recKey a)),
                 bad := b.bad.filter (fun a => segOf a != g), segEnd := Tbl.put 16 b.segEnd g 16 }

/-- The VER of a new record: one more than the newest present; none is stated for a key's first record. -/
def State.nextVer (s : State) (key : Nat) : Nat :=
  match s.newest ((s.boot.recs.filter s.recIndexed).filter fun a => s.recKey a == key) with
  | some a => (s.recVer a + 1) % 2 ^ 32
  | none => s.fresh % 2 ^ 32

/-- The record service writes a record: the code, and the state. -/
def State.storeWrite (s : State) (key : Nat) (val : List Byte) : State × Nat :=
  if !s.storeKeys.contains key && 1024 ≤ s.storeKeys.length then (s, 4)
  else
    let ver := s.nextVer key
    let l := recBytes key ver val
    let s := s.useFree
    let r := match s.append l l.length with
      | some t => some t
      | none => s.compact.append l l.length
    match r with
    | none => (s, 4)
    | some t => (t.setReg HOST_PS_VER (BitVec.ofNat 32 ver), 0)

/-- The supervisor address at which a payload lies, as the memory holds it: tightly coupled RAM at its aliases, trace memory. -/
def memTarget (p : Part) (i : Initiator) (a n : Nat) : Option Nat :=
  match rangeOf p i a with
  | .tcm k _ => if a % 0x80000 + n ≤ 0x80000 then some (tcmBase k + a % 0x80000) else none
  | .trace => if a + n ≤ 0x14800000 then some a else none
  | _ => none

/-- A payload may be written to an address for an initiator (R396, R420). -/
def State.payloadTarget (s : State) (i : Initiator) (a n : Nat) : Option Nat :=
  match memTarget s.part i a n with
  | none => none
  | some b =>
    let r := rangeOf s.part i a
    if !s.powered r a then none
    else if r = .trace ∧ s.acqBusy then none
    else if b / 0x1000000 = 0x0A ∧ i ≠ .sv1 ∧ i ≠ .jtag then none
    else some b

/-- Serve the newest version that passes its checks; the others are marked bad (R542). -/
def State.storeServe (s : State) (key a : Nat) (late : Bool) : Nat → State × Nat
  | 0 => (s, 3)
  | k + 1 =>
    match s.current key with
    | none => (s, 3)
    | some r =>
      if s.recValid r then
        if s.recLen r = 0 then (s, 3)
        else
          let s := (s.setReg HOST_PS_VER (BitVec.ofNat 32 (s.recVer r))).setReg HOST_PS_LEN (BitVec.ofNat 32 (s.recLen r))
          (s.setCells a (s.storeBytes (r + 16) (s.recLen r)), if late then 7 else 0)
      else State.storeServe ((s.modBoot fun b => { b with bad := b.bad ++ [r] }).logCorrected hostSrc) key a true k

/-- The current payload of a key, for the records that the module applies itself. -/
def State.record? (s : State) (key : Nat) : Option (List Byte) :=
  match s.newest ((s.versions key).filter s.recValid) with
  | some a => some (s.storeBytes (a + 16) (s.recLen a))
  | none => none

/-! ## The record service (R541 to R543) -/

def State.setPsCode (s : State) (c : Nat) : State :=
  let was := s.fld HOST_PS_STAT Fld.HOST_PS_STAT_CODE
  let s := s.setFld HOST_PS_STAT Fld.HOST_PS_STAT_CODE c
  if was = 0xFF ∧ c ≠ 0xFF then s.irqPulse 21 else s

/-- COMPACTING shows a compaction that runs. -/
def State.showCompact (s : State) : State :=
  s.setFld HOST_PS_STAT Fld.HOST_PS_STAT_COMPACTING (b2n (match s.boot.ps with | some (_, .compact) => true | _ => false))

/-- A firmware request starts, or waits for the record copy of a compaction in progress. -/
def State.psStart (s : State) (op : PsOp) : State :=
  let s := match s.boot.ps with
    | some _ => s.modBoot fun b => { b with psWait := (true, op) :: b.psWait }
    | none => s.modBoot fun b => { b with ps := some (true, op) }
  (s.setPsCode 0xFF).showCompact

/-- A firmware request is refused while another runs (0x06) and below VIN_WARN (0x05); else `f` checks it further. -/
def State.psRequest (s : State) (f : State → State) : State :=
  let busy : Bool := match s.boot.ps with
    | some (_, .compact) => false
    | some _ => true
    | none => false
  if busy || s.boot.psWait.any (·.1) then s.setPsCode 6
  else if s.pwr.storeBlocked then s.setPsCode 5
  else f s

def State.psKey (s : State) : Nat := (s.reg HOST_PS_KEY).toNat % 65536

def State.psWriteReq (s : State) (i : Initiator) : State :=
  s.psRequest fun s =>
    let n := (s.reg HOST_PS_LEN).toNat
    if s.psKey < 0x100 ∨ s.psKey = 0xFFFF then s.setPsCode 1
    else if 32720 < n then s.setPsCode 2
    else match memTarget s.part i (s.reg HOST_PS_ADDR).toNat n, s.bytesAt i (s.reg HOST_PS_ADDR).toNat n with
      | some _, some l => s.psStart (.write s.psKey l)
      | _, _ => s.setPsCode 8

def State.psReadReq (s : State) (i : Initiator) : State :=
  s.psRequest fun s =>
    if s.psKey = 0 ∨ s.psKey = 0xFFFF then s.setPsCode 1
    else
      let n := match s.current s.psKey with
        | some r => s.recLen r
        | none => 0
      match s.payloadTarget i (s.reg HOST_PS_ADDR).toNat n with
      | some a => s.psStart (.read s.psKey a)
      | none => s.setPsCode 8

/-- The IDENT payload: SYS_ADDR, MAC, 2 zero bytes (R541). -/
def State.identBytes (s : State) : List Byte :=
  leBytes 4 (s.reg SYS_ADDR).toNat ++ leBytes 4 (s.reg ETH_MAC_LO).toNat ++ leBytes 2 (s.reg ETH_MAC_HI).toNat ++ [0, 0]

/-- Registers of the FIOCFG record, in its order. -/
def fioCfgRegs : List Nat := (List.range 32).map FIO_DI_CFG ++ [FIO_DO_CFG, FIO_DO_FS, FIO_TP]

def State.fioCfgBytes (s : State) : List Byte := fioCfgRegs.flatMap fun a => leBytes 4 (s.reg a).toNat

/-- A write of HOST_PS_CTRL by an initiator; its bits act in the order of their numbers. IDENT and FIOCFG outside Commission
refuse the write. -/
def State.psCtrlWrite (s : State) (i : Initiator) (w : Word) : State :=
  if (fget w Fld.HOST_PS_CTRL_IDENT = 1 ∨ fget w Fld.HOST_PS_CTRL_FIOCFG = 1) ∧ s.mode ≠ .commission then s.busErr
  else
    let s := if fget w Fld.HOST_PS_CTRL_WRITE = 1 then s.psWriteReq i else s
    let s := if fget w Fld.HOST_PS_CTRL_READ = 1 then s.psReadReq i else s
    let s := if fget w Fld.HOST_PS_CTRL_COMPACT = 1 then s.psRequest fun s => s.psStart .compact else s
    let s := if fget w Fld.HOST_PS_CTRL_IDENT = 1 then s.psRequest fun s => s.psStart (.write 1 s.identBytes) else s
    if fget w Fld.HOST_PS_CTRL_FIOCFG = 1 then s.psRequest fun s => s.psStart (.write 4 s.fioCfgBytes) else s

/-- PS_WRITE. -/
def execPsWrite (i : Initiator) (w : Word) (s : State) : Host.Outcome State Fault Refusal :=
  .next (s.access HOST_PS_CTRL fun s => s.psCtrlWrite i (fset w Fld.HOST_PS_CTRL_WRITE 1))

/-- PS_READ. -/
def execPsRead (i : Initiator) (w : Word) (s : State) : Host.Outcome State Fault Refusal :=
  .next (s.access HOST_PS_CTRL fun s => s.psCtrlWrite i (fset w Fld.HOST_PS_CTRL_READ 1))

/-- PS_COMPACT. -/
def execPsCompact (i : Initiator) (w : Word) (s : State) : Host.Outcome State Fault Refusal :=
  .next (s.access HOST_PS_CTRL fun s => s.psCtrlWrite i (fset w Fld.HOST_PS_CTRL_COMPACT 1))

/-- PS_IDENT. -/
def execPsIdent (i : Initiator) (w : Word) (s : State) : Host.Outcome State Fault Refusal :=
  .next (s.access HOST_PS_CTRL fun s => s.psCtrlWrite i (fset w Fld.HOST_PS_CTRL_IDENT 1))

/-- PS_FIOCFG. -/
def execPsFiocfg (i : Initiator) (w : Word) (s : State) : Host.Outcome State Fault Refusal :=
  .next (s.access HOST_PS_CTRL fun s => s.psCtrlWrite i (fset w Fld.HOST_PS_CTRL_FIOCFG 1))

/-- The service runs a request: the code, and the state. -/
def State.psRun (s : State) (op : PsOp) : State × Nat :=
  match op with
  | .write key val => s.storeWrite key val
  | .read key a => s.storeServe key a false ((s.versions key).length + 1)
  | .compact => (s.compact, 0)

/-- The next request that waits starts, unless VIN is below VIN_WARN; without one, compaction where a record that was written
left less than 25 % of the store free (R545). -/
def State.psNext (s : State) (written : Bool) : State :=
  let s := match s.boot.psWait with
    | r :: t =>
      if s.pwr.storeBlocked then s
      else
        let s := s.modBoot fun b => { b with ps := some r, psWait := t }
        if r.1 then s.setPsCode 0xFF else s
    | [] => if written ∧ s.storeFree * 4 < 32 * 65536 ∧ !s.pwr.storeBlocked then s.modBoot fun b => { b with ps := some (false, .compact) }
        else s
  s.showCompact

/-- PS_DONE: the request that runs completes; with none running, the first one that waits starts. -/
def execPsDone (s : State) : Host.Outcome State Fault Refusal :=
  match s.boot.ps with
  | none => .next (s.psNext false)
  | some (fw, op) =>
    if !s.domOn domHB then .next s else
    let r := s.psRun op
    let s := r.1.modBoot fun b => { b with ps := none }
    let s := if fw then s.setPsCode r.2 else s
    .next (s.psNext (match op with | .write _ _ => true | _ => false))

/-- VIN falls below VIN_WARN (R543, R515): the record being written completes; a compaction stops, requests that wait are refused. -/
def State.storeBlock (s : State) : State :=
  let fwWaits := s.boot.psWait.any (·.1)
  let s := s.modPwr fun p => { p with storeBlocked := true }
  let s := match s.boot.ps with
    | some (fw, .compact) =>
      let s := s.modBoot fun b => { b with ps := none }
      if fw then s.setPsCode 5 else s
    | _ => s
  let s := if fwWaits then (s.modBoot fun b => { b with psWait := b.psWait.filter (!·.1) }).setPsCode 5 else s
  s.showCompact

/-- Power or the HB island goes while the service writes: some first words of the record reach the array (R539, R544). -/
def State.storeTear (s : State) : State :=
  let s := match s.boot.ps with
    | some (_, .write key val) =>
      let l := recBytes key (s.nextVer key) val
      let s := s.useFree
      ((s.append l (8 * (s.fresh % (l.length / 8)))).getD s).useFree
    | _ => s
  s.modBoot fun b => { b with ps := none, psWait := [] }

/-! ## The NOR service (R535, R536) -/

def State.setNorCode (s : State) (c : Nat) : State :=
  let was := s.fld HOST_NOR_STAT Fld.HOST_NOR_STAT_CODE
  let s := s.setFld HOST_NOR_STAT Fld.HOST_NOR_STAT_CODE c
  if was = 0xFF ∧ c ≠ 0xFF then s.irqPulse 21 else s

/-- Offsets `lo` to `hi` − 1 touch a protected sector. -/
def State.norProtected (s : State) (lo hi : Nat) : Bool :=
  let hit := fun a b => lo / 4096 * 4096 < (b + 4095) / 4096 * 4096 && a / 4096 * 4096 < hi
  (s.boot.record.any fun r => hit r (r + 64)) ||
  (List.range 4).any fun t => (vget s.boot.slot none t).any fun o => hit o (o + 512 + hdrLen (s.norBytes o 512))

/-- A write of HOST_NOR_CTRL. -/
def State.norCtrlWrite (s : State) (i : Initiator) (w : Word) : State :=
  let op := fget w Fld.HOST_NOR_CTRL_OP
  let a := (s.reg HOST_NOR_ADDR).toNat
  let n := if op = 1 then 4096 else (s.reg HOST_NOR_LEN).toNat
  let src := memTarget s.part i (s.reg HOST_NOR_SRC).toNat n
  if op = 0 ∨ op = 3 then s
  else if s.boot.nor.isSome then s.busErr
  else if s.mode ≠ .commission then s.setNorCode 1
  else if s.vinWarn then s.setNorCode 5
  else if norSize < a + n ∨ (op = 1 ∧ a % 4096 ≠ 0) ∨ (op = 2 ∧ (n = 0 ∨ 65536 < n ∨ src = none)) then s.setNorCode 3
  else if s.norProtected a (a + n) then s.setNorCode 2
  else (s.modBoot fun b => { b with nor := some { op := op, addr := a, src := src.getD 0, len := n } }).setNorCode 0xFF

/-- NOR_ERASE. -/
def execNorErase (i : Initiator) (s : State) : Host.Outcome State Fault Refusal :=
  .next (s.access HOST_NOR_CTRL fun s => s.norCtrlWrite i 1)

/-- NOR_PROGRAM. -/
def execNorProgram (i : Initiator) (s : State) : Host.Outcome State Fault Refusal :=
  .next (s.access HOST_NOR_CTRL fun s => s.norCtrlWrite i 2)

/-- Free bytes: the content after a flash error, and where a byte is programmed that was not erased. -/
def State.freeBytes (s : State) (n : Nat) : List Byte := (List.range n).map fun k => BitVec.ofNat 8 (Config.freeNat (s.free + k))

/-- NOR_OP_DONE: the operation completes, with a flash error or without. -/
def execNorOpDone (err : Bool) (s : State) : Host.Outcome State Fault Refusal :=
  match s.boot.nor with
  | none => .next s
  | some o =>
    let fr := s.freeBytes o.len
    let old := s.norBytes o.addr o.len
    let new :=
      if err then fr
      else if o.op = 1 then List.replicate o.len 0xFF
      else (s.storeBytes o.src o.len).zip (old.zip fr) |>.map fun e => if e.2.1 = 0xFF then e.1 else e.2.2
    let s := s.setCells (0x30000000 + o.addr) new
    let s := { s with free := s.free + o.len }
    .next ((s.modBoot fun b => { b with nor := none }).setNorCode (if err then 4 else 0))

/-- HOST_CTRL.VERIFY = 1. -/
def State.verifyStart (s : State) (i : Initiator) : State :=
  if s.boot.verify.isSome then s.busErr
  else (s.setFld HOST_NOR_STAT Fld.HOST_NOR_STAT_VBUSY 1).modBoot fun b => { b with verify := some (i, (s.reg HOST_NOR_SRC).toNat) }

/-- The staged boot record, in tightly coupled RAM or trace memory as the requester addresses it (HOST_NOR_SRC). -/
def State.norStaged (s : State) (i : Initiator) (a : Nat) : Option (List Byte) :=
  if (memTarget s.part i a 64).isSome then s.bytesAt i a 64 else none

/-- VERIFY_DONE: set P of the staged record is checked; a record that cannot be read or is not valid gives code 0x01. -/
def execVerifyDone (s : State) : Host.Outcome State Fault Refusal :=
  match s.boot.verify with
  | none => .next s
  | some r =>
    let c := match s.norStaged r.1 r.2 with
      | some l => if recordOk l then (s.setCode l (lf l 40 1) false).1 else 1
      | none => 1
    let s := (s.setFld HOST_NOR_STAT Fld.HOST_NOR_STAT_VCODE c).setFld HOST_NOR_STAT Fld.HOST_NOR_STAT_VBUSY 0
    .next ((s.modBoot fun b => { b with verify := none }).irqPulse 21)

/-! ## Key slots (R527) -/

/-- Key slots that the booted images use. -/
def State.keysInUse (s : State) : List Nat :=
  (List.range 4).filterMap fun t => (vget s.boot.slot none t).map fun o => hdrKey (s.norBytes o 512)

/-- HOST_KEY_CTRL accepts a value. -/
def State.keyCtrlOk (s : State) (i : Initiator) (w : Word) : Bool :=
  let k := fget w Fld.HOST_KEY_CTRL_SLOT
  let op := fget w Fld.HOST_KEY_CTRL_OP
  s.mode == .commission &&
  (fget w Fld.HOST_KEY_CTRL_GO == 0 ||
    (if op = 1 then (vget s.boot.keys none k).isNone && (s.bytesAt i (s.reg HOST_NOR_SRC).toNat 32).isSome
     else if op = 2 then !s.keysInUse.contains k
     else true))

/-- Program a slot that is empty. -/
def Boot.program (b : Boot) (k hash : Nat) : Boot :=
  if (vget b.keys none k).isSome then b else { b with keys := b.keys.setIfInBounds k (some hash) }

/-- Revoke a slot; nothing takes a revocation back. -/
def Boot.revoke (b : Boot) (k : Nat) : Boot := { b with revoked := b.revoked.setIfInBounds k true }

/-- HOST_KEY_CTRL takes an accepted value. -/
def State.keyCtrlApply (s : State) (i : Initiator) (w : Word) : State :=
  let k := fget w Fld.HOST_KEY_CTRL_SLOT
  let op := fget w Fld.HOST_KEY_CTRL_OP
  let l := (s.bytesAt i (s.reg HOST_NOR_SRC).toNat 32).getD []
  let s := s.setReg HOST_KEY_CTRL w
  if fget w Fld.HOST_KEY_CTRL_GO = 0 then s
  else if op = 1 then s.modBoot fun b => b.program k (beNat l)
  else if op = 2 then s.modBoot fun b => b.revoke k
  else s

/-! ## The boot flow (R528 to R532) -/

/-- SYS_ADDR and ETH_MAC from the IDENT record (R33, R532). -/
def State.applyIdent (s : State) : State :=
  match s.record? 1 with
  | none => s
  | some l =>
    let s := s.setReg SYS_ADDR (BitVec.ofNat 32 (lf l 0 4 &&& 0x80003FFF))
    (s.setReg ETH_MAC_LO (BitVec.ofNat 32 (lf l 4 4))).setReg ETH_MAC_HI (BitVec.ofNat 32 (lf l 8 2))

/-- The FIO configuration from the FIOCFG record, when FI becomes ready (R483). -/
def State.applyFiocfg (s : State) : State :=
  match s.record? 4 with
  | none => s
  | some l => if l.length = 140 then (fioCfgRegs.zipIdx.foldl (fun s e => s.setReg e.1 (BitVec.ofNat 32 (lf l (4 * e.2) 4))) s) else s

/-- A set boots: type, slot and offset of each image. The booted timetable is not copied. -/
def State.install (s : State) (im : List (Nat × Bool × Nat)) : State :=
  let s := im.foldl (fun s e =>
    let s := (s.setFld HOST_BOOT_SET ⟨e.1 - 1, e.1 - 1⟩ (b2n e.2.1)).setFld HOST_BOOT_SET ⟨e.1 + 3, e.1 + 3⟩ 1
    let h := s.norBytes e.2.2 512
    let s := s.setReg (HOST_IMG e.1) (BitVec.ofNat 32 (hdrId h))
    let s := s.modBoot fun b => { b with slot := b.slot.setIfInBounds (e.1 - 1) (some e.2.2) }
    if e.1 = 1 then s.modBoot fun b => { b with abi := lf h 40 2 / 256 } else s) s
  let s := s.applyIdent
  im.foldl (fun s e => if e.1 ≤ 2 then s.svLoad (e.1 - 1) e.2.2 else s) s

/-- The images of a set that have an offset. -/
def setImages (rec : List Byte) (pref : Nat) (f : Bool) : List (Nat × Bool × Nat) :=
  ([1, 2, 3, 4].map fun t => (t, setSlot pref f t, slotOfs rec t (setSlot pref f t))).filter fun e => e.2.2 != noOfs

/-- The images that boot restricted to updating with the type 0x01 image of slot `b` (R531). -/
def State.restricted (s : State) (rec : List Byte) (b : Bool) : List (Nat × Bool × Nat) :=
  ([1, 2, 3].map fun t => (t, b, slotOfs rec t b)).filter fun e => e.2.2 != noOfs && s.imageCode7 e.1 e.2.2 == 0

/-- The type 0x01 image in a slot passes codes 0x02 to 0x07. -/
def State.firmwareOk (s : State) (rec : List Byte) (b : Bool) : Bool :=
  slotOfs rec 1 b != noOfs && s.imageCode7 1 (slotOfs rec 1 b) == 0

/-- Step 5 of Wake: the boot ROM's flow, and whether firmware runs. -/
def State.bootFlow (s : State) : State × Bool :=
  let strap := s.pwr.straps.toNat % 4
  let s := s.modBoot fun b => { b with bad := [], record := s.standing }
  let s := (s.setFld HOST_WIRQ Fld.HOST_WIRQ_BOOT 1).useFree
  let recovery := fun (s : State) => (s.applyIdent.setFld HOST_BOOT_STAT Fld.HOST_BOOT_STAT_RECOVERY 1, false)
  let done := fun (s : State) => (s.setFld HOST_BOOT_STAT Fld.HOST_BOOT_STAT_DONE 1, true)
  if strap = 2 then recovery s else
  match s.boot.record with
  | none => recovery ((s.setFld HOST_BOOT_STAT Fld.HOST_BOOT_STAT_PCODE 1).setFld HOST_BOOT_STAT Fld.HOST_BOOT_STAT_FCODE 1)
  | some r =>
    let br := s.norBytes r 64
    let pref := if strap = 1 then 0xF else lf br 40 1
    let p := s.setCode br pref false
    if p.1 = 0 then done (s.install (setImages br pref false)) else
    let s := (s.setFld HOST_BOOT_STAT Fld.HOST_BOOT_STAT_PCODE p.1).setFld HOST_BOOT_STAT Fld.HOST_BOOT_STAT_PTYPE p.2
    let f := s.setCode br pref true
    if f.1 = 0 then
      done ((s.setFld HOST_BOOT_STAT Fld.HOST_BOOT_STAT_FALLBACK 1).install (setImages br pref true)) else
    let s := (s.setFld HOST_BOOT_STAT Fld.HOST_BOOT_STAT_FCODE f.1).setFld HOST_BOOT_STAT Fld.HOST_BOOT_STAT_FTYPE f.2
    let b := setSlot pref false 1
    if s.firmwareOk br b then
      done ((s.setFld HOST_BOOT_STAT Fld.HOST_BOOT_STAT_RESTRICT 1).install (s.restricted br b))
    else if s.firmwareOk br (!b) then
      done ((s.setFld HOST_BOOT_STAT Fld.HOST_BOOT_STAT_RESTRICT 1).install (s.restricted br (!b)))
    else recovery s

/-! ## HOST registers -/

/-- Fault line FAULT_N (R337). -/
def State.faultLine (s : State) : Bool := !s.fc.pend.isEmpty || s.hwSafeOn

/-- A plain write of a HOST register. -/
def State.hostWrite (s : State) (i : Initiator) (a : Nat) (w : Word) : State :=
  if a = HOST_PS_CTRL then s.psCtrlWrite i w
  else if a = HOST_NOR_CTRL then s.norCtrlWrite i w
  else if a = HOST_WHARF_CFG ∧ fget w Fld.HOST_WHARF_CFG_LAT < 8 then s.busErr
  else s.plainWrite a w

/-- A HOST register as it reads. -/
def State.hostRead (s : State) (a : Nat) : Word :=
  if a = HOST_KEY then
    BitVec.ofNat 32 ((List.range 4).foldl (fun (n : Nat) k =>
      n + b2n (vget s.boot.keys none k).isSome * 2 ^ k + b2n (vget s.boot.revoked false k) * 2 ^ (k + 4)) 0)
  else if a = HOST_WIRQ then
    fset (fset (s.reg a) Fld.HOST_WIRQ_FAULT (b2n s.faultLine)) Fld.HOST_WIRQ_DB (b2n (s.reg HOST_DB_HOST != 0))
  else if a = HOST_PS_FREE then BitVec.ofNat 32 s.storeFree
  else s.reg a

/-- WHARF_INT_N is asserted (R538). -/
def State.wharfInt (s : State) : Bool :=
  let w := (s.hostRead HOST_WIRQ).toNat
  bits w 2 0 &&& bits w 18 16 != 0

end Sys2Proof.Machine
end

