-- ==== Sys2Proof/Machine/Power.lean ====
section
/-! DEFINITION. Supplies, power domains, operating modes, Wake, power-down and the backup domain (R497 to R523), and the restart of
a supervisor pair (R351, R533). -/

namespace Sys2Proof.Machine
open Sys2Proof.Machine.Reg

/-- Sources of unit 0x11 (R500). -/
def vinSrc : Nat := srcId 0x11 0xFE
def vbakSrc : Nat := srcId 0x11 0xFF
def domSrc (i : Nat) : Nat := srcId 0x11 i

/-- A report reaches the collector while its island is on. -/
def State.toCollector (s : State) (f : State → State) : State := if s.domOn domTP then f s else s

/-! ## Supervisor pairs: fault and restart (R341, R351, R533) -/

/-- A contained fault of pair `p`, with a data word: the pair restarts; within 60 s of its restart it is fatal and the pair stays in
reset. -/
def State.svFault (s : State) (p : Nat) (data : Word := 0) (src : Nat := srcId 0x02 p) : State :=
  let again := (s.svAt p).restartedAt.any fun t => s.clock < t + 60000 * msTicks
  let s := s.setSv p { ({} : Sv) with restartedAt := (s.svAt p).restartedAt }
  let s : State := { s with cpArmed := s.cpArmed.filter (·.1 != p) }
  let s := s.clearStage p
  let s := if p = 1 ∧ !again then s.safeLose else s
  if again then s.logFatal src data
  else (s.startTimer (.svRestart p) (15 * msTicks)).logContained src .log [] data

/-- SV_PAIR_FAULT. -/
def execSvPairFault (p : Fin 2) (s : State) : Host.Outcome State Fault Refusal :=
  .next (if s.domOn (domSv p) ∧ (s.svAt p).up then s.svFault p else s)

/-- SV_RESTART_DONE: the firmware is reloaded and starts; a payload that does not match HASH leaves the pair in reset. -/
def execSvRestartDone (p : Fin 2) (s : State) : Host.Outcome State Fault Refusal :=
  if !s.timerOn (.svRestart p) then .next s
  else
    let s := s.stopTimer (.svRestart p)
    match s.svReload p with
    | some s =>
      let s := s.setSv p { s.svAt p with restartedAt := some s.clock }
      .next (if p.val = 1 then s.safeReload (s.record? 2) else s)
    | none => .next (s.logFatal hostSrc)

/-! ## Switching domains (R501, R502, R504) -/

/-- Discard the registers in a range of addresses. -/
def State.dropRegs (s : State) (p : Nat → Bool) : State :=
  { s with regs := s.regs.keep (fun a => !p a), cpDiff := s.cpDiff.keep fun a => !p a }

def inBlock (b : Nat) (a : Nat) : Bool := a / 0x10000 == b

/-- What a domain holds goes with it. -/
def State.dropDomain (s : State) (i : Nat) : State :=
  if i = 2 ∨ i = 3 then
    let p := i - 2
    let s := ((s.setSv p {}).wipe (tcmBase p) (tcmBase p + 0x80000)).stopTimer (.svRestart p)
    if p = 1 then s.setChan false { s.safe.a with val := [], cmp := [] } else s
  else if 5 ≤ i ∧ i < 17 then
    (s.setLe (i - 5) { ({} : Le) with held := (s.leAt (i - 5)).held }).dropRegs fun a => a / 0x100000 == 0x200 + (i - 5)
  else if i = domAQ then ((s.modAcq fun _ => {}).wipe 0x14000000 0x14800000).dropRegs (inBlock 0x400A)
  else if i = domNW then
    let s := (s.modTime fun _ => {}).modEth fun _ => {}
    ((s.stopTimer .switchWindow).stopTimer .holdover).dropRegs fun a => inBlock 0x4005 a || inBlock 0x4006 a
  else if i = domCN then
    ({ s with can := Vector.replicate 2 {} } : State).dropRegs fun a => inBlock 0x4007 a || inBlock 0x4008 a
  else if i = domPS then (s.modPs fun _ => {}).dropRegs (inBlock 0x4009)
  else if 23 ≤ i ∧ i < 29 then
    (List.range 8).foldl (fun s k =>
      let n := 8 * (i - 23) + k
      (((s.setFb n {}).stopTimer (.alRest n)).stopTimer (.alSettle n)).dropRegs fun a =>
        inBlock (0x4010 + n) a && 0x400 ≤ a % 0x10000 && a % 0x10000 < 0x600) s
  else if 29 ≤ i ∧ i < 77 then
    let n := i - 29
    let s := (((s.setAx n {}).stopTimer (.calDecay n)).stopTimer (.pullIn n))
    let s := s.dropRegs fun a => inBlock (0x4010 + n) a && a % 0x10000 < 0x400
    if s.sddOn (n / 4) then s
    else
      ((s.setSdd (n / 4) {}).setLink (n / 4) {}).dropRegs (inBlock (0x4040 + n / 4))
  else if i = domFI then
    ((s.modFio fun _ => {}).dropRegs fun a => inBlock 0x400D a && a != FIO_STAT).setReg FIO_STAT 0
  else s

/-- A domain goes off. -/
def State.domDown (s : State) (i : Nat) : State :=
  (((s.setReady i false).modPwr fun p => { p with starting := p.starting.filter (· != i) })).dropDomain i

/-- What a domain does when it becomes ready (R501, R502, R483). False: it does not become ready. -/
def State.domStart (s : State) (i : Nat) : State × Bool :=
  if 5 ≤ i ∧ i < 17 then
    let r := s.kernelLoad (i - 5)
    if r.2 then (r.1, true) else (r.1.logContained (domSrc i), false)
  else if i = domPS then (s.setFld PS_STAT Fld.PS_STAT_CAL_DONE 1, true)
  else if 23 ≤ i ∧ i < 29 then (s.setFld (EN_GSTAT (8 * (i - 23))) Fld.EN_GSTAT_TDC_OK 1, true)
  else if i = domFI then
    let s := (s.modFio fun f => { f with downAt := s.clock }).applyFiocfg
    ((s.setFld FIO_STAT Fld.FIO_STAT_LINK_OK 1).setFld FIO_STAT Fld.FIO_STAT_FPWR_OK 1, true)
  else (s, true)

/-- Die-link training (R501): both lanes of the link run. DESIGN CHOICE (log entry 251): until the first marker the die's time base
counts from its start. -/
def State.linkTrain (s : State) (d : Nat) : State :=
  let s := (s.setFld (SDD_STAT d) Fld.SDD_STAT_LANE0_UP 1).setFld (SDD_STAT d) Fld.SDD_STAT_LANE1_UP 1
  (s.setLink d { lastAlive := s.clock }).setSdd d { s.sddAt d with marker := some (0, s.clock) }

/-- A channel becomes ready: the first of a die trains its link; the safe states that hold act. -/
def State.axStart (s : State) (n : Nat) : State :=
  let d := n / 4
  let first := (dieAxes d).all fun k => k == n || !s.domOn (domAx k)
  let s := if first && s.part != .la48 then s.linkTrain d else s
  let s := s.stoEval
  if s.hwSafeOn then (s.safeEnter n .hwsafe).setFld (PWM_STAT n) Fld.PWM_STAT_STO 1 else s

/-- A domain becomes ready. With TP or NW the flights are counted from line time as it stands (R41). -/
def State.domUp (s : State) (i : Nat) : State :=
  let s := s.modPwr fun p => { p with starting := p.starting.filter (· != i) }
  let r := s.domStart i
  if r.2 then
    let s := r.1.setReady i true
    let s := if i = domTP ∨ i = domNW then s.numberFlight else s
    if 29 ≤ i ∧ i < 77 then s.axStart (i - 29) else s
  else r.1

/-- Domains that are switched on by a step of Wake or that it requests. -/
def State.wakeDomain (s : State) (i : Nat) : State := if domPresent s.part i then (s.setDomReq i true).domUp i else s

/-- DOMAIN_READY: a domain that was switched on completes its start; a supervisor pair's firmware is reloaded. -/
def execDomainReady (i : Fin 78) (s : State) : Host.Outcome State Fault Refusal :=
  if !s.pwr.starting.contains i.val then .next s
  else
    let s := s.domUp i
    if i.val = 2 ∨ i.val = 3 then
      match s.svReload (i - 2) with
      | some s => .next (if i.val = 3 then s.safeReload (s.record? 2) else s)
      | none => .next (s.logFatal hostSrc)
    else .next s

/-- EN is 1 on a channel of EN_g. -/
def State.groupEn (s : State) (g : Nat) : Bool := (List.range 8).any fun k => 8 * g + k < axisCount s.part && s.en (8 * g + k)

/-- A safety axis of the armed functions names a port of EN_g. -/
def State.groupSafety (s : State) (g : Nat) : Bool :=
  s.armed && (List.range (blkAxes s.block)).any fun a =>
    let c := saxCfg s.block a
    c.srcA / 8 == g || (c.srcB != 0xFF && c.srcB / 8 == g)

/-- LE_n carries planned locks of the active section, or is the spare, while flights run (R501). -/
def State.engineNeeded (s : State) (e : Nat) : Bool :=
  s.running && !s.lost e &&
    ((s.activeSec.locks.any fun (l : LockEntry) => l.engine == e && l.kind == 0) || (s.tt.image.any fun g => g.spare == e))

/-- A trigger or an emulated encoder has EN = 1. -/
def State.psBusy (s : State) : Bool := (List.range 16).any s.trgOn || (List.range 8).any s.emuOn

/-- Domain `i` may be switched off by initiator `w`; `both` says whether the other supervisor pair stays on (R501). -/
def State.mayOff (s : State) (w : Initiator) (i : Nat) (both : Bool) : Bool :=
  if i = 2 ∨ i = 3 then
    s.mode == .hold && both && initNo w != i - 2 && (i == 2 || !(s.armed || s.sdtArmed))
  else if 5 ≤ i ∧ i < 17 then !s.engineNeeded (i - 5)
  else if i = domAQ then !s.acqBusy
  else if i = domNW then s.mode == .hold
  else if i = domCN then !s.sdtArmed && s.fld (CAN_TM_CFG 0) Fld.CAN_TM_CFG_MODE == 0 && s.fld (CAN_TM_CFG 1) Fld.CAN_TM_CFG_MODE == 0
  else if i = domPS then !s.psBusy
  else if 23 ≤ i ∧ i < 29 then !s.groupEn (i - 23) && !s.groupSafety (i - 23)
  else if 29 ≤ i ∧ i < 77 then !s.en (i - 29)
  else if i = domFI then s.mode == .hold && !(s.armed || s.sdtArmed)
  else false

/-- The first domain whose change a value of SYS_PWR_REQ_w may not make (R500, R503). -/
def State.pwrForbidden (s : State) (w : Initiator) (k : Nat) (v : Word) : Option Nat :=
  ((List.range 32).find? fun b =>
    let i := 32 * k + b
    let on := v.toNat.testBit b
    let was := s.domReq i
    on != was &&
      (if on then !domPresent s.part i || i == 0 || i == 1 || i == domTP || i == domHB || i == domSC
       else !s.mayOff w i (s.domOn (5 - i) && v.toNat.testBit (5 - i)))).map (32 * k + ·)

/-- SYS_PWR_REQ_w takes an accepted value: domains go off at once, domains switched on start. -/
def State.pwrApply (s : State) (k : Nat) (v : Word) : State :=
  let was := s.reg (SYS_PWR_REQ k)
  let s := s.setReg (SYS_PWR_REQ k) v
  (List.range 32).foldl (fun s b =>
    let i := 32 * k + b
    if v.toNat.testBit b = was.toNat.testBit b then s
    else if v.toNat.testBit b then s.modPwr fun p => { p with starting := addOnce p.starting i }
    else ((s.domDown i).modPwr fun p => { p with lost := p.lost.filter (· != i) }).cease (domSrc i) 0) s

/-- A refused value of SYS_PWR_REQ_w. -/
def State.pwrRefused (s : State) (i : Nat) : State :=
  (s.setFld SYS_PWR_CODE Fld.SYS_PWR_CODE_ERR 1).setFld SYS_PWR_CODE Fld.SYS_PWR_CODE_DOM i

/-- DOMAIN_LOSS: power-good of a domain drops while it is requested on. -/
def execDomainLoss (i : Fin 78) (s : State) : Host.Outcome State Fault Refusal :=
  let i := i.val
  if i < 2 ∨ !s.domReq i ∨ !s.domOn i ∨ s.pwr.lost.contains i then .next s
  else
    let s := s.modPwr fun p => { p with lost := addOnce p.lost i }
    if 5 ≤ i ∧ i < 17 then .next ((s.engineLost (i - 5) (domSrc i)).domDown i)
    else if i = domTP then .next (s.hwSafe true)
    else if 29 ≤ i ∧ i < 77 then .next ((s.logContained (domSrc i) .safepwm [i - 29] 0 (some 0)).domDown i)
    else if i = domNW then .next (((s.allSafe (.island 0)).logFatal (domSrc i) 0 (some 0)).domDown i)
    else if i = domPS then .next (((s.psStop.allSafe (.island 1)).logFatal (domSrc i) 0 (some 0)).domDown i)
    else if i = domSC then .next ((s.logFatal (domSrc i) 0 (some 0)).domDown i)
    else .next ((s.logContained (domSrc i) .log [] 0 (some 0)).domDown i)

/-! ## What stays without power and through RESET_N (R501, R522, R555) -/

/-- Registers that BK keeps while RV is 1. -/
def bkReg (a : Nat) : Bool := a == SYS_BK_STAT || a == SYS_BK_CFG || a == SYS_RTC_LO || a == SYS_RTC_HI || a == SYS_RTC_ALARM

/-- Registers of AO that stay while AO is in its sleep state. -/
def aoReg (a : Nat) : Bool :=
  inBlock 0x4000 a && a != SYS_MODE && a != SYS_WAKE && a != SYS_MODE_REQ && !(SYS_RAIL_STAT < a && a < SYS_PWR_CODE)

/-- Every domain but BK and AO is off and at its reset values; `ao`: AO keeps its registers. -/
def State.cold (s : State) (ao : Bool) : State :=
  let s := s.storeTear
  let rv := s.flag SYS_BK_STAT Fld.SYS_BK_STAT_RV
  let keep := fun a => (bkReg a && (rv || ao)) || (aoReg a && ao)
  let warn := s.vinWarn
  let t : State := { State.reset with
    part := s.part, pending := s.pending, clock := s.clock, free := s.free, perf := s.perf,
    regs := s.regs.keep keep, cpDiff := s.cpDiff.keep keep,
    mem := Tbl.keep s.mem fun a => (0x1C000000 ≤ a && a < 0x1C200000) || (0x30000000 ≤ a && a < 0x40000000) }
  let t := t.modBoot fun _ =>
    { keys := s.boot.keys, revoked := s.boot.revoked, recs := s.boot.recs, segEnd := s.boot.segEnd, segOpen := s.boot.segOpen }
  let t := t.modPwr fun _ =>
    { ret := s.pwr.ret, rtc := if rv || ao then s.pwr.rtc else 0, vbakLow := s.pwr.vbakLow, straps := s.pwr.straps,
      wakeLand := s.pwr.wakeLand, vinOk := s.pwr.vinOk, storeBlocked := s.pwr.storeBlocked, resetLow := s.pwr.resetLow,
      alarmWaits := s.pwr.alarmWaits }
  let t := t.modSafe fun f => { f with landA := s.safe.landA, landB := s.safe.landB }
  if ao then t
  else (t.setFld SYS_VIN_STAT Fld.SYS_VIN_STAT_WARN (b2n warn)).setFld SYS_VIN_STAT Fld.SYS_VIN_STAT_OV (s.fld SYS_VIN_STAT Fld.SYS_VIN_STAT_OV)

/-! ## Wake (R508 to R510, R514) -/

/-- A wake source acts at VIN_OK: the reference instant. `extra` are the causes beside the WAKE land. -/
def State.wakeUp (s : State) (extra : Nat) : State :=
  if !s.pwr.vinOk then s
  else
    let test := s.pwr.straps.toNat.testBit 3
    let cause := extra ||| b2n s.pwr.wakeLand ||| (b2n s.pwr.alarmWaits * 2)
    let s := s.setReg SYS_MODE (if test then 7 else 1)
    let s := s.setReg SYS_WAKE (BitVec.ofNat 32 (2 ^ 24 * (cause % 16)))
    let s := s.setFld SYS_WAKE Fld.SYS_WAKE_STRAPS s.pwr.straps.toNat
    s.modPwr fun p => { p with inReset := false, wakeAt := s.clock, wakeStep := 0, wakeFailed := false, retDone := false, alarmWaits := false }

/-- The minimum service set, with SV_0 as its pair (R505). -/
def minService (i : Nat) : Bool := i < 2 || i == domHB || i == domTP || i == domSC || i == domSv 0

/-- The first failure of the sequence. -/
def State.wakeCode (s : State) (step code : Nat) : State :=
  if s.fld SYS_WAKE Fld.SYS_WAKE_CODE ≠ 0 then s
  else (s.setFld SYS_WAKE Fld.SYS_WAKE_CODE code).setFld SYS_WAKE Fld.SYS_WAKE_STEP step

/-- A failure in steps 2 to 5 stops the sequence. -/
def State.wakeStop (s : State) (step code : Nat) : State :=
  let s := s.wakeCode step code
  let s := (List.range 78).foldl (fun s i =>
    if !domPresent s.part i ∨ i < 2 then s
    else if minService i then (if s.domOn i then s else s.wakeDomain i)
    else if s.domOn i then (s.domDown i).setDomReq i false else s) s
  s.modPwr fun p => { p with wakeFailed := true }

/-- The retention RAM is trusted, or brought to a valid state (R523). The elapsed motion-degraded time goes on where an engine that it
counts for is lost again, and starts at 0 otherwise (R350). -/
def State.retentionCheck (s : State) : State :=
  let crc := s.ret 62 |>.toNat
  let ok := s.flag SYS_BK_STAT Fld.SYS_BK_STAT_RV && crc + 256 * (s.ret 63).toNat == crc16 (retBytes s.pwr.ret)
  let limit := s.fld FC_DEG Fld.FC_DEG_MD_LIMIT * 60
  let again : Bool := leNat [s.ret 22, s.ret 23] &&& s.fld FC_LOST Fld.FC_LOST_ENG != 0
  let md := if !ok then limit else if again then leNat [s.ret 20, s.ret 21] else 0
  let s := if ok then s else
    let s := (s.setFld SYS_BK_STAT Fld.SYS_BK_STAT_RDATA_INV 1).setFld SYS_BK_STAT Fld.SYS_BK_STAT_HOME_REQ 1
    let s := (s.setFld SYS_BK_STAT Fld.SYS_BK_STAT_RTC_INV 1).setFld SYS_BK_STAT Fld.SYS_BK_STAT_RV 1
    (s.modPwr fun p => { p with ret := [] }).setRet 0 []
  let s := s.modPwr fun p => { p with retDone := true }
  match s.fc.lostEng with
  | none => s.modFc fun f => { f with mdPrior := 0 }
  | some _ =>
    let s := s.modFc fun f => { f with mdPrior := md }
    if s.flag FC_STAT Fld.FC_STAT_MD then
      s.startTimer .mdLimit ((limit - s.mdMinutes) * (60000 * msTicks))
    else s

/-- Wake ends in Hold. -/
def State.wakeEnd (s : State) : State :=
  let s := if s.pwr.retDone then s else s.modFc fun f => { f with mdPrior := if f.lostEng.isSome then s.fld FC_DEG Fld.FC_DEG_MD_LIMIT * 60 else 0 }
  let ms := (s.clock - s.pwr.wakeAt) / msTicks
  let s := s.setFld SYS_WAKE Fld.SYS_WAKE_TIME (Nat.min ms 511)
  s.enterHold.psHold

/-- Domains that a step switches on (R509). -/
def stepDomains (k : Nat) : List Nat :=
  if k = 3 then [domTP, domHB]
  else if k = 4 then [domSC, domSv 0, domSv 1]
  else if k = 6 then [domFI]
  else if k = 7 then (List.range 12).map domLe
  else if k = 8 then (List.range 48).map domAx ++ (List.range 6).map domEn ++ [domPS]
  else if k = 9 then [domAQ, domCN, domNW]
  else []

/-- The code of a failure in a step; the table gives none for steps 6 and 9. -/
def State.stepCode (s : State) (k : Nat) : Nat :=
  if k = 2 then 1 else if k = 3 then 2 else if k = 4 then 3 else if k = 5 then 4 else if k = 7 then 5 else if k = 8 then 6
  else if k = 10 then 8 else if k = 11 then 9 else s.fresh % 256

/-- WAKE_STEP_COMPLETE: the step in progress completes, `ok` without a failure; `bad` are the engines that fail step 7. -/
def execWakeStepComplete (ok : Bool) (bad : List (Fin 12)) (s : State) : Host.Outcome State Fault Refusal :=
  let k := s.pwr.wakeStep + 1
  if s.mode ≠ .wake ∨ s.pwr.inReset ∨ s.pwr.wakeFailed ∨ 12 < k then .next s
  else
    let code := s.stepCode k
    let s := (s.modPwr fun p => { p with wakeStep := k }).useFree
    let s := if s.fld SYS_WAKE Fld.SYS_WAKE_CODE = 0 then s.setFld SYS_WAKE Fld.SYS_WAKE_STEP k else s
    let fails := !ok && k != 1 && k != 12
    if fails ∧ k ≤ 4 then .next (s.wakeStop k code)
    else
      let s := if k = 2 then s.setFld SYS_RAIL_STAT Fld.SYS_RAIL_STAT_OK 0x7F else s
      let s := (stepDomains k).foldl (fun s i => s.wakeDomain i) s
      if k = 5 then
        let r := s.bootFlow
        .next (if r.2 ∧ ok then r.1 else r.1.wakeStop k code)
      else if k = 7 then
        let l := (List.range 12).filter fun e => bad.any fun b => b.val == e
        let s := l.foldl (fun s e => s.engineLost e (srcId 0x01 e)) s
        .next (if l ≠ [] then s.wakeCode k code else s)
      else if k = 11 then
        let s := (s.safeWake (s.record? 2)).sdtWake (s.record? 3)
        let bad := s.fld SAFE_STAT Fld.SAFE_STAT_LOAD_CODE ≠ 0 ∨ s.fld SAFE_SDT_STAT Fld.SAFE_SDT_STAT_LOAD_CODE ≠ 0
        .next (if fails ∨ bad then s.wakeCode k code else s)
      else if k = 12 then .next s.retentionCheck
      else .next (if fails then s.wakeCode k code else s)

/-- WAKE_TIMEOUT: 350 ms since the reference instant. -/
def execWakeTimeout (s : State) : Host.Outcome State Fault Refusal :=
  if s.mode ≠ .wake ∨ s.pwr.inReset ∨ s.clock < s.pwr.wakeAt + 350 * msTicks then .next s
  else .next (s.wakeCode s.pwr.wakeStep 7).wakeEnd

/-! ## Power-down (R515 to R519, R521) -/

/-- The word of bytes 16 to 19 at an event: the cause while the hardware safe state holds. -/
def State.hwLog (s : State) : Nat := if s.hwSafeOn then s.hwWord else 0

/-- Axes whose counts are retained (R521). -/
def State.retainMask (s : State) : Nat := (s.reg SYS_BK_RETAIN_LO).toNat + 2 ^ 32 * ((s.reg SYS_BK_RETAIN_HI).toNat % 65536)

/-- The retained counts. -/
def State.retainCounts (s : State) : State :=
  let m := s.retainMask
  let s := s.setRet 24 (leBytes 8 m)
  s.setRet 64 ((List.range 48).flatMap fun n => leBytes 4 (if m.testBit n then (s.fbAt n).count.toNat % 2 ^ 32 else 0))

/-- Dormant: every domain but BK and AO off; a WAKE land held high wakes the module again. -/
def State.toDormant (s : State) (ao : Bool) : State :=
  let s := (s.cold ao).setReg SYS_MODE 0
  if s.pwr.wakeLand then s.wakeUp 0 else s

/-- The retention write, step 3 of R516; `evt` is the event code. -/
def State.retainAll (s : State) (evt : Nat) : State := (s.powerLog evt 3 0xFF s.hwLog).retainCounts

/-- An orderly power-down has reached step `k` of R516. -/
def State.downReached (s : State) (k : Nat) : Bool := s.pwr.down.any fun d => k ≤ d.step

/-- The emergency power-down: steps 1 to 5 of R516, but for those that an orderly one has done (R519). AO goes off with VIN. -/
def State.powerDown (s : State) : State := (if s.downReached 3 then s else s.retainAll 2).toDormant false

/-- An orderly power-down begins with step 1 of R516: EN cleared, both paths asserted on every group. -/
def State.orderlyDown (s : State) : State :=
  (s.clearAllEn.modPwr fun p => { p with down := some { step := 1, at_ := s.clock } }).stoEval

/-- Ticks from the request to the end of a step of R516. DESIGN CHOICE (log entry 261): each step of an orderly power-down takes its maximum. -/
def downTicks (k : Nat) : Nat :=
  if k = 2 then 100 * usTicks else if k = 3 then 110 * usTicks else if k = 4 then 2 * msTicks else 2 * msTicks + 100 * usTicks

/-- Domains in the order of step 4. -/
def downOrder : List Nat :=
  (List.range 48).map domAx ++ (List.range 6).map domEn ++ [domPS, domAQ, domCN, domNW] ++ (List.range 12).map domLe ++
    [domSv 0, domSv 1, domSC, domTP, domHB]

/-- The next step of an orderly power-down, once its time has come: field outputs and FI off; the retention write; the other domains off;
the rails off. The hardware safe state freezes it. -/
def State.downStep (s : State) : State :=
  match s.pwr.down with
  | none => s
  | some d =>
    let k := d.step + 1
    if s.hwSafeOn ∨ s.clock < d.at_ + downTicks k then s
    else
      let s := s.modPwr fun p => { p with down := some { d with step := k } }
      if k = 2 then s.domDown domFI
      else if k = 3 then s.retainAll 1
      else if k = 4 then downOrder.foldl (fun s i => if s.domOn i then s.domDown i else s) s
      else s.toDormant true

/-- SAFE_N is low (R338, R506, R508, R516). -/
def State.safeLine (s : State) : Bool :=
  s.hwSafeOn || s.pwr.inReset || s.pwr.down.isSome || s.mode == .dormant || s.mode == .wake || s.mode == .hold || s.mode == .test

/-! ## VIN, rails, VBAK (R497 to R499) -/

/-- The measured VIN, in mV; VIN_OK follows it. -/
def State.vinSet (s : State) (mv : Nat) : State :=
  let s := s.setFld SYS_VIN_STAT Fld.SYS_VIN_STAT_MV (mv / 10)
  s.modPwr fun p => { p with vinOk := if 4300 ≤ mv then true else if mv < 4200 then false else p.vinOk }

/-- VIN_WARN in mV. -/
def State.warnMv (s : State) : Nat := 100 * s.fld SYS_VIN_CFG Fld.SYS_VIN_CFG_WARN

/-- The module is in Dormant. -/
def State.asleep (s : State) : Bool := s.mode == .dormant && !s.pwr.inReset

/-- VIN_OK_RISE: VIN rises through VIN_OK. BK is fed from VBKI again. -/
def execVinOkRise (mv : BitVec 16) (s : State) : Host.Outcome State Fault Refusal :=
  if s.pwr.vinOk ∨ mv.toNat < 4300 then .next s
  else
    let s := (s.vinSet mv.toNat).setFld SYS_BK_STAT Fld.SYS_BK_STAT_SRC 0
    if s.pwr.inReset then .next (if s.pwr.resetLow then s else s.wakeUp 4)
    else if !s.asleep then .next s
    else
      let auto := s.flag SYS_BK_CFG Fld.SYS_BK_CFG_AUTO
      .next (if auto ∨ s.pwr.wakeLand ∨ s.pwr.alarmWaits then s.wakeUp (if auto then 8 else 0) else s)

/-- VIN_WARN: VIN falls below its threshold. -/
def execVinWarn (mv : BitVec 16) (s : State) : Host.Outcome State Fault Refusal :=
  if s.vinWarn ∨ s.warnMv ≤ mv.toNat ∨ s.asleep then .next s
  else
    let s := s.vinSet mv.toNat
    let s := (s.setFld SYS_VIN_STAT Fld.SYS_VIN_STAT_WARN 1).setFld SYS_VIN_STAT Fld.SYS_VIN_STAT_WARN_S 1
    let s := s.storeBlock
    .next (s.toCollector fun s =>
      if s.flag SYS_VIN_CFG Fld.SYS_VIN_CFG_WARN_ACT then s.logContained vinSrc .sstop [] 0 (some 0) else s.logCorrected vinSrc)

/-- VIN_WARN_CLEAR: VIN rises above VIN_WARN + 0.1 V. -/
def execVinWarnClear (mv : BitVec 16) (s : State) : Host.Outcome State Fault Refusal :=
  if !s.vinWarn ∨ mv.toNat ≤ s.warnMv + 100 then .next s
  else
    let s := (s.vinSet mv.toNat).setFld SYS_VIN_STAT Fld.SYS_VIN_STAT_WARN 0
    .next ((s.modPwr fun p => { p with storeBlocked := false }).cease vinSrc 0)

/-- VIN_UV: the emergency power-down. AO goes off with VIN. -/
def execVinUv (mv : BitVec 16) (s : State) : Host.Outcome State Fault Refusal :=
  if 3900 ≤ mv.toNat then .next s
  else if s.asleep then .next ((s.vinSet mv.toNat).setFld SYS_BK_STAT Fld.SYS_BK_STAT_SRC 1)
  else
    let s := s.vinSet mv.toNat
    .next (s.powerDown.setFld SYS_BK_STAT Fld.SYS_BK_STAT_SRC 1)

/-- VIN_OV: VIN rises through 30.0 V. -/
def execVinOv (mv : BitVec 16) (s : State) : Host.Outcome State Fault Refusal :=
  if s.flag SYS_VIN_STAT Fld.SYS_VIN_STAT_OV ∨ mv.toNat ≤ 30000 ∨ s.asleep then .next s
  else
    let s := s.vinSet mv.toNat
    let s := (s.setFld SYS_VIN_STAT Fld.SYS_VIN_STAT_OV 1).setFld SYS_VIN_STAT Fld.SYS_VIN_STAT_OV_S 1
    .next (s.toCollector fun s => s.logContained vinSrc .sstop [] 0 (some 1))

/-- VIN_OV_CLEAR: VIN falls below 29.5 V. -/
def execVinOvClear (mv : BitVec 16) (s : State) : Host.Outcome State Fault Refusal :=
  if !s.flag SYS_VIN_STAT Fld.SYS_VIN_STAT_OV ∨ 29500 ≤ mv.toNat then .next s
  else .next (((s.vinSet mv.toNat).setFld SYS_VIN_STAT Fld.SYS_VIN_STAT_OV 0).cease vinSrc 1)

/-- RAIL_FAIL: the power manager jumps to the final state; only the power log is written, with the step that an orderly power-down had
reached (R518, R519). -/
def execRailFail (r : Fin 6) (s : State) : Host.Outcome State Fault Refusal :=
  if s.asleep then .next s
  else
    let s := match s.pwr.down with
      | some d => s.powerLog 3 d.step r s.hwLog
      | none => s.powerLog 4 0 r s.hwLog
    let s := s.setFld SYS_RAIL_STAT ⟨16 + r, 16 + r⟩ 1
    .next (((s.toDormant true).setFld SYS_RAIL_STAT Fld.SYS_RAIL_STAT_OK 0))

/-- VBAK_LOW: the voltage of VBAK as the module compares it with 2.2 V; one report per crossing, while VIN is present. -/
def execVbakLow (mv : BitVec 16) (s : State) : Host.Outcome State Fault Refusal :=
  if 2200 ≤ mv.toNat then .next (s.modPwr fun p => { p with vbakLow := false })
  else if s.pwr.vbakLow ∨ !s.pwr.vinOk then .next s
  else
    let s := (s.modPwr fun p => { p with vbakLow := true }).setFld SYS_BK_STAT Fld.SYS_BK_STAT_VBAK_LOW 1
    .next (s.toCollector fun s => s.logCorrected vbakSrc)

/-- BK_SUPPLY_DIP: the BK supply falls below the threshold of RV; `deep`: below 1.2 V, where the RAM and the RTC lose their
content. -/
def execBkSupplyDip (deep : Bool) (s : State) : Host.Outcome State Fault Refusal :=
  let s := s.setFld SYS_BK_STAT Fld.SYS_BK_STAT_RV 0
  if !deep then .next s
  else
    let l := s.freeBytes 256
    let t := (l.zipIdx.foldl (fun t e => Tbl.put 0 t e.2 e.1) ([] : Tbl Byte))
    let s := s.modPwr fun p => { p with ret := t, rtc := Config.freeNat (s.free + 256) % 2 ^ 48 }
    .next { s with free := s.free + 257 }

/-! ## Reset (R508, R555) -/

/-- RESET_N acts: outputs safe, the power log, every domain but BK and AO off. -/
def State.resetAct (s : State) : State :=
  let s := s.powerLog 6 1 0xFF s.hwLog
  (s.cold false).modPwr fun p => { p with inReset := true }

/-- RESET_N_ASSERT: RESET_N low for 1 µs. -/
def execResetNAssert (s : State) : Host.Outcome State Fault Refusal :=
  let s := s.modPwr fun p => { p with resetLow := true }
  .next (if s.asleep ∨ s.pwr.inReset then s else s.resetAct)

/-- RESET_N_RELEASE: the straps are sampled as the lands stand. -/
def execResetNRelease (straps : BitVec 4) (s : State) : Host.Outcome State Fault Refusal :=
  let s := s.modPwr fun p => { p with straps := straps }
  if !s.pwr.resetLow then .next s
  else
    let s := s.modPwr fun p => { p with resetLow := false }
    .next (if s.pwr.inReset ∨ s.asleep then s.wakeUp 4 else s)

/-- A write of HOST_CTRL: accepted in Hold and Commission. -/
def State.hostCtrlWrite (s : State) (i : Initiator) (w : Word) : State :=
  if s.mode ≠ .hold ∧ s.mode ≠ .commission then s.busErr
  else
    let s := if fget w Fld.HOST_CTRL_VERIFY = 1 then s.verifyStart i else s
    if fget w Fld.HOST_CTRL_REBOOT = 1 then s.resetAct.wakeUp 4 else s

/-- VERIFY. -/
def execVerify (i : Initiator) (w : Word) (s : State) : Host.Outcome State Fault Refusal :=
  .next (s.access HOST_CTRL fun s => s.hostCtrlWrite i (fset w Fld.HOST_CTRL_VERIFY 1))

/-- REBOOT. -/
def execReboot (i : Initiator) (w : Word) (s : State) : Host.Outcome State Fault Refusal :=
  .next (s.access HOST_CTRL fun s => s.hostCtrlWrite i (fset w Fld.HOST_CTRL_REBOOT 1))

/-! ## WAKE, RTC (R514, R520) -/

/-- WAKE_LAND: the level of the WAKE land. -/
def execWakeLand (level : Bool) (s : State) : Host.Outcome State Fault Refusal :=
  let s := s.modPwr fun p => { p with wakeLand := level }
  .next (if level ∧ s.asleep then s.wakeUp 0 else s)

/-- RTC_ALARM: RTC bits 46:15 equal SYS_RTC_ALARM. -/
def execRtcAlarm (s : State) : Host.Outcome State Fault Refusal :=
  if s.rtcSeconds ≠ (s.reg SYS_RTC_ALARM).toNat then .next s
  else
    let s := s.setFld SYS_BK_STAT Fld.SYS_BK_STAT_ALARM 1
    if !s.asleep ∨ !s.flag SYS_BK_CFG Fld.SYS_BK_CFG_ALARM_EN then .next s
    else .next ((s.modPwr fun p => { p with alarmWaits := true }).wakeUp 2)

/-- Key of a word that waits for its partner, per initiator. -/
def holdKey (i : Initiator) (a : Nat) : Nat := 2 ^ 32 * initNo i + a

/-- A write of SYS_RTC_LO waits for the write of HI. -/
def State.rtcLoWrite (s : State) (i : Initiator) (w : Word) : State :=
  { s with loHold := Tbl.insert s.loHold (holdKey i SYS_RTC_LO) w }

/-- A write of SYS_RTC_HI loads both halves; without a LO written before it, the low half stays. -/
def State.rtcHiWrite (s : State) (i : Initiator) (w : Word) : State :=
  let k := holdKey i SYS_RTC_LO
  let lo := match Tbl.find? s.loHold k with
    | some v => v.toNat
    | none => s.pwr.rtc % 2 ^ 32
  let s : State := { s with loHold := Tbl.erase s.loHold k }
  s.modPwr fun p => { p with rtc := lo + 2 ^ 32 * (w.toNat % 65536) }

/-- RTC_HI_WRITE. -/
def execRtcHiWrite (i : Initiator) (w : Word) (s : State) : Host.Outcome State Fault Refusal :=
  .next (s.access SYS_RTC_HI fun s => s.rtcHiWrite i w)

/-- A read of SYS_RTC_LO latches SYS_RTC_HI. -/
def State.rtcLoRead (s : State) (i : Initiator) : State :=
  let s : State := { s with hiLatch := Tbl.put 0 s.hiLatch (holdKey i SYS_RTC_HI) (BitVec.ofNat 32 (s.pwr.rtc / 2 ^ 32)) }
  s.answer (.data (BitVec.ofNat 32 s.pwr.rtc))

/-- SYS_RTC_LO. -/
def execSysRtcLo (i : Initiator) (s : State) : Host.Outcome State Fault Refusal :=
  .next (if s.reachable SYS_RTC_LO then s.rtcLoRead i else s.answer (.data 0))

/-- Crystal periods that end with a tick of 4 ns, counted from reset. -/
def rtcTicks (c : Nat) : Nat := (c + 1) * 4096 / 31250000 - c * 4096 / 31250000

/-- The RTC counts on through a tick. -/
def Pwr.rtcTick (p : Pwr) (c : Nat) : Pwr := { p with rtc := (p.rtc + rtcTicks c) % 2 ^ 48 }

/-! ## Modes (R507, R508, R511) -/

/-- The first condition of R511 that is not met, 0 where all are. -/
def State.runMissing (s : State) : Nat :=
  let limit := s.fld FC_DEG Fld.FC_DEG_MD_LIMIT * 60
  if !s.flag TT_STATUS Fld.TT_STATUS_LOADED || !s.running || s.flag HOST_BOOT_STAT Fld.HOST_BOOT_STAT_RESTRICT ||
      s.flag HOST_BOOT_STAT Fld.HOST_BOOT_STAT_TT_FOREIGN then 1
  else if s.fc.double || (s.fc.lostEng.isSome && limit ≤ s.mdMinutes) then 2
  else if s.flag FC_STAT Fld.FC_STAT_FATAL then 3
  else if !s.armed || (s.safe.sdtConf && !s.sdtArmed) then 4
  else if !([1, domHB, domTP, domSC, domSv 0, domSv 1, domNW, domFI].all s.domOn) then 5
  else if !((List.range 12).all fun e => !s.engineNeeded e || s.domOn (domLe e)) then 6
  else if s.vinWarn then 7
  else if !s.flag SYS_ADDR Fld.SYS_ADDR_VALID then 8
  else 0

/-- Run, or Degraded while the motion-degraded time is not 0. -/
def State.runMode (s : State) : Mode :=
  if s.flag FC_STAT Fld.FC_STAT_MD ∨ 0 < s.mdMinutes then .degraded else .run

/-- A request for Run is judged by R511. -/
def State.requestRun (s : State) : State :=
  let m := s.runMissing
  let s := s.setFld SYS_MODE Fld.SYS_MODE_MISSING m
  if m ≠ 0 then s.setReqCode 2 else (s.setMode s.runMode).setReqCode 0

/-- A mode request takes effect (R507, R508). -/
def State.modeDecide (s : State) (m : Nat) : State :=
  let s := s.modPwr fun p => { p with modeReq := none }
  if s.hwSafeOn then s.setReqCode 4
  else if s.pwr.down.isSome then s.setReqCode 1
  else if s.mode = .safeStop then s.setReqCode 3
  else if !s.domOn domSC then s.setReqCode 1
  else if m = 0 then
    if s.mode = .hold then (s.setReqCode 0).orderlyDown else s.setReqCode 1
  else if m = 2 then
    if s.mode = .commission then s.setReqCode 0
    else if s.mode ≠ .hold then s.setReqCode 1
    else if s.vinWarn then s.setReqCode 5
    else (s.setMode .commission).setReqCode 0
  else if m = 3 then
    if s.mode = .run ∨ s.mode = .degraded ∨ s.mode = .commission then (s.enterSafeStop).setReqCode 0
    else if s.mode = .hold then s.setReqCode 0
    else if s.mode = .wake ∧ (11 ≤ s.pwr.wakeStep ∨ s.pwr.wakeFailed) then
      let s := if s.pwr.wakeStep = 11 ∧ ¬ s.pwr.wakeFailed then
          (s.modPwr fun p => { p with wakeStep := 12 }).retentionCheck
        else s
      s.wakeEnd.setReqCode 0
    else s.setReqCode 1
  else if m = 4 then
    if s.mode = .run then s.setReqCode 0
    else if s.mode = .hold ∨ s.mode = .commission then s.requestRun
    else s.setReqCode 1
  else s.setReqCode 1

/-- SYS_MODE_REQ takes a value: a request waits for the next flight boundary, or is judged at once without flights. -/
def State.modeReqApply (s : State) (w : Word) : State :=
  let s := s.setReg SYS_MODE_REQ w
  if fget w Fld.SYS_MODE_REQ_GO = 0 then s
  else
    let m := fget w Fld.SYS_MODE_REQ_MODE
    let s := s.setReqCode 0xFF
    if s.running then s.modPwr fun p => { p with modeReq := some m } else s.modeDecide m

/-- SYS_ADDR accepts a value in Wake, Commission and Hold (R33). -/
def State.addrOk (s : State) : Bool := s.mode == .wake || s.mode == .commission || s.mode == .hold

/-! ## SYS registers -/

/-- A byte of the retention RAM is firmware's. -/
def retOwn (k : Nat) : Bool := 32 ≤ k && k < 48

/-- A write of `n` bytes of SYS_RET from byte `k`: the bytes that are the module's ignore it. -/
def State.retWrite (s : State) (k n w : Nat) : State :=
  ((leBytes n w).zipIdx k).foldl (fun s e => if retOwn e.2 then s.setRet e.2 [e.1] else s) s

/-- A plain write of a SYS register. -/
def State.sysWrite (s : State) (i : Initiator) (a : Nat) (w : Word) : State :=
  if a = SYS_VIN_CFG then
    let v := fget w Fld.SYS_VIN_CFG_WARN
    if v < 44 ∨ 240 < v then s.busErr else s.plainWrite a w
  else if a = SYS_RTC_LO then s.rtcLoWrite i w
  else if a = SYS_RTC_HI then s.rtcHiWrite i w
  else if a = SYS_BK_RETAIN_HI then s.plainWrite a (w &&& 0xFFFF)
  else s.plainWrite a w

/-- A read of a SYS register. -/
def State.sysRead (s : State) (i : Initiator) (a : Nat) : State :=
  if a = SYS_RTC_LO then s.rtcLoRead i
  else if a = SYS_RTC_HI then s.answer (.data (Tbl.get 0 s.hiLatch (holdKey i SYS_RTC_HI)))
  else if 0x40000100 ≤ a ∧ a < 0x40000200 then
    let k := a - 0x40000100
    s.answer (.data (BitVec.ofNat 32 (leNat [s.ret k, s.ret (k + 1), s.ret (k + 2), s.ret (k + 3)])))
  else s.answer (.data (s.reg a))

end Sys2Proof.Machine
end

