-- ==== Sys2Proof/Machine/Flight.lean ====
section
/-! DEFINITION. The flight boundary (R34, R35, R41, R59, R76, R82, R86, R434, R508, R587): what every unit does at it. -/

namespace Sys2Proof.Machine
open Sys2Proof.Machine.Reg

/-- The flight that begins is the first one of a voyage (R41). -/
def State.voyageStart (s : State) : Bool := s.tt.flightNo % s.grid.2.2 == 0

/-- The boundary markers (R23): each die whose link runs aligns its time base to line time. -/
def State.sendMarkers (s : State) : State :=
  s.each (sddCount s.part) fun s d =>
    if s.sddOn d && s.lanesUp d then s.setSdd d { s.sddAt d with marker := some (s.ticks, s.clock) } else s

/-! ## Reservations open (R70, R72, R121, R231, R341) -/

/-- The reaction to a port that no plane reaches any more is that to the loss of the unit behind it (R341), once. `own` is the lock whose
reservation finds it. -/
def State.portLost (s : State) (p : Nat) (own : Option LockEntry) : State :=
  let src := srcId 0x04 p
  if s.fc.conds.contains (src, 2) then s
  else if p < 12 then (if s.lost p then s else s.engineLost p src)
  else if p = 12 ∨ p = 13 then (if (s.svAt (p - 12)).up then s.svFault (p - 12) 0 src else s)
  else if p = 14 then s.report { src := src, cls := .contained, react := .sstop, cond := some 2 }
  else if p = 15 then s.report { src := src, cls := .contained, react := .hwsafe, cond := some 2 }
  else if 16 ≤ p ∧ p < 28 then
    (s.eachDieAxis (p - 16) fun s n => s.calAbort n 0x15).logContained src .safepwm (dieAxes (p - 16)) 0 (some 2)
  else if p = 28 then s.logContained src .axstop (own.toList.map LockEntry.axis) 0 (some 2)
  else if p = 29 then
    (s.modTt fun t => { t with stale := own.toList.foldl (fun l k => addOnce l k.id) t.stale }).logContained src .log [] 0 (some 2)
  else if p = 30 then (s.psStop.allSafe (.island 1)).report { src := src, cls := .contained, react := .sstop, cond := some 2 }
  else if p = 32 then (s.allSafe (.island 0)).report { src := src, cls := .contained, react := .sstop, cond := some 2 }
  else s.logContained src .log [] 0 (some 2)

/-- The ports of a reservation that no plane reaches: those with both planes marked faulty, else the receiving one (log entry 250). -/
def State.portsCut (s : State) (r : ResEntry) : List Nat :=
  let cut := [r.src, r.dst].filter fun p => s.badPlane p false && s.badPlane p true
  if cut.isEmpty then [r.dst] else cut

/-- The status word of a queue's delivery and its successor (R231): the first queued barge. -/
def State.delivery (s : State) (q : Nat) : List W64 :=
  let x := s.queueAt q
  let d : Option Desc := x.queued.head?.map s.desc
  let due : Bool := d.any fun d => decide (dStart d = 0 ∨ (dStart d : Int) ≤ s.boundaryOf s.tt.flightNo)
  let st : Nat := (d.map dSeq).getD 0 + 2 ^ 16 * b2n d.isSome + 2 ^ 17 * b2n due + 2 ^ 18 * b2n x.stopped +
    2 ^ 19 * s.qcfg q Fld.BASIN_Q_CFG_FOLLOW + 2 ^ 20 * b2n x.queued.isEmpty
  BitVec.ofNat 64 st :: (List.range 8).map fun j => BitVec.ofNat 64 ((d.getD 0).toNat >>> (64 * j))

/-- The axis whose slow lock reads the delivery at the reservation's first entry: the word MBX of its state region names the entry
(R259). -/
def State.deliveryAxis (s : State) (r : ResEntry) : Option Nat :=
  (s.activeSec.locks.find? fun (l : LockEntry) =>
    let b := if l.entry = 0x8380 ∨ l.entry = 0x8400 then l.stateBase else l.stateBase + 64
    l.engine == r.dst && l.kind == 0 && l.axis < 64 && (s.leWord r.dst ((b + 1) % 16384)).toNat % 256 == r.tag % 256).map LockEntry.axis

/-- The basin delivers as its reservation opens (R231): nine values with their complements. A successor whose CRC does not match is not
delivered; its queue stops (R341). -/
def State.deliver (s : State) (i : Nat) (r : ResEntry) : State :=
  if r.src ≠ 28 ∨ 12 ≤ r.dst then s
  else match s.deliveryAxis r with
    | none => s
    | some q =>
      if (s.queueAt q).queued.head?.any fun k => !dCrcOk (s.desc k) then s.logContained (basinSrc q) .axstop [q]
      else
        let l := (s.delivery q).flatMap fun v => [v, ~~~v]
        s.modTow fun t => { t with out := t.out.filter (fun o => o.1 != i) ++ l.zipIdx.map fun f => (i, f.2, f.1) }

/-- RESERVATION_OPEN: at its SLOT a reservation of the running section opens at its two ports. -/
def execReservationOpen (r : Nat) (s : State) : Host.Outcome State Fault Refusal :=
  match s.resAt r, s.tt.image with
  | some e, some g =>
    let c := s.activeSec
    let ph := c.resPhase r e
    let own := c.owner r
    let lostOwner : Bool := match own with
      | some l => s.lost l.engine || s.tt.blocked.contains l.id
      | none => false
    if !s.running || s.tt.stepped || !inVoyage ph.1 ph.2 (s.tt.flightNo % g.voyage) || lostOwner || s.tow.opened.any (·.idx == r) then .next s
    else
      let u := s.entryUse true r
      if !u.2 then .next u.1 else
      let s := u.1
      let o : OpenRes := { idx := r, res := e, tokens := e.flits, refused := !s.joined e }
      let s := s.modTow fun t => { t with opened := t.opened ++ [o] }
      let s := if e.dst < 12 then
          let x := s.leAt e.dst
          s.setLe e.dst { x with mvalid := (covered e).foldl (fun t k => Tbl.put false t k false) x.mvalid }
        else s
      .next (if s.joined e then s.deliver r e else (s.portsCut e).foldl (fun s p => s.portLost p own) s)
  | _, _ => .next s

/-! ## The boundary, unit by unit -/

/-- Each sender's VC_0 credits are checked and reset (R76); the first sendings of the flight that ended are shown. -/
def State.portBoundary (s : State) (p : Nat) : State :=
  if !portPresent s.part p then s
  else
    let s := s.setFld (TOW_PORT_STAT p) Fld.TOW_PORT_STAT_FLITS_LAST (Nat.min (Tbl.get 0 s.tow.sentNow p) 65535)
    if s.fld (TOW_PORT_CRED p) Fld.TOW_PORT_CRED_VC0 = 8 then s
    else
      let s := (s.setFld (TOW_PORT_STAT p) Fld.TOW_PORT_STAT_CREDIT_ERR 1).setFld (TOW_PORT_CRED p) Fld.TOW_PORT_CRED_VC0 8
      s.logContained (srcId 0x04 p)

/-- Mode changes that fall on a boundary: a request, the end of Safe Stop (R507, R508). -/
def State.modeBoundary (s : State) : State :=
  let safe := s.mode == .safeStop && s.allSto
  let s := match s.pwr.modeReq with
    | some m => s.modeDecide m
    | none => s
  if safe then s.enterHold.psHold else s

/-- An alternate that is pending becomes active (R82, R86). -/
def State.alternate (s : State) : State :=
  match s.tt.altReal with
  | some (k, t) => if t ≤ s.ticks then s.activate k true else s
  | none =>
    match s.tt.altForced with
    | some k => s.activate k false
    | none => s

/-- RUNNING (R59). DESIGN CHOICE (log entry 247): RUN and NW count as they stand at the boundary: RUN written 0 and back to 1, or NW off and on
again, before it leaves RUNNING at 1. -/
def State.runBoundary (s : State) : State :=
  let want := s.flag TT_CTRL Fld.TT_CTRL_RUN && s.flag TT_STATUS Fld.TT_STATUS_LOADED && s.domOn domNW && s.tt.loading.isNone
  if want == s.running then s
  else if want then s.setFld TT_STATUS Fld.TT_STATUS_RUNNING 1
  else
    let s := (s.setFld TT_STATUS Fld.TT_STATUS_RUNNING 0).acqRunFall
    if s.tt.loading.isSome then s.unload else s

/-- An armed swap is made at a flight boundary, or with AT = 1 at a voyage boundary (R80). -/
def State.swapBoundary (s : State) : State :=
  if s.flag TT_SWAP Fld.TT_SWAP_ARM ∧ (s.fld TT_SWAP Fld.TT_SWAP_AT = 0 ∨ s.voyageStart) then s.swapNow else s

/-- What a voyage boundary resets: the CRC error counts of the planes (R341), the continuation window (R349). -/
def State.voyageBoundary (s : State) : State :=
  if !s.voyageStart then s
  else
    let s := s.modTow fun t => { t with errA := [], errB := [] }
    if !s.fc.window || !s.fc.activated then s
    else if s.fc.voyages = 0 then s.modFc fun f => { f with voyages := 1 }
    else (s.modFc fun f => { f with window := false, voyages := 2 }).setFld FC_STAT Fld.FC_STAT_WINDOW 0

/-- A step of line time that waits (R434). -/
def State.stepBoundary (s : State) : State :=
  match s.time.step with
  | none => s.modTt fun t => { t with stepped := false }
  | some d => (((s.stepLine d).modTt fun t => { t with stepped := true }).numberFlight).psLineStep d

/-- FLIGHT_BOUNDARY: it falls where the tick count of line time reaches a boundary of the grid, once (R34). -/
def execFlightBoundary (s : State) : Host.Outcome State Fault Refusal :=
  if !s.boundaryDue then .next s
  else
    let s := s.numberFlight
    let s := (s.each 48 fun s p => s.portBoundary p).each (sddCount s.part) fun s d => s.linkBoundary d
    let s := s.modTow fun t => { t with sentNow := [] }
    let s := s.voyageBoundary
    let s := s.modeBoundary
    if s.mode = .dormant then .next s
    else
      let s := s.runBoundary.alternate.swapBoundary
      let s := if s.time.step.isSome then s else s.sendMarkers
      let s := s.each (axisCount s.part) fun s n => (s.axisFlight n).fbBoundary n
      let s := s.basinBoundary.psBoundary
      .next s.stepBoundary

end Sys2Proof.Machine
end

