-- ==== Sys2Proof/Machine/Bus.lean ====
section
/-! DEFINITION. Register and memory accesses of the initiators (R5, R8 to R13, R126, R127, R222, R340, R396, R420, R546 to R556, R593):
complement pairs, what each register does when it is read or written, the memories. -/

namespace Sys2Proof.Machine
open Sys2Proof.Machine.Reg

/-! ## Complement-pair registers (R9 to R12, R593) -/

/-- The word at an address is the value word of a CP register. -/
def isCp (a : Nat) : Bool := (regDef a).any (·.isCp)

/-- The word at an address is the complement word of a CP register. -/
def isCpc (a : Nat) : Bool := decide (4 ≤ a) && isCp (a - 4)

/-- The bits that a CP register holds; reserved bits read 0 (R13). -/
def cpBits (a : Nat) : Word :=
  match regDef a with
  | some d => BitVec.ofNat 32 d.cp
  | none => 0

/-- Axis, safety-axis or die number of a per-instance block. -/
def axisOf (a : Nat) : Nat := a / 0x10000 - 0x4010
def dieOf (a : Nat) : Nat := a / 0x10000 - 0x4040

/-- Source of the unit that owns a block with CP registers (R335, R340). -/
def cpSource (a : Nat) : Nat :=
  let b := a / 0x10000
  if b = 0x4000 then srcId 0x11 1
  else if b = 0x4002 then srcId 0x05 0xFF
  else if b = 0x4005 then srcId 0x0D 0
  else if b = 0x400C then srcId 0x03 0
  else if b = 0x400D then srcId 0x0F 0xFF
  else if b = 0x400E then srcId 0x10 0
  else if b < 0x4040 then if 0x400 ≤ a % 0x10000 then srcId 0x0A (axisOf a) else srcId 0x09 (axisOf a)
  else srcId 0x08 (dieOf a)

/-- A stored pair that disagrees (R12, R340): the reaction goes by the block. -/
def State.cpDisagree (s : State) (a : Nat) : State :=
  let b := a / 0x10000
  if b = 0x4001 then s.hwSafe false
  else if b = 0x400C then s.logContained (cpSource a) .sstop
  else if 0x4010 ≤ b ∧ b < 0x4040 then s.logContained (cpSource a) .safepwm [axisOf a]
  else if 0x4040 ≤ b then s.logContained (cpSource a) .safepwm (dieAxes (dieOf a))
  else s.logContained (cpSource a)

/-- The stored complement of a CP register. -/
def State.complement (s : State) (a : Nat) : Word := ~~~(s.reg a) ^^^ Tbl.get 0 s.cpDiff a

/-- A read of a CP register at value address `a`: the stored value, or the stored complement. -/
def State.cpReadWord (s : State) (a : Nat) (compl : Bool) : State :=
  if !s.powered .block a then if a / 0x10000 = 0x400D then s.busErr else s.answer (.data 0)
  else
    let s := s.answer (.data (if compl then s.complement a else s.reg a))
    if Tbl.get 0 s.cpDiff a = 0 then s else s.cpDisagree a

/-- A CP write of an initiator is refused (R11): bus error, corrected fault; nothing stays armed for that register. -/
def State.cpRefuse (s : State) (i : Initiator) (a : Nat) : State :=
  let s : State := { s with cpArmed := s.cpArmed.filter fun e => !(e.1 == initNo i && e.2.1 == a) }
  let s := if initNo i < 2 then s.count (cntSv (initNo i)) 35 else s
  s.refuse (srcId 0x12 (initNo i))

/-- What an initiator has armed for a register. -/
def State.cpArm? (s : State) (i : Initiator) (a : Nat) : Option (Nat × Nat × Word × Nat) :=
  s.cpArmed.find? fun e => e.1 == initNo i && e.2.1 == a

/-- A value that the register's unit accepts. -/
def State.cpOk (s : State) (i : Initiator) (a : Nat) (w : Word) : Bool :=
  if a = SYS_ADDR then s.addrOk
  else if a = SYS_PWR_REQ 0 then (s.pwrForbidden i 0 w).isNone
  else if a = SYS_PWR_REQ 1 then (s.pwrForbidden i 1 w).isNone
  else if a = SYS_PWR_REQ 2 then (s.pwrForbidden i 2 w).isNone
  else if a = SYS_MODE_REQ then s.domOn domSC
  else if a = FC_DEG then degOk w
  else if a = TT_SWAP then s.swapOk w
  else if a = TT_ALT_FORCE then s.altForceOk w
  else if a = TIME_EPOCH then s.epochOk
  else if a = SAFE_CONFIRM ∨ a = SAFE_SDT_CONFIRM then s.mode == .commission
  else if a = HOST_KEY_CTRL then s.keyCtrlOk i w
  else if 0x40100000 ≤ a ∧ a < 0x40400000 then
    let o := a % 0x10000
    if o = 0x14 then pwmSafeOk w
    else if o = 0x110 then scCfgOk w
    else !s.en (axisOf a)
  else if 0x40400000 ≤ a then s.gdsOk (dieOf a)
  else true

/-- The time the motion-degraded limit leaves, in minutes; the timer that runs follows a new limit (R350). -/
def State.mdLeft (s : State) : Nat :=
  if s.flag FC_STAT Fld.FC_STAT_MD then s.fld FC_DEG Fld.FC_DEG_MD_LIMIT * 60 - s.mdMinutes else 0

def State.degApply (s : State) (w : Word) : State :=
  let s := s.setReg FC_DEG w
  if s.timerOn .mdLimit then
    let total := (fget w Fld.FC_DEG_MD_LIMIT * 60 - s.fc.mdPrior) * (60000 * msTicks)
    s.startTimer .mdLimit (s.fc.mdStart + total - s.clock)
  else s

/-- The effect of an accepted pair. -/
def State.cpApply (s : State) (i : Initiator) (a : Nat) (w : Word) : State :=
  if a = SYS_PWR_REQ 0 then s.pwrApply 0 w
  else if a = SYS_PWR_REQ 1 then s.pwrApply 1 w
  else if a = SYS_PWR_REQ 2 then s.pwrApply 2 w
  else if a = SYS_MODE_REQ then s.modeReqApply w
  else if a = FC_ACK then (s.setReg a w).fcAckApply w
  else if a = FC_DEG then s.degApply w
  else if a = TT_SWAP then s.swapApply w
  else if a = TT_ALT_FORCE then s.altForceApply w
  else if a = SAFE_CONFIRM then (s.setReg a w).safeConfirmApply w
  else if a = SAFE_SDT_CONFIRM then (s.setReg a w).sdtConfirmApply w
  else if a = SAFE_RESTART then (s.setReg a w).safeRestartApply w
  else if a = HOST_KEY_CTRL then s.keyCtrlApply i w
  else if 0x40100000 ≤ a ∧ a < 0x40400000 ∧ 0x438 ≤ a % 0x10000 then s.ofsApply (axisOf a) a w
  else if 0x40100000 ≤ a ∧ a < 0x40400000 ∧ a % 0x10000 = 0x14 then ((s.setReg a w).reRank (axisOf a)).switched s (axisOf a)
  else if 0x40400000 ≤ a then s.gdsApply (dieOf a) w
  else s.setReg a w

/-- What a refused value of SYS_PWR_REQ leaves in SYS_PWR_CODE (R503). -/
def State.cpNote (s : State) (i : Initiator) (a : Nat) (w : Word) : State :=
  if a = SYS_PWR_REQ 0 ∨ a = SYS_PWR_REQ 1 ∨ a = SYS_PWR_REQ 2 then
    match s.pwrForbidden i ((a - SYS_PWR_REQ 0) / 8) w with
    | some d => s.pwrRefused d
    | none => s
  else s

/-- An armed write has had its 1 µs. -/
def State.cpLate (s : State) (e : Nat × Nat × Word × Nat) : Bool := decide (e.2.2.2 + usTicks < s.clock)

/-- The expiry of an armed write: the fault is logged, nothing stays armed. -/
def State.cpExpire (s : State) (i : Initiator) (a : Nat) : State := { s.cpRefuse i a with resp := s.resp }

/-- The value word of a register arms the write. -/
def State.cpArm (s : State) (i : Initiator) (a : Nat) (w : Word) : State :=
  { s with cpArmed := s.cpArmed ++ [(initNo i, a, w, s.clock)], resp := .done }

/-- A write of the value word at `a`. -/
def State.cpValueWord (s : State) (i : Initiator) (a : Nat) (w : Word) : State :=
  if !s.reachable a then s.busErr
  else
    match s.cpArm? i a with
    | none => s.cpArm i a w
    | some e => if s.cpLate e then (s.cpExpire i a).cpArm i a w else s.cpRefuse i a

/-- A write of the complement word of the register at `a`. -/
def State.cpComplWord (s : State) (i : Initiator) (a : Nat) (w : Word) : State :=
  if !s.reachable a then s.busErr
  else
    match s.cpArm? i a with
    | none => s.cpRefuse i a
    | some e =>
      if s.cpLate e then (s.cpExpire i a).cpRefuse i a
      else if w ≠ ~~~e.2.2.1 then s.cpRefuse i a
      else
        let v := e.2.2.1 &&& cpBits a
        if !s.cpOk i a v then (s.cpNote i a v).cpRefuse i a
        else
          let s : State := { s with cpArmed := s.cpArmed.filter fun x => !(x.1 == initNo i && x.2.1 == a), resp := .done }
          ({ s with cpDiff := Tbl.put 0 s.cpDiff a 0 } : State).cpApply i a v

/-- Both writes of a pair by one initiator. -/
def State.cpPair (s : State) (i : Initiator) (a : Nat) (w : Word) : State := (s.cpValueWord i a w).cpComplWord i a (~~~w)

/-! ## Registers as they read -/

/-- A register word that no RC field and no latch stands behind, as it reads now. -/
def State.liveReg (s : State) (a : Nat) : Word :=
  if a = FC_DEG_STAT then
    let left := match s.timers.find? (·.1 == TimerId.sdLimit) with
      | some t => (t.2 - s.clock) / msTicks
      | none => 0
    BitVec.ofNat 32 (2 ^ 16 * Nat.min left 65535 + s.mdLeft % 8192)
  else if 0x40100000 ≤ a ∧ a < 0x40400000 ∧ a % 0x10000 = 0x500 ∧ axisOf a % 8 = 0 then
    let n := axisOf a
    let gather := fun (f : Fld) => (List.range 8).foldl (fun (v : Nat) k => v + s.fld (FB_STAT (n + k)) f * 2 ^ k) 0
    BitVec.ofNat 32 ((s.reg a).toNat / 2 ^ 24 * 2 ^ 24 + 2 ^ 16 * gather Fld.FB_STAT_SUSPECT + 2 ^ 8 * gather Fld.FB_STAT_WAIT +
      gather Fld.FB_STAT_FAULT)
  else s.reg a

/-- A read of a register of an AXIS block. -/
def State.axisRead (s : State) (i : Initiator) (a : Nat) : State :=
  let o := a % 0x10000
  if o = 0x430 then s.fbCountRead i (axisOf a)
  else if o = 0x434 then s.answer (.data (Tbl.get 0 s.hiLatch (2 ^ 32 * initNo i + a)))
  else s.answer (.data (s.liveReg a))

/-- A read of a register word, a block with its domain on. -/
def State.blockRead (s : State) (i : Initiator) (a : Nat) : State :=
  let b := a / 0x10000
  let o := a % 0x10000
  if b = 0x4000 then s.sysRead i a
  else if b = 0x4002 ∧ 0x40 ≤ o ∧ o < 0x100 ∧ o % 16 = 12 then (s.setReg a 0xFFFF).answer (.data (s.reg a))
  else if b = 0x4004 then s.basinRead i a
  else if b = 0x4005 then s.timeRead i a
  else if b = 0x4006 then s.ethRead a
  else if b = 0x4007 ∨ b = 0x4008 then s.answer (.data (s.canValue a))
  else if b = 0x4009 ∧ 0xC00 ≤ o ∧ o < 0xC80 ∧ o % 16 = 8 then s.timResRead i ((o - 0xC00) / 16)
  else if b = 0x400E then s.answer (.data (s.hostRead a))
  else if 0x4010 ≤ b ∧ b < 0x4040 then s.axisRead i a
  else s.answer (.data (s.liveReg a))

/-- A register has RC fields. -/
def hasRc (a : Nat) : Bool := (regDef a).any (·.rc != 0)

/-- A read of a register word: a domain that is off reads 0, FIO answers with a bus error (R552, R478). A read through JTAG
clears no RC field (R8). -/
def State.regRead (s : State) (i : Initiator) (a : Nat) : State :=
  if isCp a then s.cpReadWord a false
  else if isCpc a then s.cpReadWord (a - 4) true
  else if a / 0x10000 = 0x400B then s.perfRead i a
  else if a / 0x10000 = 0x400D then s.fioRead a
  else if !s.powered .block a then s.answer (.data 0)
  else
    let t := s.blockRead i a
    if i = .jtag ∧ hasRc a then s.answer t.resp else t

/-! ## Register writes -/

/-- A write of a register of an AXIS block. -/
def State.axisWrite (s : State) (a : Nat) (w : Word) : State :=
  let n := axisOf a
  let o := a % 0x10000
  if o = 0 then s.pwmCtrlWrite n w
  else if o = 4 ∨ o = 8 ∨ o = 12 ∨ o = 0x120 then s.cfgWrite n a w
  else if o = 0x80 then
    if fget w Fld.CL_CFG_VBUS_SRC = 3 then (s.setFld (PWM_STAT n) Fld.PWM_STAT_CFG_ERR 1).busErr
    else if axisCount s.part ≤ fget w Fld.CL_CFG_VBUS_CH then s.busErr else s.plainWrite a w
  else if o = 0x100 then s.gateCfgWrite n w
  else if o = 0x118 then s.scStatWrite n w
  else if o = 0x124 then s.snsCalWrite n w
  else if 0x130 ≤ o ∧ o < 0x140 then s.ofsWrite n a w
  else if 0x140 ≤ o ∧ o < 0x150 then s.gcalWrite n a w
  else if o = 0x184 then s.hbrkWrite n w
  else if o = 0x300 then
    if fget w Fld.STP_CFG_CLASS = 3 then s.refuse (srcId 0x09 n) else s.cfgWrite n a w
  else if o = 0x400 then s.fbCfgWrite n w
  else if o = 0x404 ∨ o = 0x408 ∨ (0x414 ≤ o ∧ o ≤ 0x420) then s.fbSetWrite n a w
  else if o = 0x424 then s.fbCtrlWrite n w
  else if o = 0x428 then (s.plainWrite a w).fbShow n
  else s.plainWrite a w

/-- A write of a register of PSYNC. -/
def State.psyncWrite (s : State) (a : Nat) (w : Word) : State :=
  let o := a % 0x10000
  if 0x100 ≤ o ∧ o < 0x500 then
    let n := (o - 0x100) / 0x40
    let k := o % 0x40
    if k = 0 then s.trgCfgWrite n w
    else if k = 0x10 then s.trgListWrite n w
    else if k = 0x14 then s.setTrg n { s.trgAt n with lo := w }
    else if k = 0x18 then s.trgHiWrite n w
    else if k = 4 ∨ k = 8 ∨ (0x1C ≤ k ∧ k < 0x30) then s.trgParamWrite n a w
    else s.plainWrite a w
  else if 0x600 ≤ o ∧ o < 0x700 then
    let e := (o - 0x600) / 0x20
    let k := o % 0x20
    if k = 0 then s.emuCfgWrite e w
    else if k = 4 ∨ k = 8 ∨ k = 12 then s.emuParamWrite e a w
    else s.plainWrite a w
  else if 0x800 ≤ o ∧ o < 0xC00 then
    let n := (o - 0x800) / 0x40
    if o % 0x40 = 0 then s.latCfgWrite n w else if o % 0x40 = 4 then s.latStatWrite n w else s.plainWrite a w
  else if 0xC00 ≤ o ∧ o < 0xC80 ∧ o % 16 = 0 then s.timCfgWrite ((o - 0xC00) / 16) w
  else s.plainWrite a w

/-- A write of a register word that is no half of a pair. -/
def State.blockWrite (s : State) (i : Initiator) (a : Nat) (w : Word) : State :=
  let b := a / 0x10000
  if b = 0x4000 then s.sysWrite i a w
  else if b = 0x4002 then
    if a = TT_CTRL then s.ttCtrlWrite w else if a = TT_TWR_DATA then s.twrWrite w else s.plainWrite a w
  else if b = 0x4004 then s.basinWrite i a w
  else if b = 0x4005 then s.timeWrite a w
  else if b = 0x4006 then s.ethWrite a w
  else if b = 0x4007 ∨ b = 0x4008 then s.canWrite a w
  else if b = 0x4009 then s.psyncWrite a w
  else if b = 0x400A then s.acqWrite a w
  else if b = 0x400C then
    if a = SAFE_CTRL then s.safeCtrlWrite w else if a = SAFE_SDT_CTRL then s.sdtCtrlWrite w else s.plainWrite a w
  else if b = 0x400D then s.fioWrite a w
  else if b = 0x400E then if a = HOST_CTRL then s.hostCtrlWrite i w else s.hostWrite i a w
  else if 0x4010 ≤ b ∧ b < 0x4040 then s.axisWrite a w
  else s.plainWrite a w

/-- A write of a register word. -/
def State.regWrite (s : State) (i : Initiator) (a : Nat) (w : Word) : State :=
  if isCp a then s.cpValueWord i a w
  else if isCpc a then s.cpComplWord i (a - 4) w
  else if a / 0x10000 = 0x400B then s.perfWrite i a w
  else s.access a fun s => s.blockWrite i a w

/-- A write of an engine register: ENG_DBG is JTAG's (R132). -/
def State.engWrite (s : State) (i : Initiator) (e a : Nat) (w : Word) : State :=
  s.access a fun s => if a = ENG_DBG e then s.engDbgWrite i e w else s.plainWrite a w

/-! ## Accesses -/

/-- A register of the retention RAM (R548). -/
def isRet (a : Nat) : Bool := 0x40000100 ≤ a && a < 0x40000200

/-- The range takes accesses of `size` bytes at an address (R548). -/
def sizeOk (r : Range) (a size : Nat) : Bool :=
  if size = 4 then a % 4 == 0
  else (size == 1 || (size == 2 && a % 2 == 0)) && ((r.isMem && !r.isWindow) || isRet a)

/-- The address answers with a bus error whatever is accessed (R5, R547, R549). -/
def State.absent (s : State) (i : Initiator) (a : Nat) : Bool :=
  rangeOf s.part i a == .unmapped || instanceAbsent s.part a

/-- The bytes of an access within its word. -/
def cutWord (w : Word) (a size : Nat) : Word := BitVec.ofNat 32 (w.toNat / 2 ^ (8 * (a % 4)) % 2 ^ (8 * size))

/-- A read of `size` bytes at an address. SC does not read the basin (R222). -/
def State.busRead (s : State) (i : Initiator) (a size : Nat) : State :=
  let r := rangeOf s.part i a
  if s.absent i a || !sizeOk r a size || (r == .basin && i == .sc) then s.busErr
  else
    let w := a / 4 * 4
    let t := if r = .block then s.regRead i w
      else match s.wordAt i w with
        | some v => s.answer (.data v)
        | none => s.busErr
    match t.resp with
    | .data v => t.answer (.data (cutWord v a size))
    | _ => t

/-- A write of a memory. -/
def State.memWrite (s : State) (i : Initiator) (r : Range) (a size : Nat) (w : Word) : State :=
  let put := fun (s : State) (b : Nat) => (s.answer .done).setCells b (leBytes size w.toNat)
  match r with
  | .tcm p _ => if p = 1 ∧ i ≠ .sv1 ∧ i ≠ .jtag then s.refuse (srcId 0x02 1) else put s (tcmBase p + a % 0x80000)
  | .trace => if s.acqBusy then s.refuse (srcId 0x0C 0) else put s a
  | .prog e =>
    if s.running then s.refuse (srcId 0x01 e)
    else (s.answer .done).setLe e { s.leAt e with prog := Tbl.put 0 (s.leAt e).prog (a % 0x8000 / 4) w }
  | .data e =>
    if s.running then s.refuse (srcId 0x01 e) else (s.answer .done).setLeWord e (a % 0x10000 / 4) (w.setWidth 24)
  | .inactive e =>
    if s.running then s.refuse (srcId 0x01 e)
    else (s.answer .done).setLe e ((s.leAt e).setBank (!s.bankB) (a % 0x8000 / 4) (w.setWidth 24))
  | .lrom _ | .mbox _ | .mval _ => s.answer .done
  | .ereg e => s.engWrite i e a w
  | .basin => s.useFree.refuse (srcId 0x06 (s.fresh % 256))
  | .mirror => s.refuse (srcId 0x07 0)
  | .rom | .store | .nor => s.refuse hostSrc
  | .block | .unmapped => s.busErr

/-- A write of `size` bytes at an address. -/
def State.busWrite (s : State) (i : Initiator) (a size : Nat) (w : Word) : State :=
  let r := rangeOf s.part i a
  if s.absent i a || !sizeOk r a size || !s.powered r a && r != .block then s.busErr
  else if isRet a then s.access SYS_ID fun s => s.retWrite (a - 0x40000100) size w.toNat
  else if r = .block then s.regWrite i a w
  else s.memWrite i r a size w

/-! ## Commands -/

/-- CP_VALUE_WRITE: an initiator writes the value word at `addr`; another address is accessed as it is. -/
def execCpValueWrite (i : Initiator) (addr : Nat) (w : Word) (s : State) : Host.Outcome State Fault Refusal :=
  .next (if isCp addr then s.cpValueWord i addr w else s.busWrite i addr 4 w)

/-- CP_COMPLEMENT_WRITE: an initiator writes the complement word of the register whose value word lies at `addr`. -/
def execCpComplementWrite (i : Initiator) (addr : Nat) (w : Word) (s : State) : Host.Outcome State Fault Refusal :=
  .next (if isCp addr then s.cpComplWord i addr w else s.busWrite i (addr + 4) 4 w)

/-- CP_ARM_TIMEOUT: 1 µs has passed since the value word, without a complement. -/
def execCpArmTimeout (i : Initiator) (addr : Nat) (s : State) : Host.Outcome State Fault Refusal :=
  match s.cpArm? i addr with
  | none => .next s
  | some e => .next (if e.2.2.2 + usTicks ≤ s.clock then s.cpExpire i addr else s)

/-- CP_READ: an initiator reads the value word or the complement word of the register at `addr`. -/
def execCpRead (i : Initiator) (addr : Nat) (complement : Bool) (s : State) : Host.Outcome State Fault Refusal :=
  .next (if s.absent i addr ∨ !isCp addr then s.busRead i (if complement then addr + 4 else addr) 4 else s.cpReadWord addr complement)

/-- ABSENT_BLOCK_ACCESS: an access to an absent block or an unmapped address; an address that exists is accessed as it is. -/
def execAbsentBlockAccess (i : Initiator) (addr : Nat) (write : Option Word) (s : State) : Host.Outcome State Fault Refusal :=
  if s.absent i addr then .next s.busErr
  else
    match write with
    | some w => .next (s.busWrite i addr 4 w)
    | none => .next (s.busRead i addr 4)

/-- REGISTER_WRITE: a write of any register or memory. -/
def execRegisterWrite (i : Initiator) (addr size : Nat) (w : Word) (s : State) : Host.Outcome State Fault Refusal :=
  .next (s.busWrite i addr size w)

/-- SWAP_ARM: a TT_SWAP pair with ARM = 1; `voyage` is AT. -/
def execSwapArm (i : Initiator) (voyage : Bool) (s : State) : Host.Outcome State Fault Refusal :=
  .next (s.cpPair i TT_SWAP (BitVec.ofNat 32 (1 + 2 * b2n voyage)))

/-- SWAP_CANCEL: a TT_SWAP pair with ARM = 0. -/
def execSwapCancel (i : Initiator) (voyage : Bool) (s : State) : Host.Outcome State Fault Refusal :=
  .next (s.cpPair i TT_SWAP (BitVec.ofNat 32 (2 * b2n voyage)))

/-- TT_ALT_FORCE: a pair with GO = 1. -/
def execTtAltForce (i : Initiator) (alt : Fin 16) (s : State) : Host.Outcome State Fault Refusal :=
  .next (s.cpPair i TT_ALT_FORCE (BitVec.ofNat 32 (2 ^ 31 + alt)))

/-- SDD_GDS: a pair with the gate supply mode of a die. -/
def execSddGds (i : Initiator) (d : Fin 12) (w : Word) (s : State) : Host.Outcome State Fault Refusal :=
  .next (s.cpPair i (SDD_GDS d) w)

/-- FC_ACK: a pair that acknowledges a source. -/
def execFcAck (i : Initiator) (src : BitVec 16) (s : State) : Host.Outcome State Fault Refusal :=
  .next (s.cpPair i FC_ACK (BitVec.ofNat 32 (2 ^ 31 + src.toNat)))

/-- FC_ACK_ALL: a pair with SRC = 0xFFFF. -/
def execFcAckAll (i : Initiator) (s : State) : Host.Outcome State Fault Refusal := .next (s.cpPair i FC_ACK 0x8000FFFF)

/-- SAFE_RESTART: a pair with the restart bits of pairs and groups. -/
def execSafeRestart (i : Initiator) (w : Word) (s : State) : Host.Outcome State Fault Refusal := .next (s.cpPair i SAFE_RESTART w)

/-- SAFE_REQ: a pair with the requests of SS1 and SS2. -/
def execSafeReq (i : Initiator) (w : Word) (s : State) : Host.Outcome State Fault Refusal := .next (s.cpPair i SAFE_REQ w)

/-- SAFE_CONFIRM: a pair with the confirmed check value. -/
def execSafeConfirm (i : Initiator) (w : Word) (s : State) : Host.Outcome State Fault Refusal := .next (s.cpPair i SAFE_CONFIRM w)

/-- SDT_CONFIRM: a pair with the confirmed check value of the safe-data table. -/
def execSdtConfirm (i : Initiator) (w : Word) (s : State) : Host.Outcome State Fault Refusal := .next (s.cpPair i SAFE_SDT_CONFIRM w)

/-- PWR_REQ: a pair with the domains requested on in SYS_PWR_REQ_k. -/
def execPwrReq (i : Initiator) (k : Fin 3) (w : Word) (s : State) : Host.Outcome State Fault Refusal :=
  .next (s.cpPair i (SYS_PWR_REQ k) w)

/-- MODE_REQ: a pair that requests a mode. -/
def execModeReq (i : Initiator) (m : Fin 8) (s : State) : Host.Outcome State Fault Refusal :=
  .next (s.cpPair i SYS_MODE_REQ (BitVec.ofNat 32 (2 ^ 31 + m)))

/-- KEY_PROGRAM: a pair with OP = 1 for a slot. -/
def execKeyProgram (i : Initiator) (k : Fin 4) (s : State) : Host.Outcome State Fault Refusal :=
  .next (s.cpPair i HOST_KEY_CTRL (BitVec.ofNat 32 (0x80000100 + k)))

/-- KEY_REVOKE: a pair with OP = 2 for a slot. -/
def execKeyRevoke (i : Initiator) (k : Fin 4) (s : State) : Host.Outcome State Fault Refusal :=
  .next (s.cpPair i HOST_KEY_CTRL (BitVec.ofNat 32 (0x80000200 + k)))

end Sys2Proof.Machine
end

