-- ==== Sys2Proof/Machine/Wharf.lean ====
section
/-! DEFINITION. Accesses from outside and by the dispatcher: the wharf (R537, R538), Towline register access and barge frames (R454,
R455), the actions of the shared queues (R257). -/

namespace Sys2Proof.Machine
open Sys2Proof.Machine.Reg

/-! ## Access gates (R454, R538) -/

/-- A write is accepted under an access word: WR_EN, and WR_RUN in Run, Degraded and Safe Stop. -/
def State.gateWrite (s : State) (acc : Word) : Bool :=
  acc.toNat.testBit 1 && ((s.mode != .run && s.mode != .degraded && s.mode != .safeStop) || acc.toNat.testBit 2)

/-- A read is accepted: RD_EN. -/
def gateRead (acc : Word) : Bool := acc.toNat.testBit 0

/-! ## The wharf (R537) -/

/-- The wharf answers: its domain is on. -/
def State.wharfOn (s : State) : Bool := s.domOn domHB

/-- The wharf returns bytes. -/
def State.wharfOut (s : State) (l : List Byte) : State := s.modBoot fun b => { b with wout := l }

/-- The words of a WRITE are still being accepted. -/
def State.wharfBusy (s : State) : Bool := !s.boot.wr.2.isEmpty

/-- The wharf status word. -/
def State.wharfStatus (s : State) : Nat :=
  b2n s.wharfBusy + 2 * b2n s.boot.late + 4 * b2n s.boot.werr + 8 * b2n s.boot.ovr + 16 * b2n s.wharfInt

/-- The next word of a WRITE is written; a bus error drops the rest. -/
def State.wharfStep (s : State) : State :=
  match s.boot.wr with
  | (_, []) => s
  | (a, w :: t) =>
    let s := s.modBoot fun b => { b with wr := (a + 4, t) }
    let s := if s.gateWrite (s.reg HOST_WHARF_ACC) then s.busWrite .wharf a 4 w else s.busErr
    if s.resp = .busError then s.modBoot fun b => { b with werr := true, wr := (0, []) } else s

/-- The words that wait are written. -/
def State.wharfDrain (s : State) : State := s.each s.boot.wr.2.length fun s _ => s.wharfStep

/-- One word of a READ: a word that is late, or that answers with a bus error, returns 0xFFFF_FFFF. -/
def State.wharfWord (s : State) (late : List Nat) (a k : Nat) : State :=
  let s := if gateRead (s.reg HOST_WHARF_ACC) then s.busRead .wharf (a + 4 * k) 4 else s.busErr
  let s := if late.contains k then s.modBoot fun b => { b with late := true } else s
  match s.resp with
  | .data v => s.wharfOut (s.boot.wout ++ if late.contains k then leBytes 4 0xFFFFFFFF else leBytes 4 v.toNat)
  | _ => (s.wharfOut (s.boot.wout ++ leBytes 4 0xFFFFFFFF)).modBoot fun b => { b with werr := true }

/-- RDSR. -/
def execRdsr (s : State) : Host.Outcome State Fault Refusal :=
  if !s.wharfOn then .next s
  else .next ((s.wharfOut (leBytes 2 s.wharfStatus)).modBoot fun b => { b with late := false, werr := false, ovr := false })

/-- RDID. -/
def execRdid (s : State) : Host.Outcome State Fault Refusal :=
  .next (if s.wharfOn then s.wharfOut (leBytes 4 (s.reg SYS_ID).toNat) else s)

/-- WHARF_READ: `len` bytes from an address; `late` names the words that had not arrived when they were due. The words of a WRITE
that wait are written first (R553). -/
def execWharfRead (addr : Word) (len : Nat) (late : List Nat) (s : State) : Host.Outcome State Fault Refusal :=
  if !s.wharfOn ∨ len < 4 ∨ 256 < len then .next s
  else
    let s := s.wharfDrain.wharfOut []
    let s := s.each ((len + 3) / 4) fun s k => s.wharfWord late addr.toNat k
    .next (s.wharfOut (s.boot.wout.take len))

/-- WHARF_WRITE: 1 to 64 words from an aligned address; they are accepted one by one. -/
def execWharfWrite (addr : Word) (words : List Word) (s : State) : Host.Outcome State Fault Refusal :=
  if !s.wharfOn ∨ words.length = 0 ∨ 64 < words.length then .next s
  else if s.wharfBusy then .next (s.modBoot fun b => { b with ovr := true })
  else .next (s.modBoot fun b => { b with wr := (addr.toNat, words) })

/-! ## Towline register access (R454) -/

/-- A number in network byte order. -/
def beBytes (n v : Nat) : List Byte := (leBytes n v).reverse

/-- An answer leaves and is kept for its requester. -/
def State.tlAnswer (s : State) (h : TlHdr) (data : List Byte) : State :=
  let x : TlAnswer := { src := h.src.toNat, seq := h.seq.toNat, data := data }
  (s.modEth fun e => { e with answer := some x, kept := (x :: e.kept.filter fun y => y.src != x.src).take 8 }).frameBoth

/-- The head of an answer: STATUS, 0, COUNT, ADDR. -/
def tlHead (status count : Nat) (addr : Word) : List Byte := leBytes 1 status ++ leBytes 1 0 ++ beBytes 2 count ++ beBytes 4 addr.toNat

/-- A request: an answer that is kept goes out again; a bad format and a closed gate answer at once. -/
def State.tlRequest (s : State) (h : TlHdr) (addr : Word) (count : Nat) (good gate : Bool) (f : State → State) : State :=
  s.tlAccept 2 h fun s =>
    match s.eth.kept.find? fun x => x.src == h.src.toNat && x.seq == h.seq.toNat with
    | some x => (s.modEth fun e => { e with answer := some x }).frameBoth
    | none =>
      if !good || count = 0 || 64 < count || addr.toNat % 4 != 0 then s.tlAnswer h (tlHead 3 count addr)
      else if !gate then s.tlAnswer h (tlHead 2 count addr)
      else f s

/-- Read `count` words as Towline: the words, or the number of the word that answered with a bus error. -/
def State.tlReadWords (s : State) (addr count : Nat) : State × List Byte × Option Nat :=
  (List.range count).foldl (fun (r : State × List Byte × Option Nat) k =>
    match r.2.2 with
    | some _ => r
    | none =>
      let s := r.1.busRead .towline (addr + 4 * k) 4
      match s.resp with
      | .data v => (s, r.2.1 ++ beBytes 4 v.toNat, none)
      | _ => (s, r.2.1, some k)) (s, [], none)

/-- Write words as Towline, up to the first bus error. -/
def State.tlWriteWords (s : State) (addr : Nat) (words : List Word) : State × Option Nat :=
  words.zipIdx.foldl (fun (r : State × Option Nat) w =>
    match r.2 with
    | some _ => r
    | none =>
      let s := r.1.busWrite .towline (addr + 4 * w.2) 4 w.1
      if s.resp = .busError then (s, some w.2) else (s, none)) (s, none)

/-- The effect of a write request, with its answer. -/
def State.tlWrite (s : State) (h : TlHdr) (addr : Word) (words : List Word) : State :=
  let r := s.tlWriteWords addr.toNat words
  match r.2 with
  | some k => r.1.tlAnswer h (tlHead 1 k addr)
  | none => r.1.tlAnswer h (tlHead 0 words.length addr)

/-- TL_READ: a request with OP 1. -/
def execTlRead (h : TlHdr) (addr : Word) (count : Nat) (s : State) : Host.Outcome State Fault Refusal :=
  .next (s.tlRequest h addr count true (gateRead (s.reg ETH_TL_ACC)) fun s =>
    let r := s.tlReadWords addr.toNat count
    match r.2.2 with
    | some k => r.1.tlAnswer h (tlHead 1 k addr)
    | none => r.1.tlAnswer h (tlHead 0 count addr ++ r.2.1))

/-- TL_WRITE: a request with OP 2. -/
def execTlWrite (h : TlHdr) (addr : Word) (words : List Word) (s : State) : Host.Outcome State Fault Refusal :=
  .next (s.tlRequest h addr words.length true (s.gateWrite (s.reg ETH_TL_ACC)) fun s => s.tlWrite h addr words)

/-- TL_CP_WRITE: a request with OP 3; its words alternate value and complement. -/
def execTlCpWrite (h : TlHdr) (addr : Word) (words : List Word) (s : State) : Host.Outcome State Fault Refusal :=
  .next (s.tlRequest h addr words.length (words.length % 2 == 0) (s.gateWrite (s.reg ETH_TL_ACC)) fun s => s.tlWrite h addr words)

/-- TL_BARGES: 1 to 8 entries of queue and descriptor, submitted in order up to the first refusal (R455). -/
def execTlBarges (h : TlHdr) (entries : List (Byte × Desc)) (s : State) : Host.Outcome State Fault Refusal :=
  .next (s.tlAccept 4 h fun s =>
    if entries.length = 0 ∨ 8 < entries.length then s.tlBad
    else
      let r := entries.foldl (fun (r : State × List Byte × Bool) e =>
        if r.2.2 then (r.1, r.2.1 ++ [0x0A], true)
        else
          let t := r.1.submit .towline e.1.toNat e.2
          (t.1, r.2.1 ++ [BitVec.ofNat 8 t.2], t.2 != 0)) (s, [], false)
      (r.1.modEth fun e => { e with answer := some { src := h.src.toNat, seq := h.seq.toNat, data := r.2.1 } }).frameBoth)

/-! ## The dispatcher (R257) -/

/-- Result of an action that met no failure. -/
def State.dispResult (s : State) (q : Nat) : Nat := if (s.queueAt q).late then 1 else 0

/-- An IO barge: SET, then CLR. -/
def State.dispIo (s : State) (d : Desc) : State :=
  if s.fiOn then s.doCommand ((s.fld FIO_DO Fld.FIO_DO_CMD ||| dfld d 14 2) &&& (0xFFFF ^^^ dfld d 16 2)) else s

/-- A MSG barge: it is accepted, or not. -/
def State.dispMsg (s : State) (d : Desc) : State × Bool :=
  let l := leBytes (dfld d 15 1) (dfld d 18 40)
  if dfld d 14 1 = 0 then s.tlSend (dfld d 16 2) l else s.canMessage (dfld d 14 1 - 1) (dfld d 16 2) l

/-- A REGW barge: read-modify-write under MASK, or a complement pair; it failed, or not. A refused pair is logged under an initiator
that the list of initiators does not name (free). -/
def State.dispRegw (s : State) (d : Desc) : State × Bool :=
  let a := dfld d 14 4
  let v := BitVec.ofNat 32 (dfld d 18 4)
  let m := BitVec.ofNat 32 (dfld d 22 4)
  if (dFlags d).testBit 3 then
    if !isCp a || !s.reachable a then (s.busErr, false)
    else
      let old := s.reg a
      let x := ((old &&& ~~~m) ||| (v &&& m)) &&& cpBits a
      if s.cpOk .sc a x then ((({ s with cpDiff := Tbl.put 0 s.cpDiff a 0 } : State).answer .done).cpApply .sc a x, true)
      else ((s.cpNote .sc a x).useFree.refuse (srcId 0x12 (s.fresh % 256)), false)
  else
    let s := s.busRead .sc a 4
    match s.resp with
    | .data old =>
      let s := s.busWrite .sc a 4 ((old &&& ~~~m) ||| (v &&& m))
      (s, s.resp != .busError)
    | _ => (s, false)

/-- A DMA barge: a copy of LEN bytes. -/
def State.dispDma (s : State) (d : Desc) : State × Bool :=
  let src := dfld d 14 4
  let dst := dfld d 18 4
  let n := dfld d 22 4
  match s.bytesAt .sc src n, memTarget s.part .sc dst n with
  | some l, some b =>
    let r := rangeOf s.part .sc dst
    if !s.powered r dst then (s, false)
    else if r = .trace ∧ s.acqBusy then (s.refuse (srcId 0x0C 0), false)
    else if b / 0x1000000 = 0x0A then (s.refuse (srcId 0x02 1), false)
    else (s.setCells b l, true)
  | _, _ => (s, false)

/-- Line time at which the head of a queue becomes due, where it can begin (R257). -/
def State.dueHead (s : State) (q : Nat) : Option Nat :=
  let x := s.queueAt q
  match x.exec, x.queued with
  | none, i :: _ =>
    let at_ := Nat.max (dStart (s.desc i)) x.headAt
    if x.stopped ∨ s.time.line.toNat < dStart (s.desc i) then none else some at_
  | _, _ => none

/-- A lower shared queue has a head that became due no later: it begins first. -/
def State.behind (s : State) (q : Nat) : Bool :=
  match s.dueHead q with
  | none => false
  | some t => (List.range 16).any fun j => 64 + j < q && (s.dueHead (64 + j)).any fun u => decide (u ≤ t)

/-- DISPATCH_BEGIN: the head of shared queue SQ_k begins; MARK and MSG complete at once. One whose CRC does not match is not
dispatched: its queue stops (R341). -/
def execDispatchBegin (k : Fin 16) (s : State) : Host.Outcome State Fault Refusal :=
  let q := 64 + k.val
  let x := s.queueAt q
  match x.exec, x.queued with
  | none, i :: _ =>
    let d := s.desc i
    let now := s.time.line.toNat
    if !s.domOn domTP || x.stopped || decide (now < dStart d) || s.behind q then .next s
    else if !dCrcOk d then .next (s.logContained (basinSrc q) .axstop [q])
    else
      let s := s.beginBarge q i
      let s := s.setQueue q { s.queueAt q with late := dStart d != 0 && decide (dStart d + 16000 < now) }
      if dType d = 0x07 then .next (s.retire q i (s.dispResult q))
      else if dType d = 0x10 then .next (s.dispIo d)
      else if dType d = 0x11 then
        let r := s.dispMsg d
        .next (r.1.retire q i (if r.2 then r.1.dispResult q else 7))
      else .next s
  | _, _ => .next s

/-- DISPATCH_COMPLETE: the action of SQ_k is done. -/
def execDispatchComplete (k : Fin 16) (s : State) : Host.Outcome State Fault Refusal :=
  let q := 64 + k.val
  match (s.queueAt q).exec with
  | none => .next s
  | some i =>
    if !s.domOn domTP then .next s
    else
      let d := s.desc i
      let r := if dType d = 0x12 then s.dispRegw d else if dType d = 0x13 then s.dispDma d else (s, true)
      .next (r.1.retire q i (if r.2 then r.1.dispResult q else 5))

end Sys2Proof.Machine
end

