-- ==== Sys2Proof/Machine/Supervisor.lean ====
section
/-! DEFINITION. The supervisor pairs (R382 to R407): register frames, traps, the MPU, caches, interrupts, the partition timer, and the
instructions of the supervisor profile. -/

namespace Sys2Proof.Machine
open Sys2Proof.Machine.Reg

/-! ## Registers (R384, R407) -/

/-- The initiator that a pair is. -/
def svIni (p : Nat) : Initiator := if p = 0 then .sv0 else .sv1

/-- Fields of ST. -/
def Sv.cfr (v : Sv) : Nat := bits v.st.toNat 18 16
def Sv.pl (v : Sv) : Nat := bits v.st.toNat 11 10
def Sv.ten (v : Sv) : Bool := nbit v.st.toNat 9
def Sv.ie (v : Sv) : Bool := nbit v.st.toNat 8
def Sv.imask (v : Sv) : Nat := bits v.st.toNat 7 4

def stCfr : Fld := ⟨18, 16⟩
def stPl : Fld := ⟨11, 10⟩
def stTen : Fld := ⟨9, 9⟩

/-- A register as an instruction field of a frame names it. -/
def Sv.regIn (v : Sv) (f r : Nat) : Word :=
  if r = 0 then 0
  else if r < 4 then vget v.u 0 (r - 1)
  else if r < 8 then vget v.hReg 0 (4 * f + (r - 4))
  else if r < 12 then vget v.sReg 0 (4 * f + (r - 8))
  else vget v.hReg 0 (4 * ((f + 7) % 8) + (r - 12))

/-- A register written; U0 discards it. -/
def Sv.setIn (v : Sv) (f r : Nat) (w : Word) : Sv :=
  if r = 0 then v
  else if r < 4 then { v with u := v.u.setIfInBounds (r - 1) w }
  else if r < 8 then { v with hReg := v.hReg.setIfInBounds (4 * f + (r - 4)) w }
  else if r < 12 then { v with sReg := v.sReg.setIfInBounds (4 * f + (r - 8)) w }
  else { v with hReg := v.hReg.setIfInBounds (4 * ((f + 7) % 8) + (r - 12)) w }

/-- A register of the current frame. -/
def Sv.get (v : Sv) (r : Nat) : Word := v.regIn v.cfr r
def Sv.set (v : Sv) (r : Nat) (w : Word) : Sv := v.setIn v.cfr r w

/-- Another frame becomes the current one. -/
def Sv.frame (v : Sv) (f : Nat) : Sv := { v with st := fset v.st stCfr f }

/-! ## Interrupt sources (R397 to R399, R557) -/

/-- A W1C bit of a register is set. -/
def State.anyW1c (s : State) (a : Nat) : Bool :=
  match regDef a with
  | some d => (s.reg a).toNat &&& d.w1c != 0
  | none => false

/-- A level source is asserted. -/
def State.irqLevel (s : State) (n : Nat) : Bool :=
  if 32 ≤ n ∧ n < 80 then
    let k := n - 32
    decide (k < axisCount s.part) &&
      [PWM_STAT k, CL_STAT k, GATE_STAT k, SC_STAT k, BRK_STAT k, LP_STAT k, STP_STAT k, FB_STAT k].any s.anyW1c
  else if 80 ≤ n ∧ n < 92 then decide (n - 80 < sddCount s.part) && s.anyW1c (SDD_STAT (n - 80))
  else if n = 2 then s.flag SYS_VIN_STAT Fld.SYS_VIN_STAT_WARN || s.flag SYS_VIN_STAT Fld.SYS_VIN_STAT_OV
  else if n = 5 then (List.range 12).any fun e => bits (s.reg (TT_ENG_STAT e)).toNat 7 4 != 0
  else if n = 6 then (List.range 48).any fun p => s.anyW1c (TOW_PORT_STAT p)
  else if n = 7 then !s.basin.notes.isEmpty
  else if n = 8 then s.presentQueues.any fun q => (s.queueAt q).stopped
  else if n = 9 then bits (s.reg TIME_CMPSTAT).toNat 15 8 != 0
  else if n = 11 then !s.eth.msgs.isEmpty
  else if n = 13 then (s.reg (CAN_IF 0) &&& s.reg (CAN_IE 0)) != 0
  else if n = 14 then (s.reg (CAN_IF 1) &&& s.reg (CAN_IE 1)) != 0
  else if n = 15 then ((List.range 16).any fun k => !(s.latAt k).fifo.isEmpty) || (List.range 8).any fun k => !(s.timAt k).fifo.isEmpty
  else if n = 16 then
    ((List.range 16).any fun k => s.anyW1c (TRG_STAT k)) || ((List.range 8).any fun k => s.anyW1c (EMU_STAT k)) || s.anyW1c PS_STAT
  else if n = 19 then
    s.flag FIO_STAT Fld.FIO_STAT_FS_ACT || s.flag FIO_STAT Fld.FIO_STAT_LP_UV || s.flag FIO_STAT Fld.FIO_STAT_LP_OV ||
      s.reg FIO_DO_FLT != 0 || s.reg FIO_DO_OT != 0
  else if n = 20 then s.reg HOST_DB_FW != 0
  else if n = 22 then s.fld (TAG_STAT 0) Fld.TAG_STAT_LEVEL == 16
  else if n = 23 then s.fld (TAG_STAT 1) Fld.TAG_STAT_LEVEL == 16
  else false

/-- The rising edge of a level that no tick and no taking has seen yet. -/
def State.irqRises (s : State) (v : Sv) (n : Nat) : Bool := s.irqLevel n && !v.icHigh.contains n

/-- A source is pending at a pair's controller. -/
def State.irqPending (s : State) (v : Sv) (n : Nat) : Bool :=
  if nbit (Tbl.get (0 : Word) v.icCfg n).toNat 4 then v.icEdge.contains n || s.irqRises v n else s.irqLevel n

/-- The edge sources of a controller. -/
def Sv.edgeSources (v : Sv) : List Nat := (v.icCfg.filter fun e => nbit e.2.toNat 4).map (·.1)

/-- A tick sees the levels: a rising edge stays pending, a level that fell can rise again (R399). -/
def State.irqSee (s : State) (p : Nat) : State :=
  let v := s.svAt p
  if v.edgeSources.isEmpty then s
  else
    s.setSv p { v with icEdge := (v.edgeSources.filter (s.irqRises v)).foldl addOnce v.icEdge, icHigh := v.edgeSources.filter s.irqLevel }

/-- The pending source of the highest level, of equal ones the lowest number: level and source. -/
def State.svIrq (s : State) (v : Sv) : Option (Nat × Nat) :=
  v.icCfg.foldl (fun (b : Option (Nat × Nat)) e =>
    let l := bits e.2.toNat 3 0
    if l != 0 && (b.all fun x => decide (x.1 < l)) && s.irqPending v e.1 then some (l, e.1) else b) none

/-- The interrupt that the core takes at the next instruction boundary. -/
def State.svTakes (s : State) (v : Sv) : Option (Nat × Nat) :=
  match s.svIrq v with
  | some x => if v.ie && v.ten && decide (v.imask < x.1) then some x else none
  | none => none

/-- Trap 0x0B is pending (R401, R403). -/
def Sv.budgetPending (v : Sv) : Bool :=
  nbit v.ptCtl.toNat 0 && decide (v.ptId.toNat < 15) && vget v.ptLeft 0 v.ptId.toNat == 0

/-! ## Traps (R388 to R391) -/

/-- Trap entry: cause, TVAL, and the address that S0 takes. -/
def Sv.enter (v : Sv) (cause : Nat) (tval ret : Word) : Sv :=
  let w : Sv := { v with tstatus := v.st, tcause := BitVec.ofNat 32 cause, tval := tval, waiting := false }
  let w := w.frame (v.cfr + 1)
  let w := w.set 8 ret
  { w with st := fset (fset w.st stTen 0) stPl 2, pc := v.tvec + BitVec.ofNat 32 (32 * cause) }

/-- The counters that a trap raises (R409). -/
def State.countTrap (s : State) (p cause : Nat) : State :=
  let s := s.count (cntSv p) 8
  if 0x40 ≤ cause then s.count (cntSv p) 9
  else if cause = 7 then s.count (cntSv p) 10
  else if cause = 8 then s.count (cntSv p) 11
  else if cause = 4 ∨ cause = 5 then s.count (cntSv p) 12
  else if cause = 0x0A then s.count (cntSv p) 13
  else if cause = 0x0B then s.count (cntSv p) 14
  else s

/-- A trap; with TEN = 0 it is a frame-nesting fault of the pair. -/
def State.svTrap (s : State) (p cause : Nat) (tval ret : Word) : State :=
  let v := s.svAt p
  if !v.ten then s.svFault p (BitVec.ofNat 32 (0x100 + cause))
  else (s.countTrap p cause).setSv p (v.enter cause tval ret)

/-! ## The MPU (R394, R395) -/

/-- The granule address of an MPU register. -/
def granule (w : Word) : Nat := w.toNat / 64 * 64

/-- Attributes of the region that decides an access. -/
def Sv.regionOf (v : Sv) (a : Nat) : Option Nat :=
  (List.range 16).foldl (fun (b : Option Nat) r =>
    let att := (vget v.mpuLimit 0 r).toNat
    let lo := granule (vget v.mpuBase 0 r)
    let hi := granule (vget v.mpuLimit 0 r)
    if lo ≤ hi && lo ≤ a && a < hi + 64 && (v.pl != 2 || nbit att 5) then some (att % 64) else b) none

/-- What an access does. -/
inductive MpuUse where
  | fetch | read | write
  deriving DecidableEq, Repr

/-- The attributes under which an access is granted; none: it is denied. -/
def Sv.mpu (v : Sv) (k : MpuUse) (a : Nat) : Option Nat :=
  match v.regionOf a with
  | none => if v.pl = 2 then some (if a / 0x10000000 = 4 then 16 else 0) else none
  | some att =>
    let use := match k with
      | .fetch => nbit att 2
      | .read => true
      | .write => nbit att 1
    if (v.pl != 0 || nbit att 0) && use then some att else none

/-- An address is cached: C without D, no tightly coupled RAM of the pair's own. -/
def cachedAt (att a : Nat) : Bool := nbit att 3 && !nbit att 4 && !(0x08000000 ≤ a && a < 0x08080000)

/-- A data access that is denied or misaligned: cause and address. -/
def Sv.dataTrap (v : Sv) (k : MpuUse) (a : Word) (size : Nat) : Option (Nat × Word) :=
  if (v.mpu k a.toNat).isNone then some (5, a) else if a.toNat % size ≠ 0 then some (6, a) else none

/-! ## Caches (R404) -/

/-- Lines of the set of a line. -/
def setOf (l : List CacheLine) (ln : Nat) : List CacheLine := l.filter fun (c : CacheLine) => c.line % 128 == ln % 128

/-- The line is held. -/
def findLine (l : List CacheLine) (ln : Nat) : Option CacheLine := l.find? fun (c : CacheLine) => c.line == ln

/-- A line leaves a cache. -/
def dropLine (l : List CacheLine) (ln : Nat) : List CacheLine := l.filter fun (c : CacheLine) => c.line != ln

/-- The line that makes room in a full set; which one is free. -/
def victim (l : List CacheLine) (ln free : Nat) : Option CacheLine :=
  if (setOf l ln).length < 4 then none else (setOf l ln)[free % 4]?

/-- A dirty line is written back. -/
def State.writeBack (s : State) (p : Nat) (c : CacheLine) : State :=
  let s := s.count (cntSv p) 4
  s.each 16 fun s k => s.busWrite (svIni p) (64 * c.line + 4 * k) 4 (BitVec.ofNat 32 (c.data.toNat >>> (32 * k)))

/-- The 64 bytes of a line as memory holds them. -/
def State.lineBytes (s : State) (p ln : Nat) : Option (BitVec 512) :=
  (s.bytesAt (svIni p) (64 * ln) 64).map fun l => BitVec.ofNat 512 (leNat l)

/-- The data cache holds a line: a miss fetches it, and a victim goes. False: the fetch met a bus error. -/
def State.dLine (s : State) (p ln : Nat) : State × Bool :=
  if (findLine (s.svAt p).dcache ln).isSome then (s, true)
  else
    let s := s.count (cntSv p) 3
    match s.lineBytes p ln with
    | none => (s, false)
    | some d =>
      let s := match victim (s.svAt p).dcache ln s.fresh with
        | none => s
        | some c =>
          let s := if c.dirty then s.useFree.writeBack p c else s.useFree
          s.setSv p { s.svAt p with dcache := dropLine (s.svAt p).dcache c.line }
      (s.setSv p { s.svAt p with dcache := { line := ln, data := d } :: (s.svAt p).dcache }, true)

/-- The instruction cache holds a line. -/
def State.iLine (s : State) (p ln : Nat) : State × Bool :=
  if (findLine (s.svAt p).icache ln).isSome then (s, true)
  else
    let s := s.count (cntSv p) 2
    match s.lineBytes p ln with
    | none => (s, false)
    | some d =>
      let s := match victim (s.svAt p).icache ln s.fresh with
        | none => s
        | some c => s.useFree.setSv p { s.svAt p with icache := dropLine (s.svAt p).icache c.line }
      (s.setSv p { s.svAt p with icache := { line := ln, data := d } :: (s.svAt p).icache }, true)

/-- A line of the data cache with `size` bytes replaced. -/
def patchLine (d : BitVec 512) (o size w : Nat) : BitVec 512 :=
  let old := d.toNat / 2 ^ (8 * o) % 2 ^ (8 * size)
  BitVec.ofNat 512 (d.toNat - old * 2 ^ (8 * o) + w % 2 ^ (8 * size) * 2 ^ (8 * o))

/-- Load `size` bytes that the MPU grants with attributes `att`; none: a bus error. -/
def State.svRead (s : State) (p : Nat) (att : Nat) (a : Word) (size : Nat) : State × Option Word :=
  let a := a.toNat
  if cachedAt att a then
    let r := s.dLine p (a / 64)
    match r.2, findLine (r.1.svAt p).dcache (a / 64) with
    | true, some c => (r.1, some (BitVec.ofNat 32 (c.data.toNat / 2 ^ (8 * (a % 64)) % 2 ^ (8 * size))))
    | _, _ => (r.1, none)
  else
    let t := s.busRead (svIni p) a size
    match t.resp with
    | .data w => (t, some w)
    | _ => (t, none)

/-- Store `size` bytes; false: a bus error. -/
def State.svWrite (s : State) (p : Nat) (att : Nat) (a : Word) (size : Nat) (w : Word) : State × Bool :=
  let a := a.toNat
  if cachedAt att a then
    let r := s.dLine p (a / 64)
    if r.2 then
      let v := r.1.svAt p
      let l := v.dcache.map fun (c : CacheLine) =>
        if c.line = a / 64 then { c with data := patchLine c.data (a % 64) size w.toNat, dirty := true } else c
      (r.1.setSv p { v with dcache := l }, true)
    else (r.1, false)
  else
    let t := s.busWrite (svIni p) a size w
    (t, t.resp != .busError)

/-! ## An instruction -/

/-- How an instruction ends: it retires; or it traps with a cause, TVAL and the address for S0; or it is a frame-nesting fault. -/
inductive SvOut where
  | ok (s : State)
  | trap (s : State) (cause : Nat) (tval ret : Word)
  | nest (s : State) (cause : Nat)

/-- The fetch at PC: denied, or a bus error. -/
def State.svFetch (s : State) (p : Nat) : State × Option (Nat × Word) :=
  let v := s.svAt p
  let a := v.pc.toNat / 4 * 4
  match v.mpu .fetch a with
  | none => (s, some (4, v.pc))
  | some att =>
    if cachedAt att a then
      let r := s.iLine p (a / 64)
      (r.1, if r.2 then none else some (0x0A, v.pc))
    else (s, if (s.wordAt (svIni p) a).isSome then none else some (0x0A, v.pc))

/-- Pair `p` executes an instruction that its level `lvl` may execute; `f` gets the address of the instruction, the state with PC
at the next one, and the pair. While the cores are in reset, or wait, nothing happens. -/
def State.svIns (s : State) (p : Nat) (legal : Bool) (lvl : Nat) (f : Word → State → Sv → SvOut) : State :=
  let v := s.svAt p
  if !s.domOn (domSv p) || !v.up || (v.waiting && (s.svTakes v).isNone) then s
  else
    let pc := v.pc
    let s := (s.setSv p { v with waiting := false }).tagFetch p
    let r := s.svFetch p
    match r.2 with
    | some t => r.1.svTrap p t.1 t.2 pc
    | none =>
      if !legal then r.1.svTrap p 2 0 pc
      else if v.pl < lvl then r.1.svTrap p 3 0 pc
      else
        let s := r.1.setSv p { r.1.svAt p with pc := pc + 4 }
        match f pc s (s.svAt p) with
        | .ok s => s.count (cntSv p) 1
        | .trap s c t ret => s.svTrap p c t ret
        | .nest s c => s.svFault p (BitVec.ofNat 32 (0x100 + c))

/-- An instruction that only changes registers of the pair. -/
def State.svReg (s : State) (p lvl : Nat) (f : Sv → Sv) : State := s.svIns p true lvl fun _ s v => .ok (s.setSv p (f v))

/-! ## The instructions that both profiles have (R382, R387) -/

/-- Xd := a result with Z and N, C where the instruction sets it. -/
def svX (p : Nat) (rd : Fin 16) (f : Sv → Word × Option Bool) (s : State) : State :=
  s.svReg p 0 fun v =>
    let r := f v
    let st := stZN v.st r.1.toInt
    let st := match r.2 with
      | some c => stC st c
      | none => st
    ({ v with st := st } : Sv).set rd r.1

/-- A sum with its unsigned carry. -/
def svSum (a b : Word) : Word × Option Bool := (a + b, some (decide (2 ^ 32 ≤ a.toNat + b.toNat)))

/-- A difference with its unsigned borrow. -/
def svDiff (a b : Word) : Word × Option Bool := (a - b, some (decide (a.toNat < b.toNat)))

/-- CMP: the flags of the exact signed difference. -/
def svCmp (p : Nat) (ra rb : Fin 16) (s : State) : State :=
  s.svReg p 0 fun v =>
    { v with st := stC (stZN v.st ((v.get ra).toInt - (v.get rb).toInt)) (decide ((v.get ra).toNat < (v.get rb).toNat)) }

def svLi (p : Nat) (rd : Fin 16) (imm : BitVec 18) (s : State) : State := s.svReg p 0 fun v => v.set rd (imm.signExtend 32)

def svLui (p : Nat) (rd : Fin 16) (imm : BitVec 18) (s : State) : State :=
  s.svReg p 0 fun v => v.set rd (BitVec.ofNat 32 (imm.toNat * 2 ^ 14 + (v.get rd).toNat % 2 ^ 14))

def svNop (p : Nat) (s : State) : State := s.svReg p 0 fun v => v

/-- A displacement in instructions. -/
def svOff (off : BitVec 22) : Word := off.signExtend 32 * 4

def svBrc (p : Nat) (cond : Fin 16) (off : BitVec 22) (s : State) : State :=
  s.svIns p (cond.val ≤ 10) 0 fun pc s v => .ok (s.setSv p (if svCond cond v.st then { v with pc := pc + svOff off } else v))

/-- CALL: the link goes to H3. -/
def svCall (p : Nat) (off : BitVec 22) (s : State) : State :=
  s.svIns p true 0 fun pc s v => .ok (s.setSv p { v.set 7 (pc + 4) with pc := pc + svOff off })

def svRet (p : Nat) (ra : Fin 16) (s : State) : State := s.svReg p 0 fun v => { v with pc := v.get ra }

/-- The supervisor profile's instruction words (R94, R382, R387). -/
def svLegal (w : Nat) : Bool :=
  let ra := insRa w
  let fn := insFn w
  let rest := w % 2 ^ 26
  match insOp w with
  | 0x00 => rest == 0
  | 0x01 => fn5Ok fn 12
  | 0x02 => true
  | 0x03 => ra == 0
  | 0x04 => ra == 0
  | 0x05 => fn ≤ 3
  | 0x0A => true
  | 0x0B => true
  | 0x0C => rest == 0
  | 0x0D => rest == 0
  | 0x0E => ra == 0 && insImm w < 16
  | 0x0F => fn == 0
  | 0x10 => true
  | 0x11 => true
  | 0x12 => rest == 0
  | 0x13 => rest == 0
  | 0x16 => fn ≤ 5
  | 0x20 => true
  | 0x21 => true
  | 0x22 => true
  | 0x23 => true
  | 0x24 => true
  | 0x25 => true
  | 0x26 => true
  | 0x27 => true
  | 0x28 => fn == 0
  | 0x30 => insRd w ≤ 10
  | 0x31 => insRd w == 0
  | 0x32 => fn == 0
  | _ => false

/-- An illegal word; a legal one is not this command. -/
def svIllegal (p : Nat) (w : Word) (s : State) : State :=
  if svLegal w.toNat then s else s.svIns p false 0 fun _ s _ => .ok s

/-! ## Division (R387) -/

/-- Xd := f(Xa, Xb) with Xb ≠ 0; a zero divisor traps. -/
def svDivide (p : Nat) (rd ra rb : Fin 16) (f : Word → Word → Word) (s : State) : State :=
  s.svIns p true 0 fun pc s v =>
    if v.get rb = 0 then .trap s 9 0 pc else .ok (s.setSv p (v.set rd (f (v.get ra) (v.get rb))))

/-- The quotient of the most negative number and −1, and its remainder, are not stated: free. -/
def divCorner (a b : Word) : Bool := a == 0x80000000 && b == 0xFFFFFFFF

def execSvDiv (p : Fin 2) (rd ra rb : Fin 16) (s : State) : Host.Outcome State Fault Refusal :=
  let free := BitVec.ofNat 32 s.fresh
  .next (svDivide p rd ra rb (fun a b => if divCorner a b then free else BitVec.ofInt 32 (a.toInt.tdiv b.toInt)) s.useFree)

def execDivu (p : Fin 2) (rd ra rb : Fin 16) (s : State) : Host.Outcome State Fault Refusal :=
  .next (svDivide p rd ra rb (fun a b => BitVec.ofNat 32 (a.toNat / b.toNat)) s)

def execRem (p : Fin 2) (rd ra rb : Fin 16) (s : State) : Host.Outcome State Fault Refusal :=
  .next (svDivide p rd ra rb (fun a b => BitVec.ofInt 32 (a.toInt.tmod b.toInt)) s)

def execRemu (p : Fin 2) (rd ra rb : Fin 16) (s : State) : Host.Outcome State Fault Refusal :=
  .next (svDivide p rd ra rb (fun a b => BitVec.ofNat 32 (a.toNat % b.toNat)) s)

/-! ## Frames (R385, R386, R391) -/

/-- A move to frame `f`: t := Xa + imm in the old frame goes to Xd in the new one. -/
def svMove (p : Nat) (rd ra : Fin 16) (imm : BitVec 18) (step cause : Nat) (s : State) : State :=
  s.svIns p true 0 fun pc s v =>
    let f := (v.cfr + step) % 8
    if !v.ten then .nest s cause
    else if f = v.rsv.toNat % 8 then .trap s cause 0 pc
    else .ok (s.setSv p ((v.frame f).set rd (v.get ra + imm.signExtend 32)))

/-- FPUSH. -/
def execFpush (p : Fin 2) (rd ra : Fin 16) (imm : BitVec 18) (s : State) : Host.Outcome State Fault Refusal :=
  .next (svMove p rd ra imm 1 7 s)

/-- FPOP. -/
def execFpop (p : Fin 2) (rd ra : Fin 16) (imm : BitVec 18) (s : State) : Host.Outcome State Fault Refusal :=
  .next (svMove p rd ra imm 7 8 s)

/-- Register `k` of the eight that FSPILL and FFILL move for a frame: S0 to S3, then E0 to E3. -/
def spillReg (k : Nat) : Nat := 8 + k

/-- Store words `k` … of a frame at an address; the first trap ends it. -/
def State.spillFrom (s : State) (p f : Nat) (a : Word) : Nat → State × Option (Nat × Word)
  | 0 => (s, none)
  | n + 1 =>
    let k := 7 - n
    let v := s.svAt p
    let x := a + BitVec.ofNat 32 (4 * k)
    match v.dataTrap .write x 4, v.mpu .write x.toNat with
    | none, some att =>
      let r := s.svWrite p att x 4 (v.regIn f (spillReg k))
      if r.2 then r.1.spillFrom p f a n else (r.1, some (0x0A, x))
    | some t, _ => (s, some t)
    | none, none => (s, some (5, x))

/-- Load the eight words of a frame. -/
def State.fillFrom (s : State) (p f : Nat) (a : Word) : Nat → State × Option (Nat × Word)
  | 0 => (s, none)
  | n + 1 =>
    let k := 7 - n
    let v := s.svAt p
    let x := a + BitVec.ofNat 32 (4 * k)
    match v.dataTrap .read x 4, v.mpu .read x.toNat with
    | none, some att =>
      let r := s.svRead p att x 4
      match r.2 with
      | some w => (r.1.setSv p ((r.1.svAt p).setIn f (spillReg k) w)).fillFrom p f a n
      | none => (r.1, some (0x0A, x))
    | some t, _ => (s, some t)
    | none, none => (s, some (5, x))

/-- The eight words at a misaligned FSP: an access that the MPU denies has the lower code (R388). -/
def Sv.frameTrap (v : Sv) (k : MpuUse) (a : Word) : Nat × Word :=
  match (List.range 8).find? fun j => (v.mpu k (a + BitVec.ofNat 32 (4 * j)).toNat).isNone with
  | some j => (5, a + BitVec.ofNat 32 (4 * j))
  | none => (6, a)

/-- FSPILL: S and E of frame (CFR + 1) mod 8 go to the frame stack; a misaligned FSP traps. -/
def execFspill (p : Fin 2) (s : State) : Host.Outcome State Fault Refusal :=
  .next (s.svIns p true 2 fun pc s v =>
    let a := v.fsp - 32
    if a.toNat % 32 ≠ 0 then .trap s (v.frameTrap .write a).1 (v.frameTrap .write a).2 pc
    else
      let r := s.spillFrom p ((v.cfr + 1) % 8) a 8
      match r.2 with
      | some t => .trap r.1 t.1 t.2 pc
      | none => .ok (r.1.setSv p { r.1.svAt p with fsp := a }))

/-- FFILL: S and E of frame (CFR − 2) mod 8 come from the frame stack. -/
def execFfill (p : Fin 2) (s : State) : Host.Outcome State Fault Refusal :=
  .next (s.svIns p true 2 fun pc s v =>
    let a := v.fsp
    if a.toNat % 32 ≠ 0 then .trap s (v.frameTrap .read a).1 (v.frameTrap .read a).2 pc
    else
      let r := s.fillFrom p ((v.cfr + 6) % 8) a 8
      match r.2 with
      | some t => .trap r.1 t.1 t.2 pc
      | none => .ok (r.1.setSv p { r.1.svAt p with fsp := a + 32 }))

/-- TRAP: software trap 0x10 + k, taken after the instruction. -/
def execTrap (p : Fin 2) (k : Fin 16) (s : State) : Host.Outcome State Fault Refusal :=
  .next (s.svIns p true 0 fun pc s _ => .trap (s.count (cntSv p) 1) (0x10 + k) 0 (pc + 4))

/-- TRET: back to the trapped code; a return to the reserved frame is a frame-nesting fault, whose cause code is not stated. -/
def execTret (p : Fin 2) (ra : Fin 16) (s : State) : Host.Outcome State Fault Refusal :=
  let bad := (s.svAt p).ten
  .next (s.svIns p (!bad) 2 fun _ s v =>
    let st := fset v.tstatus stTen 1
    if bits st.toNat 18 16 = v.rsv.toNat % 8 then .nest s.useFree (s.fresh % 256)
    else .ok (s.setSv p { v with st := st, pc := v.get ra }))

/-! ## Control registers (R407) -/

/-- Lowest level that reads a control register; none: it is not in the table. -/
def crRead (n : Nat) : Option Nat :=
  if n = 0x07 then some 0
  else if n = 0x00 ∨ n = 0x0A ∨ n = 0x11 ∨ n = 0x12 then some 1
  else if n ≤ 0x0A ∨ (0x10 ≤ n ∧ n ≤ 0x15) ∨ (0x20 ≤ n ∧ n < 0x2F) ∨ (0x40 ≤ n ∧ n < 0x60) then some 2
  else none

/-- Lowest level that writes a control register; none: it is not in the table, or nobody writes it. -/
def crWrite (n : Nat) : Option Nat :=
  if n = 0x04 ∨ n = 0x05 ∨ n = 0x07 ∨ n = 0x0A ∨ n = 0x12 then none
  else if n = 0x00 then some 1
  else if (crRead n).isSome then some 2
  else none

/-- The value of a control register. -/
def State.crGet (s : State) (p : Nat) (v : Sv) (n : Nat) : Word :=
  if n = 0x00 then v.st
  else if n = 0x01 then v.rsv
  else if n = 0x02 then v.tvec
  else if n = 0x03 then v.tstatus
  else if n = 0x04 then v.tcause
  else if n = 0x05 then v.tval
  else if n = 0x06 then v.fsp
  else if n = 0x07 then BitVec.ofNat 32 p
  else if n = 0x08 then v.icSel
  else if n = 0x09 then
    BitVec.ofNat 32 (b2n (s.irqPending v v.icSel.toNat) * 256 + (Tbl.get (0 : Word) v.icCfg v.icSel.toNat).toNat % 32)
  else if n = 0x0A then v.icClaim
  else if n = 0x10 then v.ptCtl
  else if n = 0x11 then v.ptId
  else if n = 0x12 then BitVec.ofNat 32 (vget v.ptLeft 0 v.ptId.toNat)
  else if n = 0x13 then v.ptMused
  else if n = 0x14 then v.ptOvr
  else if n = 0x15 then v.ptStat
  else if n < 0x40 then vget v.ptBud 0 (n - 0x20)
  else if n % 2 = 0 then vget v.mpuBase 0 ((n - 0x40) / 2)
  else vget v.mpuLimit 0 ((n - 0x41) / 2)

/-- ST at a write: what the mask leaves out stays. -/
def stMerge (old w : Word) (mask : Nat) : Word :=
  BitVec.ofNat 32 ((old.toNat &&& (0xFFFFFFFF ^^^ mask)) ||| (w.toNat &&& mask))

/-- A write of ST from System level keeps all but IMASK, IE and the flags; from Machine level, CFR is written too. TEN stays (R390), and so
does PL: a lower level is entered only by TRET (R393). -/
def Sv.setSt (v : Sv) (w : Word) : Option Sv :=
  if v.pl < 2 then some { v with st := stMerge v.st w 0x1FF }
  else if bits w.toNat 11 10 = 3 ∨ bits w.toNat 18 16 = v.rsv.toNat % 8 then none
  else some { v with st := stMerge v.st w 0x701FF }

/-- A write of an IC_CFG: a source that becomes a level source has no edge pending. -/
def Sv.setIc (v : Sv) (w : Word) : Sv :=
  let n := v.icSel.toNat
  { v with icCfg := Tbl.put 0 v.icCfg n (BitVec.ofNat 32 (w.toNat % 32)),
           icEdge := if nbit w.toNat 4 then v.icEdge else v.icEdge.filter (· != n),
           icHigh := if nbit w.toNat 4 then v.icHigh else v.icHigh.filter (· != n) }

/-- A source that becomes an edge source while it is asserted has no new edge. -/
def State.icSeen (s : State) (old v : Sv) : Sv :=
  let n := v.icSel.toNat
  let edge := fun (x : Sv) => nbit (Tbl.get (0 : Word) x.icCfg n).toNat 4
  if edge v && !edge old && s.irqLevel n then { v with icHigh := addOnce v.icHigh n } else v

/-- A write of an MPU register; a locked region keeps its two. -/
def Sv.setMpu (v : Sv) (n : Nat) (w : Word) : Sv :=
  let r := (n - 0x40) / 2
  if nbit (vget v.mpuLimit 0 r).toNat 5 then v
  else if n % 2 = 0 then { v with mpuBase := v.mpuBase.setIfInBounds r (BitVec.ofNat 32 (granule w)) }
  else { v with mpuLimit := v.mpuLimit.setIfInBounds r w }

/-- A control register written; none: the write is illegal. -/
def Sv.crSet (v : Sv) (n : Nat) (w : Word) : Option Sv :=
  if n = 0x00 then v.setSt w
  else if n = 0x01 then if w.toNat % 8 = v.cfr then none else some { v with rsv := BitVec.ofNat 32 (w.toNat % 8) }
  else if n = 0x02 then some { v with tvec := BitVec.ofNat 32 (w.toNat / 4096 * 4096) }
  else if n = 0x03 then if bits w.toNat 11 10 = 3 then none else some { v with tstatus := BitVec.ofNat 32 (w.toNat &&& 0x70FFF) }
  else if n = 0x06 then some { v with fsp := w }
  else if n = 0x08 then some { v with icSel := BitVec.ofNat 32 (w.toNat % 256) }
  else if n = 0x09 then some (v.setIc w)
  else if n = 0x10 then some { v with ptCtl := BitVec.ofNat 32 (w.toNat % 2) }
  else if n = 0x11 then some { v with ptId := BitVec.ofNat 32 (w.toNat % 16) }
  else if n = 0x13 then if w = 0 then some { v with ptMused := 0 } else none
  else if n = 0x14 then if w = 0 then some { v with ptOvr := 0 } else none
  else if n = 0x15 then some { v with ptStat := v.ptStat &&& ~~~w }
  else if n < 0x40 then some { v with ptBud := v.ptBud.setIfInBounds (n - 0x20) w }
  else some (v.setMpu n w)

/-- RDCR. -/
def execRdcr (p : Fin 2) (rd : Fin 16) (n : Byte) (s : State) : Host.Outcome State Fault Refusal :=
  match crRead n.toNat with
  | none => .next (s.svIns p false 0 fun _ s _ => .ok s)
  | some lvl => .next (s.svIns p true lvl fun _ s v => .ok (s.setSv p (v.set rd (s.crGet p v n.toNat))))

/-- WRCR. -/
def execWrcr (p : Fin 2) (rd : Fin 16) (n : Byte) (s : State) : Host.Outcome State Fault Refusal :=
  match crWrite n.toNat with
  | none => .next (s.svIns p false 0 fun _ s _ => .ok s)
  | some lvl =>
    .next (s.svIns p true lvl fun pc s v =>
      match v.crSet n.toNat (v.get rd) with
      | some w => .ok (s.setSv p (if n = 0x09 then s.icSeen v w else w))
      | none => .trap s 2 0 pc)

/-! ## WAIT, FENCE, CACHE -/

/-- WAIT: issue stops until an interrupt that R398 would take is pending. -/
def execWait (p : Fin 2) (s : State) : Host.Outcome State Fault Refusal :=
  .next (s.svIns p true 1 fun _ s v => .ok (s.setSv p { v with waiting := (s.svTakes v).isNone }))

/-- FENCE: every earlier store is complete when its command ends, so only PC moves. -/
def execFence (p : Fin 2) (s : State) : Host.Outcome State Fault Refusal := .next (s.svReg p 0 fun v => v)

/-- The line of the address in Xa. -/
def Sv.lineOf (v : Sv) (ra : Fin 16) : Nat := (v.get ra).toNat / 64

/-- A dirty line is written back and becomes clean. -/
def State.cleanLine (s : State) (p ln : Nat) : State :=
  match findLine (s.svAt p).dcache ln with
  | some c =>
    if c.dirty then
      let s := s.writeBack p c
      s.setSv p { s.svAt p with dcache := (s.svAt p).dcache.map fun (x : CacheLine) => if x.line = ln then { x with dirty := false } else x }
    else s
  | none => s

/-- A line of the data cache goes. -/
def State.dropD (s : State) (p ln : Nat) : State := s.setSv p { s.svAt p with dcache := dropLine (s.svAt p).dcache ln }

def execInvalidateILine (p : Fin 2) (ra : Fin 16) (s : State) : Host.Outcome State Fault Refusal :=
  .next (s.svReg p 1 fun v => { v with icache := dropLine v.icache (v.lineOf ra) })

def execCleanDLine (p : Fin 2) (ra : Fin 16) (s : State) : Host.Outcome State Fault Refusal :=
  .next (s.svIns p true 1 fun _ s v => .ok (s.cleanLine p (v.lineOf ra)))

def execInvalidateDLine (p : Fin 2) (ra : Fin 16) (s : State) : Host.Outcome State Fault Refusal :=
  .next (s.svIns p true 1 fun _ s v => .ok (s.dropD p (v.lineOf ra)))

def execCleanInvalidateDLine (p : Fin 2) (ra : Fin 16) (s : State) : Host.Outcome State Fault Refusal :=
  .next (s.svIns p true 1 fun _ s v => .ok ((s.cleanLine p (v.lineOf ra)).dropD p (v.lineOf ra)))

def execInvalidateICache (p : Fin 2) (s : State) : Host.Outcome State Fault Refusal := .next (s.svReg p 1 fun v => { v with icache := [] })

def execCleanInvalidateDCache (p : Fin 2) (s : State) : Host.Outcome State Fault Refusal :=
  .next (s.svIns p true 1 fun _ s v =>
    let s := v.dcache.foldl (fun s (c : CacheLine) => s.cleanLine p c.line) s
    .ok (s.setSv p { s.svAt p with dcache := [] }))

/-! ## Loads and stores -/

/-- Xd := memory, extended by `ext`. -/
def svLoadIns (p : Nat) (rd ra : Fin 16) (imm : BitVec 18) (size : Nat) (ext : Word → Word) (s : State) : State :=
  s.svIns p true 0 fun pc s v =>
    let a := v.get ra + imm.signExtend 32
    match v.dataTrap .read a size, v.mpu .read a.toNat with
    | none, some att =>
      let r := s.svRead p att a size
      match r.2 with
      | some w => .ok (r.1.setSv p ((r.1.svAt p).set rd (ext w)))
      | none => .trap r.1 0x0A a pc
    | some t, _ => .trap s t.1 t.2 pc
    | none, none => .trap s 5 a pc

/-- Memory := Xd. -/
def svStoreIns (p : Nat) (rd ra : Fin 16) (imm : BitVec 18) (size : Nat) (s : State) : State :=
  s.svIns p true 0 fun pc s v =>
    let a := v.get ra + imm.signExtend 32
    match v.dataTrap .write a size, v.mpu .write a.toNat with
    | none, some att =>
      let r := s.svWrite p att a size (v.get rd)
      if r.2 then .ok r.1 else .trap r.1 0x0A a pc
    | some t, _ => .trap s t.1 t.2 pc
    | none, none => .trap s 5 a pc

/-- Sign extension from `n` bits. -/
def sextW (n : Nat) (w : Word) : Word := BitVec.ofInt 32 (sxt n w.toNat)

def execLdw (p : Fin 2) (rd ra : Fin 16) (imm : BitVec 18) (s : State) : Host.Outcome State Fault Refusal :=
  .next (svLoadIns p rd ra imm 4 id s)
def execLdh (p : Fin 2) (rd ra : Fin 16) (imm : BitVec 18) (s : State) : Host.Outcome State Fault Refusal :=
  .next (svLoadIns p rd ra imm 2 (sextW 16) s)
def execLdhu (p : Fin 2) (rd ra : Fin 16) (imm : BitVec 18) (s : State) : Host.Outcome State Fault Refusal :=
  .next (svLoadIns p rd ra imm 2 id s)
def execLdb (p : Fin 2) (rd ra : Fin 16) (imm : BitVec 18) (s : State) : Host.Outcome State Fault Refusal :=
  .next (svLoadIns p rd ra imm 1 (sextW 8) s)
def execLdbu (p : Fin 2) (rd ra : Fin 16) (imm : BitVec 18) (s : State) : Host.Outcome State Fault Refusal :=
  .next (svLoadIns p rd ra imm 1 id s)
def execStw (p : Fin 2) (rd ra : Fin 16) (imm : BitVec 18) (s : State) : Host.Outcome State Fault Refusal :=
  .next (svStoreIns p rd ra imm 4 s)
def execSth (p : Fin 2) (rd ra : Fin 16) (imm : BitVec 18) (s : State) : Host.Outcome State Fault Refusal :=
  .next (svStoreIns p rd ra imm 2 s)
def execStb (p : Fin 2) (rd ra : Fin 16) (imm : BitVec 18) (s : State) : Host.Outcome State Fault Refusal :=
  .next (svStoreIns p rd ra imm 1 s)

/-- CAS: o := mem[Xa]; where o = Xb, mem[Xa] := Xd; Xd := o. It reaches its target directly. -/
def execCas (p : Fin 2) (rd ra rb : Fin 16) (s : State) : Host.Outcome State Fault Refusal :=
  .next (s.svIns p true 0 fun pc s v =>
    let a := v.get ra
    match v.dataTrap .write a 4 with
    | some t => .trap s t.1 t.2 pc
    | none =>
      let t := s.busRead (svIni p) a.toNat 4
      match t.resp with
      | .data o =>
        let u := if o = v.get rb then t.busWrite (svIni p) a.toNat 4 (v.get rd) else t
        if u.resp = .busError then .trap u 0x0A a pc else .ok (u.setSv p ((u.svAt p).set rd o))
      | _ => .trap t 0x0A a pc)

/-! ## Interrupts and the partition timer -/

/-- INTERRUPT_TAKEN: at an instruction boundary; `lat` is the latency from the assertion, in core cycles. -/
def execInterruptTaken (p : Fin 2) (lat : Word) (s : State) : Host.Outcome State Fault Refusal :=
  let p := p.val
  let v := s.svAt p
  match s.svTakes v with
  | none => .next s
  | some x =>
    if !s.domOn (domSv p) || !v.up || v.budgetPending then .next s
    else
      let w := (v.enter (0x40 + x.1) (BitVec.ofNat 32 x.2) v.pc)
      let w := { w with icClaim := BitVec.ofNat 32 (256 * x.1 + x.2), icEdge := w.icEdge.filter (· != x.2),
                          icHigh := if w.edgeSources.contains x.2 && s.irqLevel x.2 then addOnce w.icHigh x.2 else w.icHigh }
      let s := (s.countTrap p (0x40 + x.1)).setSv p w
      .next (s.measure 1 lat.toNat fun sel => sel / 256 % 2 == p && (sel % 256 == x.2 || sel % 256 == 255))

/-- BUDGET_TRAP_TAKEN: at an instruction boundary, before any interrupt. -/
def execBudgetTrapTaken (p : Fin 2) (s : State) : Host.Outcome State Fault Refusal :=
  let v := s.svAt p
  .next (if s.domOn (domSv p) && v.up && v.ten && v.budgetPending then s.svTrap p 0x0B v.ptId v.pc else s)

/-- PARTITION_RELOAD: every partition's budget, with the check of their sum. -/
def execPartitionReload (p : Fin 2) (s : State) : Host.Outcome State Fault Refusal :=
  let v := s.svAt p
  if !s.domOn (domSv p) then .next s
  else
    let sum := v.ptBud.toList.foldl (fun (n : Nat) w => n + w.toNat) 0
    let past := decide (16 * (s.grid.2.2 * s.grid.1) < 5 * sum)
    .next (s.setSv p { v with ptLeft := v.ptBud.map (·.toNat), ptStat := if past then v.ptStat ||| 1 else v.ptStat })

/-- `k` cycles are charged to the running partition, or counted in PT_MUSED at Machine level (R400, R401). -/
def Sv.charge (v : Sv) (k : Nat) : Sv :=
  if v.pl = 2 then { v with ptMused := BitVec.ofNat 32 (Nat.min (v.ptMused.toNat + k) (2 ^ 32 - 1)) }
  else
    let i := v.ptId.toNat
    if 15 ≤ i then v
    else
      let l := vget v.ptLeft 0 i
      let w := { v with ptLeft := v.ptLeft.setIfInBounds i (l - k) }
      if l < k then
        { w with ptOvr := BitVec.ofNat 32 (Nat.min (w.ptOvr.toNat + (k - l)) (2 ^ 32 - 1)), ptStat := fset w.ptStat ⟨11, 8⟩ i }
      else w

/-- The counters of `k` core cycles (R409). -/
def State.svCycles (s : State) (p k : Nat) : State :=
  let v := s.svAt p
  let s := s.count (cntSv p) 0 k
  if !v.up then s
  else
    let s := s.count (cntSv p) (34 - Nat.min v.pl 2) k
    let s := if v.ten then s else s.count (cntSv p) 15 k
    let s := if v.pl < 2 then s.count (cntSv p) (16 + v.ptId.toNat % 16) k else s
    s.setSv p (v.charge k)

/-- PARTITION_BUDGET_EXHAUSTED: the running partition has used the rest of its budget, below Machine level. -/
def execPartitionBudgetExhausted (p : Fin 2) (s : State) : Host.Outcome State Fault Refusal :=
  let v := s.svAt p
  if !s.domOn (domSv p) || !v.up || v.pl == 2 || decide (15 ≤ v.ptId.toNat) then .next s
  else .next (s.svCycles p (vget v.ptLeft 0 v.ptId.toNat))

end Sys2Proof.Machine
end

