-- ==== Sys2Proof/Machine/BaseIns.lean ====
section
/-! DEFINITION. The instructions that both profiles of Hermisil have (R118, R382): a loop engine or a supervisor pair runs them. -/

namespace Sys2Proof.Machine

/-- The effect by the core: a loop engine, or a supervisor pair. -/
def byCore (c : Core) (le : Nat → State → State) (sv : Nat → State → State) (s : State) : Host.Outcome State Fault Refusal :=
  match c with
  | .le n => .next (le n s)
  | .sv p => .next (sv p s)

/-- A three-register operation whose result sets Z and N only. -/
def baseX (c : Core) (rd ra rb : Fin 16) (n : Nat) (f : Word → Word → Word) (s : State) : Host.Outcome State Fault Refusal :=
  byCore c (fun e => leX e rd ra rb n f) (fun p => svX p rd fun v => (f (v.get ra) (v.get rb), none)) s

/-- A two-register operation whose result sets Z and N only. -/
def baseXi (c : Core) (rd ra : Fin 16) (f : Word → Word) (s : State) : Host.Outcome State Fault Refusal :=
  byCore c (fun e => leXi e rd ra f) (fun p => svX p rd fun v => (f (v.get ra), none)) s

def execIllegalInstruction (c : Core) (w : Word) (s : State) : Host.Outcome State Fault Refusal :=
  byCore c (fun e => leIllegal e w) (fun p => svIllegal p w) s

def execNop (c : Core) (s : State) : Host.Outcome State Fault Refusal := byCore c leNop svNop s

def execAdd (c : Core) (rd ra rb : Fin 16) (s : State) : Host.Outcome State Fault Refusal :=
  byCore c (fun e => leX e rd ra rb 1 (· + ·)) (fun p => svX p rd fun v => svSum (v.get ra) (v.get rb)) s

def execSub (c : Core) (rd ra rb : Fin 16) (s : State) : Host.Outcome State Fault Refusal :=
  byCore c (fun e => leX e rd ra rb 1 (· - ·)) (fun p => svX p rd fun v => svDiff (v.get ra) (v.get rb)) s

def execAnd (c : Core) (rd ra rb : Fin 16) (s : State) : Host.Outcome State Fault Refusal := baseX c rd ra rb 1 (· &&& ·) s
def execOr (c : Core) (rd ra rb : Fin 16) (s : State) : Host.Outcome State Fault Refusal := baseX c rd ra rb 1 (· ||| ·) s
def execXor (c : Core) (rd ra rb : Fin 16) (s : State) : Host.Outcome State Fault Refusal := baseX c rd ra rb 1 (· ^^^ ·) s

def execShl (c : Core) (rd ra rb : Fin 16) (s : State) : Host.Outcome State Fault Refusal :=
  baseX c rd ra rb 1 (fun a b => a <<< shAmt b) s
def execShr (c : Core) (rd ra rb : Fin 16) (s : State) : Host.Outcome State Fault Refusal :=
  baseX c rd ra rb 1 (fun a b => a >>> shAmt b) s
def execAsr (c : Core) (rd ra rb : Fin 16) (s : State) : Host.Outcome State Fault Refusal :=
  baseX c rd ra rb 1 (fun a b => a.sshiftRight (shAmt b)) s

/-- MUL: the product of a loop engine is usable one instruction later (R118). -/
def execMul (c : Core) (rd ra rb : Fin 16) (s : State) : Host.Outcome State Fault Refusal := baseX c rd ra rb 2 (· * ·) s

def execCmp (c : Core) (ra rb : Fin 16) (s : State) : Host.Outcome State Fault Refusal :=
  byCore c (fun e => leCmp e ra rb) (fun p => svCmp p ra rb) s

def execShli (c : Core) (rd ra : Fin 16) (sh : Fin 32) (s : State) : Host.Outcome State Fault Refusal := baseXi c rd ra (· <<< sh.val) s
def execShri (c : Core) (rd ra : Fin 16) (sh : Fin 32) (s : State) : Host.Outcome State Fault Refusal := baseXi c rd ra (· >>> sh.val) s
def execAsri (c : Core) (rd ra : Fin 16) (sh : Fin 32) (s : State) : Host.Outcome State Fault Refusal :=
  baseXi c rd ra (·.sshiftRight sh.val) s

def execAddi (c : Core) (rd ra : Fin 16) (imm : BitVec 18) (s : State) : Host.Outcome State Fault Refusal :=
  byCore c (fun e => leXi e rd ra (· + imm.signExtend 32)) (fun p => svX p rd fun v => svSum (v.get ra) (imm.signExtend 32)) s

def execLi (c : Core) (rd : Fin 16) (imm : BitVec 18) (s : State) : Host.Outcome State Fault Refusal :=
  byCore c (fun e => leLi e rd imm) (fun p => svLi p rd imm) s

def execLui (c : Core) (rd : Fin 16) (imm : BitVec 18) (s : State) : Host.Outcome State Fault Refusal :=
  byCore c (fun e => leLui e rd imm) (fun p => svLui p rd imm) s

def execBrc (c : Core) (cond : Fin 16) (off : BitVec 22) (s : State) : Host.Outcome State Fault Refusal :=
  byCore c (fun e => leBrc e cond off) (fun p => svBrc p cond off) s

def execCall (c : Core) (off : BitVec 22) (s : State) : Host.Outcome State Fault Refusal :=
  byCore c (fun e => leCall e off) (fun p => svCall p off) s

def execRet (c : Core) (ra : Fin 16) (s : State) : Host.Outcome State Fault Refusal :=
  byCore c (fun e => leRet e ra) (fun p => svRet p ra) s

end Sys2Proof.Machine
end

