-- ==== Sys2Proof/Machine/Dispatch.lean ====
section
/-! DEFINITION. The meaning of every command. -/

namespace Sys2Proof.Machine

open Sys2Proof

def exec (i : Instr) (s : State) : Host.Outcome State Fault Refusal :=
  match i with
  | .cpValueWrite ini addr w => Sys2Proof.Machine.execCpValueWrite ini addr w s
  | .cpComplementWrite ini addr w => Sys2Proof.Machine.execCpComplementWrite ini addr w s
  | .cpArmTimeout ini addr => Sys2Proof.Machine.execCpArmTimeout ini addr s
  | .cpRead ini addr complement => Sys2Proof.Machine.execCpRead ini addr complement s
  | .absentBlockAccess ini addr write => Sys2Proof.Machine.execAbsentBlockAccess ini addr write s
  | .registerWrite ini addr size w => Sys2Proof.Machine.execRegisterWrite ini addr size w s
  | .dieLinkFrame d dir f => Sys2Proof.Machine.execDieLinkFrame d dir f s
  | .dieLinkRetry d dir f fits => Sys2Proof.Machine.execDieLinkRetry d dir f fits s
  | .clLimitReached n lostBurst => Sys2Proof.Machine.execClLimitReached n lostBurst s
  | .loopSupervisionLimit n which => Sys2Proof.Machine.execLoopSupervisionLimit n which s
  | .dieLinkLaneLoss d lane => Sys2Proof.Machine.execDieLinkLaneLoss d lane s
  | .dieLinkKeepalive d => Sys2Proof.Machine.execDieLinkKeepalive d s
  | .dieLinkSilent d => Sys2Proof.Machine.execDieLinkSilent d s
  | .islandClockStop isl halt => Sys2Proof.Machine.execIslandClockStop isl halt s
  | .towpathFlitReceive r plane crcOk flit => Sys2Proof.Machine.execTowpathFlitReceive r plane crcOk flit s
  | .replicaForward lockId => Sys2Proof.Machine.execReplicaForward lockId s
  | .creditReturn p vc => Sys2Proof.Machine.execCreditReturn p vc s
  | .reservationOpen r => Sys2Proof.Machine.execReservationOpen r s
  | .reservationSpanEnd r => Sys2Proof.Machine.execReservationSpanEnd r s
  | .flightBoundary => Sys2Proof.Machine.execFlightBoundary s
  | .lockStart e l => Sys2Proof.Machine.execLockStart e l s
  | .lockCutOff e ecc => Sys2Proof.Machine.execLockCutOff e ecc s
  | .engineLockstepMismatch e => Sys2Proof.Machine.execEngineLockstepMismatch e s
  | .debugEventTaken e => Sys2Proof.Machine.execDebugEventTaken e s
  | .haltReq e => Sys2Proof.Machine.execHaltReq e s
  | .resumeFromHalt e => Sys2Proof.Machine.execResumeFromHalt e s
  | .singleStep e => Sys2Proof.Machine.execSingleStep e s
  | .illegalInstruction c w => Sys2Proof.Machine.execIllegalInstruction c w s
  | .nop c => Sys2Proof.Machine.execNop c s
  | .add c rd ra rb => Sys2Proof.Machine.execAdd c rd ra rb s
  | .sub c rd ra rb => Sys2Proof.Machine.execSub c rd ra rb s
  | .and c rd ra rb => Sys2Proof.Machine.execAnd c rd ra rb s
  | .or c rd ra rb => Sys2Proof.Machine.execOr c rd ra rb s
  | .xor c rd ra rb => Sys2Proof.Machine.execXor c rd ra rb s
  | .shl c rd ra rb => Sys2Proof.Machine.execShl c rd ra rb s
  | .shr c rd ra rb => Sys2Proof.Machine.execShr c rd ra rb s
  | .asr c rd ra rb => Sys2Proof.Machine.execAsr c rd ra rb s
  | .mul c rd ra rb => Sys2Proof.Machine.execMul c rd ra rb s
  | .cmp c ra rb => Sys2Proof.Machine.execCmp c ra rb s
  | .shli c rd ra sh => Sys2Proof.Machine.execShli c rd ra sh s
  | .shri c rd ra sh => Sys2Proof.Machine.execShri c rd ra sh s
  | .asri c rd ra sh => Sys2Proof.Machine.execAsri c rd ra sh s
  | .addi c rd ra imm => Sys2Proof.Machine.execAddi c rd ra imm s
  | .li c rd imm => Sys2Proof.Machine.execLi c rd imm s
  | .lui c rd imm => Sys2Proof.Machine.execLui c rd imm s
  | .addD e rd ra rb => Sys2Proof.Machine.execAddD e rd ra rb s
  | .subD e rd ra rb => Sys2Proof.Machine.execSubD e rd ra rb s
  | .addS e rd ra rb => Sys2Proof.Machine.execAddS e rd ra rb s
  | .subS e rd ra rb => Sys2Proof.Machine.execSubS e rd ra rb s
  | .neg e rd ra => Sys2Proof.Machine.execNeg e rd ra s
  | .abs e rd ra => Sys2Proof.Machine.execAbs e rd ra s
  | .min e rd ra rb => Sys2Proof.Machine.execMin e rd ra rb s
  | .max e rd ra rb => Sys2Proof.Machine.execMax e rd ra rb s
  | .clamp e rd ra rb rc => Sys2Proof.Machine.execClamp e rd ra rb rc s
  | .cmpD e ra rb => Sys2Proof.Machine.execCmpD e ra rb s
  | .asriD e rd ra sh => Sys2Proof.Machine.execAsriD e rd ra sh s
  | .shliS e rd ra sh => Sys2Proof.Machine.execShliS e rd ra sh s
  | .andD e rd ra rb => Sys2Proof.Machine.execAndD e rd ra rb s
  | .orD e rd ra rb => Sys2Proof.Machine.execOrD e rd ra rb s
  | .xorD e rd ra rb => Sys2Proof.Machine.execXorD e rd ra rb s
  | .lid e rd imm => Sys2Proof.Machine.execLid e rd imm s
  | .move e rd ra dst src => Sys2Proof.Machine.execMove e rd ra dst src s
  | .mva e rd ra sat k => Sys2Proof.Machine.execMva e rd ra sat k s
  | .clr e rd => Sys2Proof.Machine.execClr e rd s
  | .lda e rd ra => Sys2Proof.Machine.execLda e rd ra s
  | .adda e rd ra rb => Sys2Proof.Machine.execAdda e rd ra rb s
  | .suba e rd ra rb => Sys2Proof.Machine.execSuba e rd ra rb s
  | .sha e rd ra sh => Sys2Proof.Machine.execSha e rd ra sh s
  | .sat e rd ra => Sys2Proof.Machine.execSat e rd ra s
  | .nega e rd ra => Sys2Proof.Machine.execNega e rd ra s
  | .mac e aa dm dn m1 m2 => Sys2Proof.Machine.execMac e aa dm dn m1 m2 s
  | .msu e aa dm dn m1 m2 => Sys2Proof.Machine.execMsu e aa dm dn m1 m2 s
  | .mpy e aa dm dn m1 m2 => Sys2Proof.Machine.execMpy e aa dm dn m1 m2 s
  | .mac2 e aa dm dn m1 m2 => Sys2Proof.Machine.execMac2 e aa dm dn m1 m2 s
  | .tap e aa pi pj => Sys2Proof.Machine.execTap e aa pi pj s
  | .minsel e rd xr pi n1 => Sys2Proof.Machine.execMinsel e rd xr pi n1 s
  | .div e rd ra rb => Sys2Proof.Machine.execDiv e rd ra rb s
  | .nrecip e rd ra rb => Sys2Proof.Machine.execNrecip e rd ra rb s
  | .sqrt e rd ra => Sys2Proof.Machine.execSqrt e rd ra s
  | .sincos e rd ra => Sys2Proof.Machine.execSincos e rd ra s
  | .clarke e rd ra rb rc three => Sys2Proof.Machine.execClarke e rd ra rb rc three s
  | .park e rd ra rb => Sys2Proof.Machine.execPark e rd ra rb s
  | .ipark e rd ra rb => Sys2Proof.Machine.execIpark e rd ra rb s
  | .svm e rd ra => Sys2Proof.Machine.execSvm e rd ra s
  | .perr e rd ra rb k => Sys2Proof.Machine.execPerr e rd ra rb k s
  | .add64 e rd ra rb => Sys2Proof.Machine.execAdd64 e rd ra rb s
  | .sub64 e rd ra rb => Sys2Proof.Machine.execSub64 e rd ra rb s
  | .addp e rd imm => Sys2Proof.Machine.execAddp e rd imm s
  | .ld e rd post pi imm => Sys2Proof.Machine.execLd e rd post pi imm s
  | .st e rd post pi imm => Sys2Proof.Machine.execSt e rd post pi imm s
  | .ldx e rd post pi imm => Sys2Proof.Machine.execLdx e rd post pi imm s
  | .stx e rd post pi imm => Sys2Proof.Machine.execStx e rd post pi imm s
  | .ldt e rd ra entry => Sys2Proof.Machine.execLdt e rd ra entry s
  | .ldtw e rd ra entry => Sys2Proof.Machine.execLdtw e rd ra entry s
  | .ldtv e rd g => Sys2Proof.Machine.execLdtv e rd g s
  | .stt e rd => Sys2Proof.Machine.execStt e rd s
  | .sttw e rd => Sys2Proof.Machine.execSttw e rd s
  | .brc c cond off => Sys2Proof.Machine.execBrc c cond off s
  | .call c off => Sys2Proof.Machine.execCall c off s
  | .ret c ra => Sys2Proof.Machine.execRet c ra s
  | .rep e xc xs count => Sys2Proof.Machine.execRep e xc xs count s
  | .rpb e xc xs count len => Sys2Proof.Machine.execRpb e xc xs count len s
  | .leave e => Sys2Proof.Machine.execLeave e s
  | .commit e => Sys2Proof.Machine.execCommit e s
  | .endLock e => Sys2Proof.Machine.execEndLock e s
  | .bkpt e => Sys2Proof.Machine.execBkpt e s
  | .ttRun ini w => Sys2Proof.Machine.execTtRun ini w s
  | .ttLoad ini w => Sys2Proof.Machine.execTtLoad ini w s
  | .ttLoadComplete => Sys2Proof.Machine.execTtLoadComplete s
  | .tcopy ini w => Sys2Proof.Machine.execTcopy ini w s
  | .tcopyDone => Sys2Proof.Machine.execTcopyDone s
  | .ttTwrData ini w => Sys2Proof.Machine.execTtTwrData ini w s
  | .twrAck => Sys2Proof.Machine.execTwrAck s
  | .swapArm ini voyage => Sys2Proof.Machine.execSwapArm ini voyage s
  | .swapCancel ini voyage => Sys2Proof.Machine.execSwapCancel ini voyage s
  | .ttAltForce ini alt => Sys2Proof.Machine.execTtAltForce ini alt s
  | .slackRead ini e => Sys2Proof.Machine.execSlackRead ini e s
  | .pwmEnSet n w => Sys2Proof.Machine.execPwmEnSet n w s
  | .pwmEnClear n w => Sys2Proof.Machine.execPwmEnClear n w s
  | .safeReqSet n w => Sys2Proof.Machine.execSafeReqSet n w s
  | .safeReqClear n w => Sys2Proof.Machine.execSafeReqClear n w s
  | .updatePoint n peak iA iB => Sys2Proof.Machine.execUpdatePoint n peak iA iB s
  | .burst n late b => Sys2Proof.Machine.execBurst n late b s
  | .scTrip n snp snn => Sys2Proof.Machine.execScTrip n snp snn s
  | .scLatchClear n w => Sys2Proof.Machine.execScLatchClear n w s
  | .sddGds ini d w => Sys2Proof.Machine.execSddGds ini d w s
  | .vgdUvlo d mv => Sys2Proof.Machine.execVgdUvlo d mv s
  | .regOl d => Sys2Proof.Machine.execRegOl d s
  | .prechargeEnd n bst => Sys2Proof.Machine.execPrechargeEnd n bst s
  | .bootstrapUvlo n k bst => Sys2Proof.Machine.execBootstrapUvlo n k bst s
  | .calStart n w => Sys2Proof.Machine.execCalStart n w s
  | .calDecayEnd n => Sys2Proof.Machine.execCalDecayEnd n s
  | .calMeasureEnd n sums most least => Sys2Proof.Machine.execCalMeasureEnd n sums most least s
  | .brakeBlockEnd n => Sys2Proof.Machine.execBrakeBlockEnd n s
  | .vbusOv d code => Sys2Proof.Machine.execVbusOv d code s
  | .hbrkRelSet n w => Sys2Proof.Machine.execHbrkRelSet n w s
  | .hbrkRelClear n w => Sys2Proof.Machine.execHbrkRelClear n w s
  | .pullInEnd n => Sys2Proof.Machine.execPullInEnd n s
  | .stoAAssert => Sys2Proof.Machine.execStoAAssert s
  | .stoBAssert => Sys2Proof.Machine.execStoBAssert s
  | .stoRelease a => Sys2Proof.Machine.execStoRelease a s
  | .sddTempSample d t => Sys2Proof.Machine.execSddTempSample d t s
  | .tsdTimeout d => Sys2Proof.Machine.execTsdTimeout d s
  | .chopperHi n b => Sys2Proof.Machine.execChopperHi n b s
  | .chopperLo n b => Sys2Proof.Machine.execChopperLo n b s
  | .chopperZero n b => Sys2Proof.Machine.execChopperZero n b s
  | .tfastEnd n b => Sys2Proof.Machine.execTfastEnd n b s
  | .stallLimit n => Sys2Proof.Machine.execStallLimit n s
  | .encoderEdge n ab stamp => Sys2Proof.Machine.execEncoderEdge n ab stamp s
  | .indexEvent n => Sys2Proof.Machine.execIndexEvent n s
  | .hallChange n h stamp => Sys2Proof.Machine.execHallChange n h stamp s
  | .encoderSamplingInstant n => Sys2Proof.Machine.execEncoderSamplingInstant n s
  | .serialFrameStart n => Sys2Proof.Machine.execSerialFrameStart n s
  | .serialFrameEnd n f => Sys2Proof.Machine.execSerialFrameEnd n f s
  | .cableFault n c pairs => Sys2Proof.Machine.execCableFault n c pairs s
  | .faultClear n c => Sys2Proof.Machine.execFaultClear n c s
  | .fbModeWrite n w => Sys2Proof.Machine.execFbModeWrite n w s
  | .resume n w => Sys2Proof.Machine.execResume n w s
  | .alStart n w => Sys2Proof.Machine.execAlStart n w s
  | .alGo n w => Sys2Proof.Machine.execAlGo n w s
  | .alEnd n w => Sys2Proof.Machine.execAlEnd n w s
  | .alAbort n w => Sys2Proof.Machine.execAlAbort n w s
  | .alignRestEnd n => Sys2Proof.Machine.execAlignRestEnd n s
  | .alignSettleEnd n => Sys2Proof.Machine.execAlignSettleEnd n s
  | .fbCountLo ini n => Sys2Proof.Machine.execFbCountLo ini n s
  | .trgAppend n w => Sys2Proof.Machine.execTrgAppend n w s
  | .trgFlush n w => Sys2Proof.Machine.execTrgFlush n w s
  | .trgEnSet n w => Sys2Proof.Machine.execTrgEnSet n w s
  | .trgEnClear n w => Sys2Proof.Machine.execTrgEnClear n w s
  | .psyncWindowCompute routes => Sys2Proof.Machine.execPsyncWindowCompute routes s
  | .triggerPulseStart n => Sys2Proof.Machine.execTriggerPulseStart n s
  | .triggerPulseEnd n => Sys2Proof.Machine.execTriggerPulseEnd n s
  | .emuEnSet e w => Sys2Proof.Machine.execEmuEnSet e w s
  | .emuStep e => Sys2Proof.Machine.execEmuStep e s
  | .latchEvent n falling stamp => Sys2Proof.Machine.execLatchEvent n falling stamp s
  | .latchPositionsComplete n => Sys2Proof.Machine.execLatchPositionsComplete n s
  | .latchPop n w => Sys2Proof.Machine.execLatchPop n w s
  | .timResRead ini m => Sys2Proof.Machine.execTimResRead ini m s
  | .delayLineCalDone failed => Sys2Proof.Machine.execDelayLineCalDone failed s
  | .delayLineSwap l elements => Sys2Proof.Machine.execDelayLineSwap l elements s
  | .faultReport r => Sys2Proof.Machine.execFaultReport r s
  | .collectorCopyMismatch tpStop => Sys2Proof.Machine.execCollectorCopyMismatch tpStop s
  | .fcAck ini src => Sys2Proof.Machine.execFcAck ini src s
  | .fcAckAll ini => Sys2Proof.Machine.execFcAckAll ini s
  | .mdTimerExpiry => Sys2Proof.Machine.execMdTimerExpiry s
  | .sdTimerExpiry => Sys2Proof.Machine.execSdTimerExpiry s
  | .svPairFault p => Sys2Proof.Machine.execSvPairFault p s
  | .svRestartDone p => Sys2Proof.Machine.execSvRestartDone p s
  | .istRoundOverdue => Sys2Proof.Machine.execIstRoundOverdue s
  | .safetyCycleBoundary resA resB => Sys2Proof.Machine.execSafetyCycleBoundary resA resB s
  | .soloMaxExpiry b => Sys2Proof.Machine.execSoloMaxExpiry b s
  | .stoDiscExpiry => Sys2Proof.Machine.execStoDiscExpiry s
  | .pathReadbackTimeout b d pathB reads => Sys2Proof.Machine.execPathReadbackTimeout b d pathB reads s
  | .pairDiscTimeout b p => Sys2Proof.Machine.execPairDiscTimeout b p s
  | .safeRestart ini w => Sys2Proof.Machine.execSafeRestart ini w s
  | .safeReq ini w => Sys2Proof.Machine.execSafeReq ini w s
  | .soTestPulse b k shows => Sys2Proof.Machine.execSoTestPulse b k shows s
  | .ss1Timeout a => Sys2Proof.Machine.execSs1Timeout a s
  | .safeLoad ini w => Sys2Proof.Machine.execSafeLoad ini w s
  | .safeLoadDone sdt agree => Sys2Proof.Machine.execSafeLoadDone sdt agree s
  | .safeDisarm ini w => Sys2Proof.Machine.execSafeDisarm ini w s
  | .safeConfirm ini w => Sys2Proof.Machine.execSafeConfirm ini w s
  | .svDiv p rd ra rb => Sys2Proof.Machine.execSvDiv p rd ra rb s
  | .divu p rd ra rb => Sys2Proof.Machine.execDivu p rd ra rb s
  | .rem p rd ra rb => Sys2Proof.Machine.execRem p rd ra rb s
  | .remu p rd ra rb => Sys2Proof.Machine.execRemu p rd ra rb s
  | .fpush p rd ra imm => Sys2Proof.Machine.execFpush p rd ra imm s
  | .fpop p rd ra imm => Sys2Proof.Machine.execFpop p rd ra imm s
  | .fspill p => Sys2Proof.Machine.execFspill p s
  | .ffill p => Sys2Proof.Machine.execFfill p s
  | .trap p k => Sys2Proof.Machine.execTrap p k s
  | .tret p ra => Sys2Proof.Machine.execTret p ra s
  | .rdcr p rd n => Sys2Proof.Machine.execRdcr p rd n s
  | .wrcr p rd n => Sys2Proof.Machine.execWrcr p rd n s
  | .wait p => Sys2Proof.Machine.execWait p s
  | .fence p => Sys2Proof.Machine.execFence p s
  | .invalidateILine p ra => Sys2Proof.Machine.execInvalidateILine p ra s
  | .cleanDLine p ra => Sys2Proof.Machine.execCleanDLine p ra s
  | .invalidateDLine p ra => Sys2Proof.Machine.execInvalidateDLine p ra s
  | .cleanInvalidateDLine p ra => Sys2Proof.Machine.execCleanInvalidateDLine p ra s
  | .invalidateICache p => Sys2Proof.Machine.execInvalidateICache p s
  | .cleanInvalidateDCache p => Sys2Proof.Machine.execCleanInvalidateDCache p s
  | .ldw p rd ra imm => Sys2Proof.Machine.execLdw p rd ra imm s
  | .ldh p rd ra imm => Sys2Proof.Machine.execLdh p rd ra imm s
  | .ldhu p rd ra imm => Sys2Proof.Machine.execLdhu p rd ra imm s
  | .ldb p rd ra imm => Sys2Proof.Machine.execLdb p rd ra imm s
  | .ldbu p rd ra imm => Sys2Proof.Machine.execLdbu p rd ra imm s
  | .stw p rd ra imm => Sys2Proof.Machine.execStw p rd ra imm s
  | .sth p rd ra imm => Sys2Proof.Machine.execSth p rd ra imm s
  | .stb p rd ra imm => Sys2Proof.Machine.execStb p rd ra imm s
  | .cas p rd ra rb => Sys2Proof.Machine.execCas p rd ra rb s
  | .interruptTaken p lat => Sys2Proof.Machine.execInterruptTaken p lat s
  | .budgetTrapTaken p => Sys2Proof.Machine.execBudgetTrapTaken p s
  | .partitionReload p => Sys2Proof.Machine.execPartitionReload p s
  | .partitionBudgetExhausted p => Sys2Proof.Machine.execPartitionBudgetExhausted p s
  | .instructionTag p stamps flags => Sys2Proof.Machine.execInstructionTag p stamps flags s
  | .perfClrSv0 ini => Sys2Proof.Machine.execPerfClrSv0 ini s
  | .perfClrSv1 ini => Sys2Proof.Machine.execPerfClrSv1 ini s
  | .perfClrLe ini => Sys2Proof.Machine.execPerfClrLe ini s
  | .perfClrTow ini => Sys2Proof.Machine.execPerfClrTow ini s
  | .perfCounterLo ini u e => Sys2Proof.Machine.execPerfCounterLo ini u e s
  | .tagEmpty ini p => Sys2Proof.Machine.execTagEmpty ini p s
  | .histCfgWrite ini h w => Sys2Proof.Machine.execHistCfgWrite ini h w s
  | .acqLatch => Sys2Proof.Machine.execAcqLatch s
  | .acqStart => Sys2Proof.Machine.execAcqStart s
  | .acqStop => Sys2Proof.Machine.execAcqStop s
  | .acqForce => Sys2Proof.Machine.execAcqForce s
  | .timeNowLo ini => Sys2Proof.Machine.execTimeNowLo ini s
  | .timeCmpArm k w => Sys2Proof.Machine.execTimeCmpArm k w s
  | .timeCmpFire k => Sys2Proof.Machine.execTimeCmpFire k s
  | .timeStep w => Sys2Proof.Machine.execTimeStep w s
  | .ptpSync p f => Sys2Proof.Machine.execPtpSync p f s
  | .ptpAnnounce p f => Sys2Proof.Machine.execPtpAnnounce p f s
  | .pdelayReq p ingress egress => Sys2Proof.Machine.execPdelayReq p ingress egress s
  | .pdelayResp p stamp turn nrr => Sys2Proof.Machine.execPdelayResp p stamp turn nrr s
  | .pdelayTx p stamp => Sys2Proof.Machine.execPdelayTx p stamp s
  | .gmSyncTx p stamp => Sys2Proof.Machine.execGmSyncTx p stamp s
  | .referenceLoss r => Sys2Proof.Machine.execReferenceLoss r s
  | .switchWindowEnd => Sys2Proof.Machine.execSwitchWindowEnd s
  | .holdoverLimit => Sys2Proof.Machine.execHoldoverLimit s
  | .ethFrameRx p f => Sys2Proof.Machine.execEthFrameRx p f s
  | .hsrSupervisionTx => Sys2Proof.Machine.execHsrSupervisionTx s
  | .ringOpen => Sys2Proof.Machine.execRingOpen s
  | .hsrEntryAge mac seq => Sys2Proof.Machine.execHsrEntryAge mac seq s
  | .ethLinkChange p up full an => Sys2Proof.Machine.execEthLinkChange p up full an s
  | .gclEntryExpiry p => Sys2Proof.Machine.execGclEntryExpiry p s
  | .qbvChange p w => Sys2Proof.Machine.execQbvChange p w s
  | .lqPush p w => Sys2Proof.Machine.execLqPush p w s
  | .launch p => Sys2Proof.Machine.execLaunch p s
  | .launchLateDrop p => Sys2Proof.Machine.execLaunchLateDrop p s
  | .tlPublish routes => Sys2Proof.Machine.execTlPublish routes s
  | .tlCyclic h fx objs => Sys2Proof.Machine.execTlCyclic h fx objs s
  | .tlRead h addr count => Sys2Proof.Machine.execTlRead h addr count s
  | .tlWrite h addr words => Sys2Proof.Machine.execTlWrite h addr words s
  | .tlCpWrite h addr words => Sys2Proof.Machine.execTlCpWrite h addr words s
  | .tlBarges h entries => Sys2Proof.Machine.execTlBarges h entries s
  | .tlMessage h data => Sys2Proof.Machine.execTlMessage h data s
  | .tlMsgRead => Sys2Proof.Machine.execTlMsgRead s
  | .basinSubmit ini q => Sys2Proof.Machine.execBasinSubmit ini q s
  | .submitCheckDone ini => Sys2Proof.Machine.execSubmitCheckDone ini s
  | .basinReport q r => Sys2Proof.Machine.execBasinReport q r s
  | .dispatchBegin k => Sys2Proof.Machine.execDispatchBegin k s
  | .dispatchComplete k => Sys2Proof.Machine.execDispatchComplete k s
  | .notePop => Sys2Proof.Machine.execNotePop s
  | .queueStop q => Sys2Proof.Machine.execQueueStop q s
  | .stopClr q => Sys2Proof.Machine.execStopClr q s
  | .queueResume q => Sys2Proof.Machine.execQueueResume q s
  | .canFrameRx c f sof => Sys2Proof.Machine.execCanFrameRx c f sof s
  | .canTxDone c sof => Sys2Proof.Machine.execCanTxDone c sof s
  | .canTxError c lost => Sys2Proof.Machine.execCanTxError c lost s
  | .canObjOwn c m w => Sys2Proof.Machine.execCanObjOwn c m w s
  | .canAbort c m => Sys2Proof.Machine.execCanAbort c m s
  | .recReq c => Sys2Proof.Machine.execRecReq c s
  | .busOffRecovered c => Sys2Proof.Machine.execBusOffRecovered c s
  | .canEnSet c w => Sys2Proof.Machine.execCanEnSet c w s
  | .canSynced c => Sys2Proof.Machine.execCanSynced c s
  | .canEnClear c w => Sys2Proof.Machine.execCanEnClear c w s
  | .canTmSend c sof => Sys2Proof.Machine.execCanTmSend c sof s
  | .canTmRx c seq flags epoch stamp sof => Sys2Proof.Machine.execCanTmRx c seq flags epoch stamp sof s
  | .safeCopyRx plane canId m => Sys2Proof.Machine.execSafeCopyRx plane canId m s
  | .cwExpiry r => Sys2Proof.Machine.execCwExpiry r s
  | .connectionWatchdog r => Sys2Proof.Machine.execConnectionWatchdog r s
  | .sdtLoad ini w => Sys2Proof.Machine.execSdtLoad ini w s
  | .sdtConfirm ini w => Sys2Proof.Machine.execSdtConfirm ini w s
  | .fieldLinkDownlink bytes => Sys2Proof.Machine.execFieldLinkDownlink bytes s
  | .fieldLinkUplink bytes raw lplus vout => Sys2Proof.Machine.execFieldLinkUplink bytes raw lplus vout s
  | .uplinkLoss => Sys2Proof.Machine.execUplinkLoss s
  | .fsTimeout => Sys2Proof.Machine.execFsTimeout s
  | .diChange ini raw => Sys2Proof.Machine.execDiChange ini raw s
  | .counterEdge ini rise t => Sys2Proof.Machine.execCounterEdge ini rise t s
  | .freqTimeout ini => Sys2Proof.Machine.execFreqTimeout ini s
  | .cntClr w => Sys2Proof.Machine.execCntClr w s
  | .doWrite w => Sys2Proof.Machine.execDoWrite w s
  | .doSet w => Sys2Proof.Machine.execDoSet w s
  | .doClr w => Sys2Proof.Machine.execDoClr w s
  | .doOverload k hot => Sys2Proof.Machine.execDoOverload k hot s
  | .doRetry k cool => Sys2Proof.Machine.execDoRetry k cool s
  | .doOpenWire k => Sys2Proof.Machine.execDoOpenWire k s
  | .testPulse t off => Sys2Proof.Machine.execTestPulse t off s
  | .lpUv code => Sys2Proof.Machine.execLpUv code s
  | .lpOv code => Sys2Proof.Machine.execLpOv code s
  | .vinOkRise mv => Sys2Proof.Machine.execVinOkRise mv s
  | .vinWarn mv => Sys2Proof.Machine.execVinWarn mv s
  | .vinWarnClear mv => Sys2Proof.Machine.execVinWarnClear mv s
  | .vinUv mv => Sys2Proof.Machine.execVinUv mv s
  | .vinOv mv => Sys2Proof.Machine.execVinOv mv s
  | .railFail r => Sys2Proof.Machine.execRailFail r s
  | .vbakLow mv => Sys2Proof.Machine.execVbakLow mv s
  | .bkSupplyDip deep => Sys2Proof.Machine.execBkSupplyDip deep s
  | .domainLoss ini => Sys2Proof.Machine.execDomainLoss ini s
  | .pwrReq ini k w => Sys2Proof.Machine.execPwrReq ini k w s
  | .domainReady ini => Sys2Proof.Machine.execDomainReady ini s
  | .modeReq ini m => Sys2Proof.Machine.execModeReq ini m s
  | .resetNAssert => Sys2Proof.Machine.execResetNAssert s
  | .resetNRelease straps => Sys2Proof.Machine.execResetNRelease straps s
  | .wakeLand level => Sys2Proof.Machine.execWakeLand level s
  | .rtcAlarm => Sys2Proof.Machine.execRtcAlarm s
  | .rtcHiWrite ini w => Sys2Proof.Machine.execRtcHiWrite ini w s
  | .sysRtcLo ini => Sys2Proof.Machine.execSysRtcLo ini s
  | .wakeStepComplete ok bad => Sys2Proof.Machine.execWakeStepComplete ok bad s
  | .wakeTimeout => Sys2Proof.Machine.execWakeTimeout s
  | .verify ini w => Sys2Proof.Machine.execVerify ini w s
  | .verifyDone => Sys2Proof.Machine.execVerifyDone s
  | .reboot ini w => Sys2Proof.Machine.execReboot ini w s
  | .norErase ini => Sys2Proof.Machine.execNorErase ini s
  | .norProgram ini => Sys2Proof.Machine.execNorProgram ini s
  | .norOpDone err => Sys2Proof.Machine.execNorOpDone err s
  | .keyProgram ini k => Sys2Proof.Machine.execKeyProgram ini k s
  | .keyRevoke ini k => Sys2Proof.Machine.execKeyRevoke ini k s
  | .psWrite ini w => Sys2Proof.Machine.execPsWrite ini w s
  | .psRead ini w => Sys2Proof.Machine.execPsRead ini w s
  | .psCompact ini w => Sys2Proof.Machine.execPsCompact ini w s
  | .psIdent ini w => Sys2Proof.Machine.execPsIdent ini w s
  | .psFiocfg ini w => Sys2Proof.Machine.execPsFiocfg ini w s
  | .psDone => Sys2Proof.Machine.execPsDone s
  | .rdsr => Sys2Proof.Machine.execRdsr s
  | .rdid => Sys2Proof.Machine.execRdid s
  | .wharfRead addr len late => Sys2Proof.Machine.execWharfRead addr len late s
  | .wharfWrite addr words => Sys2Proof.Machine.execWharfWrite addr words s
  | .pwmEdge n k e => Sys2Proof.Machine.execPwmEdge n k e s
  | .vgdUvloRelease d mv => Sys2Proof.Machine.execVgdUvloRelease d mv s
  | .vinOvClear mv => Sys2Proof.Machine.execVinOvClear mv s
  | .tonMinExpiry n b => Sys2Proof.Machine.execTonMinExpiry n b s
  | .toffMinExpiry n b => Sys2Proof.Machine.execToffMinExpiry n b s
  | .gateCycleStart p => Sys2Proof.Machine.execGateCycleStart p s
  | .announceReceiptTimeout p => Sys2Proof.Machine.execAnnounceReceiptTimeout p s

end Sys2Proof.Machine
end

