-- ==== Sys2Proof/Machine/Tick.lean ====
section
/-! DEFINITION. A tick of 4 ns, which passes while no command waits (DESIGN CHOICE, log entry 1): what the clocks of the module do
by themselves. -/

namespace Sys2Proof.Machine
open Sys2Proof.Machine.Reg

/-- Cycles of a clock of `num` / `den` cycles a tick that end in tick `c`. -/
def cyclesIn (num den c : Nat) : Nat := (c + 1) * num / den - c * num / den

/-- Cycles of a loop engine (table of islands: 600 MHz) through the tick: all of them, those in idle locks, those outside any lock (R409). -/
def State.leTick (s : State) (e : Nat) : State :=
  if !s.domOn (domLe e) || s.fc.stopped.contains (domLe e) then s
  else
    let k := cyclesIn 12 5 s.clock
    let s := s.count (cntLe e) 0 k
    match (s.leAt e).run with
    | none => s.count (cntLe e) 15 k
    | some r => if r.lock.kind = 0 then s else s.count (cntLe e) 14 k

/-- Cycles of a supervisor pair (table of islands: 800 MHz). -/
def State.svTick (s : State) (p : Nat) : State :=
  if !s.domOn (domSv p) || s.fc.stopped.contains (domSv p) then s else s.svCycles p (cyclesIn 16 5 s.clock)

/-- Cycles of the TP island (table of islands: 500 MHz). -/
def State.towTick (s : State) : State :=
  if !s.domOn domTP || s.fc.stopped.contains domTP then s else s.count cntTow 0 2

/-- The line-time counter (R428) runs with the clock of NW. -/
def State.lineTick (s : State) : State :=
  if !s.domOn domNW || s.fc.stopped.contains domNW then s
  else s.modTime fun t => t.advance (s.reg TIME_RATE).toInt

/-- 4 ns pass: the cycle counters, line time, the RTC, the next word of a waiting wharf WRITE, the next message to send, the end of a test
pulse of a safety output, the next step of an orderly power-down, the edges of level-held interrupt sources. -/
def State.tick (s : State) : State :=
  let s := ((s.each 12 State.leTick).each 2 State.svTick).towTick.lineTick
  let s := s.modPwr fun p => p.rtcTick s.clock
  let s := (s.wharfStep.tlDrain.soPulseEnd.downStep).each 2 State.irqSee
  { s with clock := s.clock + 1 }

end Sys2Proof.Machine
end

