-- ==== Sys2Proof/Machine/Step.lean ====
section
/-! DEFINITION. One step: the command at the front of the queue, or a tick where none waits. -/

namespace Sys2Proof.Machine

/-- What happens while no command waits (log entry 1): a flight boundary that line time has reached falls (R34); else 4 ns pass. -/
def idle (s : State) : Host.Outcome State Fault Refusal :=
  if s.boundaryReached && s.boundaryDue then execFlightBoundary s else .next s.tick

/-- The command at the front runs with the rest of the queue. DESIGN CHOICE (log entry 297): commands of one cycle stand in the order of
R553 and R554, a unit's own events after the accesses. -/
def step (s : State) : Host.Outcome State Fault Refusal :=
  match s.pending with
  | c :: rest => exec c { s with pending := rest }
  | [] => idle s

/-- The command that a word spells, at the front of the queue. -/
def State.withFetchWord (s : State) (nbits w : Nat) : State :=
  match decodeTableWord nbits w with
  | some c => { s with pending := c :: s.pending }
  | none => s

end Sys2Proof.Machine
end

