-- ==== Sys2Proof/WellFormed.lean ====
section
/-! DEFINITION. The commands that can be sent: the operands that the widths of their fields or of their frames bound. -/

namespace Sys2Proof

/-- No number stands twice. -/
def distinct : List Nat → Bool
  | [] => true
  | n :: t => !t.contains n && distinct t

/-- No element stands twice. -/
def distinctBy {α : Type} (eq : α → α → Bool) : List α → Bool
  | [] => true
  | x :: t => !t.any (eq x) && distinctBy eq t

/-- The number of data bytes that a DLC of 0 to 15 stands for (R457). -/
def dlcBytes (d : Fin 16) : Nat :=
  if d.val ≤ 8 then d.val else if d.val ≤ 12 then 4 * (d.val - 6) else 16 * (d.val - 11)

/-- A frame of the bus: an 11-bit identifier unless IDE, its data bytes as the DLC says, at most 8 in a classic frame and none in a
remote frame. -/
def canFrameWf (f : CanFrame) : Bool :=
  (f.ide || decide (f.id.toNat < 2 ^ 11)) && !(f.fdf && f.rtr) &&
    (if f.rtr then f.data.isEmpty else f.data.length == (if f.fdf then dlcBytes f.dlc else min 8 f.dlc.val))

/-- The command can be sent. -/
def Instr.wf : Instr → Bool
  | .cpValueWrite _ a _ => decide (a < 2 ^ 32)
  | .cpComplementWrite _ a _ => decide (a < 2 ^ 32)
  | .cpArmTimeout _ a => decide (a < 2 ^ 32)
  | .cpRead _ a _ => decide (a < 2 ^ 32)
  | .absentBlockAccess _ a _ => decide (a < 2 ^ 32)
  | .registerWrite _ a n _ => decide (a < 2 ^ 32) && [1, 2, 4].contains n
  | .burst _ _ b => decide (b.slots.length ≤ 4) && decide (b.phv.length ≤ 4)
  | .scTrip _ p q => decide (p.length ≤ 4) && decide (q.length ≤ 4)
  | .prechargeEnd _ l => decide (l.length ≤ 4)
  | .calMeasureEnd _ l _ _ => decide (l.length ≤ 4)
  | .psyncWindowCompute l => distinct (l.map fun x => x.src.val)
  | .delayLineCalDone l => distinctBy (· == ·) l
  | .faultReport r => decide (r.src < 2 ^ 16) && r.axes.all (· < 48)
  | .tlPublish l => decide (l.length ≤ 8)
  | .canFrameRx _ f _ => canFrameWf f
  | .safeCopyRx _ n _ => decide (n < 2 ^ 29)
  | .wakeStepComplete _ l => distinctBy (· == ·) l
  | .wharfRead _ n l => decide (4 ≤ n) && decide (n ≤ 256) && l.all fun k => decide (4 * k < n)
  | .wharfWrite _ l => decide (1 ≤ l.length) && decide (l.length ≤ 64)
  | .dieLinkFrame .. | .dieLinkRetry .. | .clLimitReached .. | .loopSupervisionLimit .. | .dieLinkLaneLoss ..
  | .dieLinkKeepalive .. | .dieLinkSilent .. | .islandClockStop .. | .towpathFlitReceive .. | .replicaForward ..
  | .creditReturn .. | .reservationOpen .. | .reservationSpanEnd .. | .flightBoundary .. | .lockStart .. | .lockCutOff ..
  | .engineLockstepMismatch .. | .debugEventTaken .. | .haltReq .. | .resumeFromHalt .. | .singleStep ..
  | .illegalInstruction .. | .nop .. | .add .. | .sub .. | .and .. | .or .. | .xor .. | .shl .. | .shr .. | .asr .. | .mul ..
  | .cmp .. | .shli .. | .shri .. | .asri .. | .addi .. | .li .. | .lui .. | .addD .. | .subD .. | .addS .. | .subS ..
  | .neg .. | .abs .. | .min .. | .max .. | .clamp .. | .cmpD .. | .asriD .. | .shliS .. | .andD .. | .orD .. | .xorD ..
  | .lid .. | .move .. | .mva .. | .clr .. | .lda .. | .adda .. | .suba .. | .sha .. | .sat .. | .nega .. | .mac .. | .msu ..
  | .mpy .. | .mac2 .. | .tap .. | .minsel .. | .div .. | .nrecip .. | .sqrt .. | .sincos .. | .clarke .. | .park ..
  | .ipark .. | .svm .. | .perr .. | .add64 .. | .sub64 .. | .addp .. | .ld .. | .st .. | .ldx .. | .stx .. | .ldt ..
  | .ldtw .. | .ldtv .. | .stt .. | .sttw .. | .brc .. | .call .. | .ret .. | .rep .. | .rpb .. | .leave .. | .commit ..
  | .endLock .. | .bkpt .. | .ttRun .. | .ttLoad .. | .ttLoadComplete .. | .tcopy .. | .tcopyDone .. | .ttTwrData ..
  | .twrAck .. | .swapArm .. | .swapCancel .. | .ttAltForce .. | .slackRead .. | .pwmEnSet .. | .pwmEnClear .. | .safeReqSet ..
  | .safeReqClear .. | .updatePoint .. | .scLatchClear .. | .sddGds .. | .vgdUvlo .. | .regOl .. | .bootstrapUvlo ..
  | .calStart .. | .calDecayEnd .. | .brakeBlockEnd .. | .vbusOv .. | .hbrkRelSet .. | .hbrkRelClear .. | .pullInEnd ..
  | .stoAAssert .. | .stoBAssert .. | .stoRelease .. | .sddTempSample .. | .tsdTimeout .. | .chopperHi .. | .chopperLo ..
  | .chopperZero .. | .tfastEnd .. | .stallLimit .. | .encoderEdge .. | .indexEvent .. | .hallChange ..
  | .encoderSamplingInstant .. | .serialFrameStart .. | .serialFrameEnd .. | .cableFault .. | .faultClear .. | .fbModeWrite ..
  | .resume .. | .alStart .. | .alGo .. | .alEnd .. | .alAbort .. | .alignRestEnd .. | .alignSettleEnd .. | .fbCountLo ..
  | .trgAppend .. | .trgFlush .. | .trgEnSet .. | .trgEnClear .. | .triggerPulseStart .. | .triggerPulseEnd .. | .emuEnSet ..
  | .emuStep .. | .latchEvent .. | .latchPositionsComplete .. | .latchPop .. | .timResRead .. | .delayLineSwap ..
  | .collectorCopyMismatch .. | .fcAck .. | .fcAckAll .. | .mdTimerExpiry .. | .sdTimerExpiry .. | .svPairFault ..
  | .svRestartDone .. | .istRoundOverdue .. | .safetyCycleBoundary .. | .soloMaxExpiry .. | .stoDiscExpiry ..
  | .pathReadbackTimeout .. | .pairDiscTimeout .. | .safeRestart .. | .safeReq .. | .soTestPulse .. | .ss1Timeout ..
  | .safeLoad .. | .safeLoadDone .. | .safeDisarm .. | .safeConfirm .. | .svDiv .. | .divu .. | .rem .. | .remu .. | .fpush ..
  | .fpop .. | .fspill .. | .ffill .. | .trap .. | .tret .. | .rdcr .. | .wrcr .. | .wait .. | .fence .. | .invalidateILine ..
  | .cleanDLine .. | .invalidateDLine .. | .cleanInvalidateDLine .. | .invalidateICache .. | .cleanInvalidateDCache ..
  | .ldw .. | .ldh .. | .ldhu .. | .ldb .. | .ldbu .. | .stw .. | .sth .. | .stb .. | .cas .. | .interruptTaken ..
  | .budgetTrapTaken .. | .partitionReload .. | .partitionBudgetExhausted .. | .instructionTag .. | .perfClrSv0 ..
  | .perfClrSv1 .. | .perfClrLe .. | .perfClrTow .. | .perfCounterLo .. | .tagEmpty .. | .histCfgWrite .. | .acqLatch ..
  | .acqStart .. | .acqStop .. | .acqForce .. | .timeNowLo .. | .timeCmpArm .. | .timeCmpFire .. | .timeStep .. | .ptpSync ..
  | .ptpAnnounce .. | .pdelayReq .. | .pdelayResp .. | .pdelayTx .. | .gmSyncTx .. | .referenceLoss .. | .switchWindowEnd ..
  | .holdoverLimit .. | .ethFrameRx .. | .hsrSupervisionTx .. | .ringOpen .. | .hsrEntryAge .. | .ethLinkChange ..
  | .gclEntryExpiry .. | .qbvChange .. | .lqPush .. | .launch .. | .launchLateDrop .. | .tlCyclic .. | .tlRead .. | .tlWrite ..
  | .tlCpWrite .. | .tlBarges .. | .tlMessage .. | .tlMsgRead .. | .basinSubmit .. | .submitCheckDone .. | .basinReport ..
  | .dispatchBegin .. | .dispatchComplete .. | .notePop .. | .queueStop .. | .stopClr .. | .queueResume .. | .canTxDone ..
  | .canTxError .. | .canObjOwn .. | .canAbort .. | .recReq .. | .busOffRecovered .. | .canEnSet .. | .canSynced ..
  | .canEnClear .. | .canTmSend .. | .canTmRx .. | .cwExpiry .. | .connectionWatchdog .. | .sdtLoad .. | .sdtConfirm ..
  | .fieldLinkDownlink .. | .fieldLinkUplink .. | .uplinkLoss .. | .fsTimeout .. | .diChange .. | .counterEdge ..
  | .freqTimeout .. | .cntClr .. | .doWrite .. | .doSet .. | .doClr .. | .doOverload .. | .doRetry .. | .doOpenWire ..
  | .testPulse .. | .lpUv .. | .lpOv .. | .vinOkRise .. | .vinWarn .. | .vinWarnClear .. | .vinUv .. | .vinOv .. | .railFail ..
  | .vbakLow .. | .bkSupplyDip .. | .domainLoss .. | .pwrReq .. | .domainReady .. | .modeReq .. | .resetNAssert ..
  | .resetNRelease .. | .wakeLand .. | .rtcAlarm .. | .rtcHiWrite .. | .sysRtcLo .. | .wakeTimeout .. | .verify ..
  | .verifyDone .. | .reboot .. | .norErase .. | .norProgram .. | .norOpDone .. | .keyProgram .. | .keyRevoke .. | .psWrite ..
  | .psRead .. | .psCompact .. | .psIdent .. | .psFiocfg .. | .psDone .. | .rdsr .. | .rdid .. | .pwmEdge ..
  | .vgdUvloRelease .. | .vinOvClear .. | .tonMinExpiry .. | .toffMinExpiry .. | .gateCycleStart ..
  | .announceReceiptTimeout .. => true

end Sys2Proof
end

