-- ==== Sys2Proof/Safety.lean ====
section
/-! DEFINITION. The terms in which statements speak of the machine: a command completes; what a command leaves as it was; the
canonical form of the tables. -/

namespace Sys2Proof.Machine
open Sys2Proof.Machine.Reg

/-- The command answers a next state that satisfies `P`. -/
def Runs (c : Instr) (s : State) (P : State → Prop) : Prop := ∃ t, exec c s = .next t ∧ P t

/-- Every register but those listed reads as before. -/
def RegsBut (s t : State) (l : List Nat) : Prop := ∀ a, a ∉ l → t.reg a = s.reg a

/-- Every register outside the block of 64 KiB at `b` × 0x1_0000 reads as before. -/
def RegsOutside (s t : State) (b : Nat) : Prop := ∀ a, a / 0x10000 ≠ b → t.reg a = s.reg a

/-- Every byte of memory reads as before. -/
def MemSame (s t : State) : Prop := ∀ a, t.cell a = s.cell a

/-- The memory is in its canonical form: addresses rise, no byte listed is what an unlisted byte reads as. -/
def Memory.wf (m : List Host.Cell) : Bool := Tbl.wf memFill m

/-- What every step keeps: the ordering code; the canonical form of the registers, of the stored complements and of the memory; the
performance counters within 48 bits (R408); the RTC within 48 bits (R520). -/
structure State.Inv (p : Part) (s : State) : Prop where
  part : s.part = p
  regs : Tbl.wf (regReset p) s.regs = true
  cp   : Tbl.wf (fun _ => 0) s.cpDiff = true
  mem  : Memory.wf s.mem = true
  perf : Tbl.wf (fun _ => 0) s.perf = true
  cnt  : ∀ e ∈ s.perf, e.2 < 2 ^ 48
  rtc  : s.pwr.rtc < 2 ^ 48

/-! ## Fault reports -/

/-- One corrected report was counted (R336). -/
def CorrectedOnce (s t : State) : Prop :=
  t.fld FC_COUNT Fld.FC_COUNT_CORRECTED = satInc 12 (s.fld FC_COUNT Fld.FC_COUNT_CORRECTED)

/-- One contained report of a source was counted, and the source is pending (R336, R337). -/
def ContainedOnce (s t : State) (src : Nat) : Prop :=
  t.fld FC_COUNT Fld.FC_COUNT_CONTAINED = satInc 12 (s.fld FC_COUNT Fld.FC_COUNT_CONTAINED) ∧
  t.fc.pend.any (fun p => p.src == src) = true

/-- One fatal report of a source was counted, and the source is pending as fatal (R336, R337). -/
def FatalOnce (s t : State) (src : Nat) : Prop :=
  t.fld FC_COUNT Fld.FC_COUNT_FATAL = satInc 8 (s.fld FC_COUNT Fld.FC_COUNT_FATAL) ∧
  t.fc.pend.any (fun p => p.src == src && p.fatal) = true

/-- Every register outside the collector's block reads as before, but those listed. -/
def RegsFcBut (s t : State) (l : List Nat) : Prop := ∀ a, a / 0x10000 ≠ 0x4001 → a ∉ l → t.reg a = s.reg a

/-- Every register outside the collector's block and the block of 64 KiB at `b` × 0x1_0000 reads as before. -/
def RegsFcOutside (s t : State) (b : Nat) : Prop := ∀ a : Nat, a / 0x10000 ≠ 0x4001 → a / 0x10000 ≠ b → t.reg a = s.reg a

/-- Every register outside the blocks of 64 KiB at `b` and `c` × 0x1_0000 reads as before. -/
def RegsOutside2 (s t : State) (b c : Nat) : Prop := ∀ a : Nat, a / 0x10000 ≠ b → a / 0x10000 ≠ c → t.reg a = s.reg a

/-- A saturating count in a register field rose by one. -/
def Counted (s t : State) (a : Nat) (f : Fld) : Prop := t.fld a f = satInc (f.hi + 1 - f.lo) (s.fld a f)

/-- A channel is held in its safe state (R146). -/
def InSafe (t : State) (n : Nat) (c : SafeCause) : Prop := (t.axAt n).held = true ∧ (t.axAt n).safe.contains c = true

/-- A timer runs and expires at a clock. -/
def ExpiresAt (t : State) (k : TimerId) (c : Nat) : Prop := t.timers.find? (·.1 == k) = some (k, c)

/-- A complement pair of an initiator reaches the register at `a`: it can be accessed, and the initiator has nothing armed for it. -/
def State.pairFree (s : State) (i : Initiator) (a : Nat) : Bool := s.reachable a && (s.cpArm? i a).isNone

/-- A command is refused: bus error, a corrected fault, and no register outside the collector changes. -/
def Refused (c : Instr) (s : State) : Prop := Runs c s fun t => t.resp = .busError ∧ CorrectedOnce s t ∧ RegsFcBut s t [] ∧ MemSame s t

/-! ## Loop engines -/

/-- A kernel of LE_e can issue an instruction of class `k` that takes `c` cycles: its own code runs, the tokens suffice (R60), the
address is one of program RAM or ROM, and the instruction may stand there (R106, R109, R111). -/
def State.leFree (s : State) (e : Nat) (k : LeClass) (c : Nat) : Bool :=
  s.leIssues e && (match (s.leAt e).run with
    | some r => decide (0 < r.tokens) && decide (c ≤ r.tokens)
    | none => false) && fetchOk (s.leReady e).bank.pc.toNat && !(s.leReady e).misplaced k (s.leReady e).bank.pc.toNat

/-- LE_e as an instruction that issues in cycle `k` sees it (R105): results due have arrived. -/
def State.leSees (s : State) (e k : Nat) : Le := (s.leAt e).settle k

/-- The issue cycle at hand. -/
def State.leNow (s : State) (e : Nat) : Nat := (s.leAt e).now

/-- A register, flags (as every reader sees them, but for those of a MOVE, which BRC sees later: R105) or a word of memory hold a
result. -/
def Le.holds (x : Le) : LeRes → Prop
  | .x r v => x.bank.xr r = v
  | .d r v => x.bank.dr r = v
  | .a r v => x.bank.ar r = v
  | .sr m v => x.bank.sr &&& m = v &&& m ∧ x.bank.fl &&& m = v &&& m
  | .srMove m v => x.bank.sr &&& m = v &&& m
  | .mem a v => ∀ b, x.peek b a.toNat = v

/-- Flags by bit number (R96: Z 0, N 1, V 2, L 3, MV 4, DZ 5, SS 6, FM 7) as a result. -/
def srFlags (l : List (Nat × Bool)) : LeRes :=
  .sr (BitVec.ofNat 32 (l.foldl (fun n p => n + 2 ^ p.1) 0)) (BitVec.ofNat 32 (l.foldl (fun n p => n + b2n p.2 * 2 ^ p.1) 0))

/-- Z and N of a value. -/
def zn (v : Int) : List (Nat × Bool) := [(0, decide (v = 0)), (1, decide (v < 0))]

/-- V, and SS where it is set: SS is sticky (R118). -/
def vss (b : Bool) : List (Nat × Bool) := (2, b) :: (if b then [(6, true)] else [])

/-- A value does not fit in `n` bits. -/
def unfit (n : Nat) (v : Int) : Bool := decide ((BitVec.ofInt n v).toInt ≠ v)

/-- The bits of SR that results write. -/
def srMask (l : List (Nat × LeRes)) : Word :=
  l.foldl (fun m p => match p.2 with
    | .sr k _ => m ||| k
    | .srMove k _ => m ||| k
    | _ => m) 0

def writesX (l : List (Nat × LeRes)) (r : Nat) : Bool := l.any fun p => match p.2 with
  | .x q _ => q.val == r
  | _ => false
def writesD (l : List (Nat × LeRes)) (r : Nat) : Bool := l.any fun p => match p.2 with
  | .d q _ => q.val == r
  | _ => false
def writesA (l : List (Nat × LeRes)) (r : Nat) : Bool := l.any fun p => match p.2 with
  | .a q _ => q.val == r
  | _ => false
def writesM (l : List (Nat × LeRes)) (a : Nat) : Bool := l.any fun p => match p.2 with
  | .mem q _ => q.toNat == a
  | _ => false

/-- Only LE_e, the performance counters and the count of free values differ. -/
def LeOnly (s t : State) (e : Nat) : Prop :=
  t = { s with le := s.le.setIfInBounds e (t.leAt e), perf := t.perf, free := t.free }

/-- The frame of an instruction of LE_e: what is not listed reads, in every issue cycle from now on, as it would of the engine that
the instruction found; the mailbox, the table banks and the abort context keep their content; the instruction costs `c` cycles. `b` holds the
pointers after it. -/
def LeFrame (s t : State) (e c : Nat) (l : List (Nat × LeRes)) (b : LeBank) : Prop :=
  LeOnly s t e ∧
  (∀ j, s.leNow e ≤ j →
    (∀ r, writesX l r = false → (t.leSees e j).bank.xr r = ((s.leReady e).settle j).bank.xr r) ∧
    (∀ r, writesD l r = false → (t.leSees e j).bank.dr r = ((s.leReady e).settle j).bank.dr r) ∧
    (∀ r, writesA l r = false → (t.leSees e j).bank.ar r = ((s.leReady e).settle j).bank.ar r) ∧
    (t.leSees e j).bank.sr &&& ~~~(srMask l) = ((s.leReady e).settle j).bank.sr &&& ~~~(srMask l) ∧
    (t.leSees e j).bank.fl &&& ~~~(srMask l) = ((s.leReady e).settle j).bank.fl &&& ~~~(srMask l) ∧
    (∀ k a, writesM l (a % 16384) = false → (t.leSees e j).peek k a = ((s.leReady e).settle j).peek k a)) ∧
  (t.leAt e).bank.p = b.p ∧ (t.leAt e).bank.pb = b.pb ∧ (t.leAt e).bank.m = b.m ∧
  (t.leAt e).mbox = (s.leAt e).mbox ∧ (t.leAt e).mvalid = (s.leAt e).mvalid ∧ (t.leAt e).tblA = (s.leAt e).tblA ∧
  (t.leAt e).tblB = (s.leAt e).tblB ∧ (t.leAt e).shadow = (s.leAt e).shadow ∧
  (t.leAt e).run.map LeRun.tokens = (s.leAt e).run.map (fun r => r.tokens - c) ∧ t.leNow e = s.leNow e + c

/-- An instruction of `c` cycles completes: each result listed is seen by what issues `n` cycles after its last cycle, for the `n`
listed with it (R105), and nothing else changes. -/
def LeDoes (s : State) (i : Instr) (e : Nat) (k : LeClass) (c : Nat) (l : List (Nat × LeRes)) (b : LeBank) : Prop :=
  s.leFree e k c = true → Runs i s fun t =>
    (∀ r ∈ l, (t.leSees e (s.leNow e + c - 1 + r.1)).holds r.2) ∧ LeFrame s t e c l b

/-- An instruction whose results are registers and flags only. -/
def LeComputes (s : State) (i : Instr) (e : Nat) (k : LeClass) (c : Nat) (l : List (Nat × LeRes)) : Prop :=
  LeDoes s i e k c l (s.leReady e).bank

/-- The register and the pointer of a parallel move (R92). -/
def moveReg (m : Byte) : Fin 16 := Fin.ofNat 16 (m.toNat / 8)
def movePtr (m : Byte) : Nat := m.toNat % 8

/-- The bank after the post-modify of a parallel move. -/
def LeBank.afterMove (b : LeBank) (m : Byte) (free : Nat) : LeBank := if m.getLsbD 7 then b.post (movePtr m) free else b

/-- The result of a parallel move with the pointers of a bank: a load, usable at i+2 (R105). -/
def Le.moveRes (x : Le) (tb : Bool) (b : LeBank) (m : Byte) : List (Nat × LeRes) :=
  if m.getLsbD 7 then [(2, .d (moveReg m) (x.peek tb (b.pr (movePtr m)).toNat))] else []

/-! ## Supervisor pairs -/

/-- Pair `p` with its next instruction fetched: what the fetch changes, and PC at the instruction after it. -/
def State.svAtFetch (s : State) (p : Nat) : State := (s.setSv p { s.svAt p with waiting := false }).tagFetch p
def State.svFetched (s : State) (p : Nat) : State :=
  let r := (s.svAtFetch p).svFetch p
  r.1.setSv p { r.1.svAt p with pc := (s.svAt p).pc + 4 }

/-- Pair `p` issues, and the fetch at PC is granted and completes. -/
def State.svIssues (s : State) (p : Nat) : Bool :=
  s.domOn (domSv p) && (s.svAt p).up && !((s.svAt p).waiting && (s.svTakes (s.svAt p)).isNone) && ((s.svAtFetch p).svFetch p).2.isNone

/-- Pair `p` can execute an instruction of a level. -/
def State.svCan (s : State) (p lvl : Nat) : Bool := s.svIssues p && decide (lvl ≤ (s.svAt p).pl)

/-- Only the pair, the performance counters and the count of free values differ. -/
def SvOnly (s t : State) (p : Nat) : Prop := t = { s with sv := s.sv.setIfInBounds p (t.svAt p), perf := t.perf, free := t.free }

/-- An instruction completes and changes the pair alone: `q` relates the pair after its fetch to the pair after the instruction. -/
def SvDoes (s : State) (c : Instr) (p lvl : Nat) (q : Sv → Sv → Prop) : Prop :=
  s.svCan p lvl = true → Runs c s fun t => q ((s.svFetched p).svAt p) (t.svAt p) ∧ SvOnly (s.svFetched p) t p

/-- Trap entry (R389): the saved status and cause, the next frame with the address in S0, Machine level with traps off, PC in the table. -/
def Sv.tookTrap (v w : Sv) (cause : Nat) (tval ret : Word) : Prop :=
  let f := (v.cfr + 1) % 8
  w.tstatus = v.st ∧ w.tcause = BitVec.ofNat 32 cause ∧ w.tval = tval ∧ w.cfr = f ∧ w.regIn f 8 = ret ∧ w.ten = false ∧ w.pl = 2 ∧
  w.ie = v.ie ∧ w.imask = v.imask ∧ bits w.st.toNat 3 0 = bits v.st.toNat 3 0 ∧ w.pc = v.tvec + BitVec.ofNat 32 (32 * cause) ∧
  (∀ g r, g < 8 → r < 16 → ¬ (g = f ∧ r = 8) → w.regIn g r = v.regIn g r) ∧ w.rsv = v.rsv ∧ w.tvec = v.tvec ∧ w.fsp = v.fsp ∧
  w.dcache = v.dcache

/-- A trap of the instruction at PC while traps are on. -/
def SvTraps (s : State) (c : Instr) (p cause : Nat) (tval ret : Word) : Prop :=
  s.svIssues p = true → (s.svAt p).ten = true → Runs c s fun t =>
    ((s.svFetched p).svAt p).tookTrap (t.svAt p) cause tval ret ∧ SvOnly (s.svFetched p) t p

/-- A frame-nesting fault (R391): the pair restarts, with a contained fault whose data word names the cause. -/
def SvNests (s : State) (c : Instr) (p cause : Nat) : Prop :=
  s.svIssues p = true → (s.svAt p).ten = false → s.fc.window = false → (s.svAt p).restartedAt = none → Runs c s fun t =>
    (t.svAt p).up = false ∧ t.timerOn (.svRestart p) = true ∧ ContainedOnce s t (srcId 0x02 p) ∧
    t.reg (FC_HIST (t.fld FC_HIST_CTRL Fld.FC_HIST_CTRL_NEWEST) + 4) = BitVec.ofNat 32 (0x100 + cause)

/-- A result in Xd with Z and N of it, and C where one is given; V and every other bit of ST stay (R382, R384). -/
def Sv.result (v w : Sv) (rd : Fin 16) (x : Word) (c : Option Bool) : Prop :=
  w = ({ v with st := w.st } : Sv).set rd x ∧ w.st.getLsbD 3 = decide (x = 0) ∧ w.st.getLsbD 2 = x.msb ∧
  w.st.getLsbD 0 = c.getD (v.st.getLsbD 0) ∧ (∀ k, k = 1 ∨ 4 ≤ k → w.st.getLsbD k = v.st.getLsbD k)

end Sys2Proof.Machine
end

