-- ==== Sys2Proof/Certificates/Slice0/Obligations.lean ====
section
/-! DEFINITION. The statements. -/

open Sys2Proof Sys2Proof.Machine Sys2Proof.Machine.Reg

/-! ## The machine -/

/-- A step with a command in front of the queue is that command on the state with the rest of the queue. -/
def Obligations.StepRunsFront : Prop :=
  ∀ (s : State) (c : Instr) (rest : List Instr), s.pending = c :: rest → step s = exec c { s with pending := rest }

/-- With no command waiting, a flight boundary that line time has reached and that has not fallen yet falls (R34); else 4 ns pass (log
entry 1, DESIGN CHOICE): the clock rises by one, no command appears, and no register and no byte of memory changes where no word of a wharf
WRITE waits, no message is to be sent and no orderly power-down runs. -/
def IdleStepPassesTimeRules : Prop :=
  ∀ s : State, s.pending = [] →
    (s.boundaryReached = true → s.boundaryDue = true → step s = exec .flightBoundary s) ∧
    (s.boundaryReached = false ∨ s.boundaryDue = false → ∃ t, step s = .next t ∧ t.clock = s.clock + 1 ∧ t.pending = [] ∧
      (s.boot.wr.2 = [] → s.eth.sendq = [] → s.pwr.down = none → RegsBut s t [] ∧ MemSame s t))

/-- An orderly power-down (R516) goes on while no command waits, one step at a time, at the times of log entry 261 (DESIGN CHOICE): FI off; the
power log with event 1, step 3 and the CRC-16; the other domains off; Dormant. The hardware safe state freezes it. -/
def OrderlyPowerDownRules : Prop :=
  ∀ (s : State) (d : PowerDown), s.pending = [] → s.boot.wr.2 = [] → s.eth.sendq = [] → s.boundaryReached = false ∨ s.boundaryDue = false →
    s.pwr.down = some d →
    (s.hwSafeOn = true ∨ s.clock < d.at_ + downTicks (d.step + 1) → ∃ t, step s = .next t ∧ t.pwr.down = some d ∧ RegsBut s t []) ∧
    (s.hwSafeOn = false → d.at_ + downTicks (d.step + 1) ≤ s.clock → ∃ t, step s = .next t ∧
      (d.step < 4 → t.pwr.down = some { step := d.step + 1, at_ := d.at_ }) ∧
      (d.step = 1 → t.domOn domFI = false) ∧
      (d.step = 2 → (t.ret 0).toNat = 1 ∧ (t.ret 1).toNat = 3 ∧ (t.ret 62).toNat + 256 * (t.ret 63).toNat = crc16 (retBytes t.pwr.ret)) ∧
      (d.step = 3 → ∀ i : Fin 78, 2 ≤ i.val → i.val ≠ domFI → t.domOn i = false) ∧
      (d.step = 4 → s.pwr.wakeLand = false → t.mode = .dormant ∧ t.pwr.down = none ∧ ∀ i : Fin 78, 2 ≤ i.val → t.domOn i = false))

/-- With NW on and its clock running, a step with no command waiting and no flight boundary to fall adds 64 × (1 + RATE × 2^−40) fraction units to line time,
exactly, with the 40-bit extension below bit 0 (R428), modulo 2^64. -/
def LineTimeAdvancesRules : Prop :=
  ∀ s : State, s.pending = [] → s.boot.wr.2 = [] → s.eth.sendq = [] → s.pwr.down = none → s.domOn domNW = true → domNW ∉ s.fc.stopped →
    s.boundaryReached = false ∨ s.boundaryDue = false → ∃ t, step s = .next t ∧
      ((t.time.line.toNat : Int) * 2 ^ 40 + t.time.ext.toNat) =
        ((s.time.line.toNat : Int) * 2 ^ 40 + s.time.ext.toNat + 64 * (2 ^ 40 + (s.reg TIME_RATE).toInt)) % 2 ^ 104

/-- Steps with no command waiting: a flight boundary falls, or 4 ns pass (log entry 1, DESIGN CHOICE); line time advances (R428); an orderly power-down goes on (R516). -/
def Obligations.IdleSteps : Prop :=
  IdleStepPassesTimeRules ∧ LineTimeAdvancesRules ∧ OrderlyPowerDownRules

/-- Every command answers a next state in every state: no command ends a run. -/
def Obligations.EveryCommandCompletes : Prop := ∀ (c : Instr) (s : State), ∃ t, exec c s = .next t

/-- No command touches the queue, lets time pass, or changes the ordering code. -/
def Obligations.QueueClockPartKept : Prop :=
  ∀ (c : Instr) (s t : State), exec c s = .next t → t.pending = s.pending ∧ t.clock = s.clock ∧ t.part = s.part

/-- Every step keeps the canonical forms and the widths of the counters and of the RTC. -/
def Obligations.StepKeepsInv : Prop :=
  ∀ (p : Part) (s t : State), s.Inv p → step s = .next t → t.Inv p

/-- The state after reset meets the invariant. -/
def Obligations.ResetMeetsInv : Prop := State.reset.Inv .fa48

/-- After reset every register reads its reset value, the mode is Wake, no domain but BK and AO is on, no byte of memory is listed,
no command waits, no pair is armed and no source is pending. -/
def Obligations.ResetState : Prop :=
  (∀ a, State.reset.reg a = regReset .fa48 a) ∧ State.reset.mode = .wake ∧
  (∀ i, i < 78 → (State.reset.domOn i = true ↔ i < 2)) ∧ State.reset.mem = [] ∧ State.reset.pending = [] ∧
  State.reset.cpArmed = [] ∧ State.reset.fc.pend = []

/-! ## Register and memory accesses, complement pairs -/

/-- A write of the value word of a CP register arms the write and changes nothing else (R9, R10): the register keeps its value. -/
def CpValueWordArmsRules : Prop :=
  ∀ (s : State) (i : Initiator) (a : Nat) (w : Word), isCp a = true → s.reachable a = true → s.cpArm? i a = none →
    Runs (.cpValueWrite i a w) s fun t =>
      t = { s with cpArmed := s.cpArmed ++ [(initNo i, a, w, s.clock)], resp := .done } ∧ t.reg a = s.reg a

/-- The exact complement of the armed value, from the same initiator and within 1 µs, makes the register take the value (R9), cut to
the bits it has (R13). For the CP registers whose value starts nothing: the address, the epoch, the restart limit, the safety
requests, the fail-safe word of the digital outputs, and, with EN clear, the short-circuit settings of a channel. -/
def CpComplementTakesRules : Prop :=
  ∀ (s : State) (i : Initiator) (a : Nat) (w : Word) (t0 : Nat) (n : Fin 48),
    a ∈ [SYS_ADDR, TIME_EPOCH, FC_DEG, SAFE_REQ, FIO_DO_FS, SC_CFG n] → s.reachable a = true →
    s.cpArm? i a = some (initNo i, a, w, t0) → s.clock ≤ t0 + 250 → s.cpOk i a (w &&& cpBits a) = true →
    Runs (.cpComplementWrite i a (~~~w)) s fun t =>
      t.reg a = w &&& cpBits a ∧ t.complement a = ~~~(w &&& cpBits a) ∧ t.resp = .done ∧ t.cpArm? i a = none ∧
      RegsBut s t [a] ∧ t.fc = s.fc

/-- The refusals of R11 and R593: a complement word with nothing armed; a complement that does not match; the value word once more
before the complement; each answers with a bus error, keeps the register, logs a corrected fault and leaves nothing armed. -/
def CpRefusalsRules : Prop :=
  ∀ (s : State) (i : Initiator) (a : Nat) (w v : Word) (t0 : Nat), isCp a = true → s.reachable a = true →
    let refused := fun t : State =>
      t.resp = .busError ∧ t.reg a = s.reg a ∧ t.cpArm? i a = none ∧
      t.fld FC_COUNT Fld.FC_COUNT_CORRECTED = satInc 12 (s.fld FC_COUNT Fld.FC_COUNT_CORRECTED) ∧ MemSame s t
    (s.cpArm? i a = none → Runs (.cpComplementWrite i a w) s refused) ∧
    (s.cpArm? i a = some (initNo i, a, v, t0) → s.clock ≤ t0 + 250 →
      (w ≠ ~~~v → Runs (.cpComplementWrite i a w) s refused) ∧ Runs (.cpValueWrite i a w) s refused)

/-- The third case of R11: 1 µs after the value word, with no complement, the armed write is dropped, the register keeps its value
and a corrected fault is logged at that instant (R593). Before that instant nothing happens. -/
def CpArmExpiresRules : Prop :=
  ∀ (s : State) (i : Initiator) (a : Nat) (v : Word) (t0 : Nat), isCp a = true → s.cpArm? i a = some (initNo i, a, v, t0) →
    (t0 + 250 ≤ s.clock → Runs (.cpArmTimeout i a) s fun t =>
      t.cpArm? i a = none ∧ t.reg a = s.reg a ∧ t.resp = s.resp ∧
      t.fld FC_COUNT Fld.FC_COUNT_CORRECTED = satInc 12 (s.fld FC_COUNT Fld.FC_COUNT_CORRECTED)) ∧
    (s.clock < t0 + 250 → Runs (.cpArmTimeout i a) s fun t => t = s)

/-- Refused pairs (R11, R593): what a refusal leaves armed, and when it is made. -/
def Obligations.PairRefusals : Prop :=
  CpRefusalsRules ∧ CpArmExpiresRules

/-- A read of a CP register returns the stored value, of its complement word the stored complement (R12). Where the pair agrees the
read changes nothing; where it disagrees it also raises a contained fault (here for the registers of the TT block, outside the
continuation window). -/
def CpReadReturnsStoredRules : Prop :=
  ∀ (s : State) (i : Initiator) (a : Nat) (c : Bool), isCp a = true → s.absent i a = false → s.powered .block a = true →
    (Tbl.get 0 s.cpDiff a = 0 → Runs (.cpRead i a c) s fun t =>
      t = s.answer (.data (if c then ~~~(s.reg a) else s.reg a))) ∧
    (Tbl.get 0 s.cpDiff a ≠ 0 → a ∈ [TT_SWAP, TT_ALT_FORCE] → s.fc.window = false → Runs (.cpRead i a c) s fun t =>
      t.resp = .data (if c then s.complement a else s.reg a) ∧ t.reg a = s.reg a ∧
      t.fld FC_COUNT Fld.FC_COUNT_CONTAINED = satInc 12 (s.fld FC_COUNT Fld.FC_COUNT_CONTAINED) ∧
      t.fc.pend.any (fun p => p.src == 0x05FF) = true)

/-- CP registers (R9, R10, R12, R13): the value word, the complement, the read. -/
def Obligations.ComplementPairs : Prop :=
  CpValueWordArmsRules ∧ CpComplementTakesRules ∧ CpReadReturnsStoredRules

/-- An access to an absent register block or an unmapped address answers with a bus error; it changes nothing and nothing is
logged (R5, R547). -/
def AbsentBlockAccessRules : Prop :=
  ∀ (s : State) (i : Initiator) (a : Nat) (w : Option Word), s.absent i a = true →
    Runs (.absentBlockAccess i a w) s fun t => t = { s with resp := .busError }

/-- Which addresses are absent: every AXIS and SDD block beyond those of the ordering code, and what lies between the ranges of the
address map (R3, R5, R546). -/
def AbsentBlocksRules : Prop :=
  ∀ (s : State) (i : Initiator) (n o a : Nat), o < 0x10000 →
    (n < 48 → (s.absent i (0x40100000 + 0x10000 * n + o) = true ↔ axisCount s.part ≤ n)) ∧
    (n < 12 → (s.absent i (0x40400000 + 0x10000 * n + o) = true ↔ sddCount s.part ≤ n)) ∧
    (0x404C0000 ≤ a → s.absent i a = true) ∧ (0x10000 ≤ a → a < 0x08000000 → s.absent i a = true)

/-- Absent blocks and unmapped addresses (R3, R5, R546, R547): which they are, and what an access does. -/
def Obligations.AbsentAddresses : Prop :=
  AbsentBlockAccessRules ∧ AbsentBlocksRules

/-- A write of a plain register (R8): an RW bit takes the written bit, a written 1 clears a W1C bit, every other bit stays; no other
register changes. Stated for the towpath registers, the collector's registers and the registers of the sense-and-drive dies. -/
def PlainRegisterWriteRules : Prop :=
  ∀ (s : State) (i : Initiator) (a : Nat) (w : Word) (d : RegDef),
    a % 4 = 0 → a / 0x10000 = 0x4001 ∨ a / 0x10000 = 0x4003 ∨ 0x4040 ≤ a / 0x10000 → regDef a = some d → d.rw &&& d.w1c = 0 →
    isCp a = false → isCpc a = false → s.absent i a = false → s.reachable a = true →
    Runs (.registerWrite i a 4 w) s fun t =>
      (∀ k, k < 32 → (t.reg a).getLsbD k =
        if d.rw.testBit k then w.getLsbD k else (s.reg a).getLsbD k && !(d.w1c.testBit k && w.getLsbD k)) ∧
      t.resp = .done ∧ RegsBut s t [a] ∧ MemSame s t

/-- A write of 1, 2 or 4 aligned bytes by SV_0 into its tightly coupled RAM (R546, R548) stores these bytes, little-endian (R14), at
the alias under which the memory keeps them, and changes no other byte and no register. -/
def TcmWriteRules : Prop :=
  ∀ (s : State) (o size a : Nat) (w : Word), o + size ≤ 0x80000 → size = 1 ∨ size = 2 ∨ size = 4 → o % size = 0 →
    s.domOn (domSv 0) = true →
    Runs (.registerWrite .sv0 (0x08000000 + o) size w) s fun t =>
      (∀ k, k < size → t.cell (0x09000000 + o + k) = BitVec.ofNat 8 (w.toNat / 2 ^ (8 * k))) ∧
      (a < 0x09000000 + o ∨ 0x09000000 + o + size ≤ a → t.cell a = s.cell a) ∧
      RegsBut s t [] ∧ t.resp = .done


/-- Plain writes (R8, R14, R546, R548): a register, and the tightly coupled RAM. -/
def Obligations.PlainWrites : Prop :=
  PlainRegisterWriteRules ∧ TcmWriteRules

/-! ## Instructions of the loop engines -/

/-- The 24-bit instructions on D registers (R104, R118, R119): results at i+1, flags at i+2, nothing else changes. ADD.D and SUB.D
wrap and set V; the S forms, NEG, ABS and SHLI.S saturate and set V and the sticky SS when they do; CLAMP sets L where it changed
its input. -/
def LeDataOpsRules : Prop :=
  ∀ (s : State) (e : Fin 12) (rd ra rb rc : Fin 16) (sh : Fin 32) (imm : BitVec 18),
    let b := (s.leReady e).bank
    let va := (b.dr ra).toInt
    let vb := (b.dr rb).toInt
    let vc := (b.dr rc).toInt
    let wrapped (v : Int) := [(1, LeRes.d rd (BitVec.ofInt 24 v)), (2, srFlags (zn (BitVec.ofInt 24 v).toInt ++ [(2, unfit 24 v)]))]
    let saturated (v : Int) := [(1, LeRes.d rd (BitVec.ofInt 24 (sat24 v))), (2, srFlags (zn (sat24 v) ++ vss (unfit 24 v)))]
    let plain (v : D24) := [(1, LeRes.d rd v), (2, srFlags (zn v.toInt))]
    let does (i : Instr) (l : List (Nat × LeRes)) := LeComputes s i e .rep 1 l
    does (.addD e rd ra rb) (wrapped (va + vb)) ∧ does (.subD e rd ra rb) (wrapped (va - vb)) ∧
    does (.addS e rd ra rb) (saturated (va + vb)) ∧ does (.subS e rd ra rb) (saturated (va - vb)) ∧
    does (.neg e rd ra) (saturated (-va)) ∧ does (.abs e rd ra) (saturated (if va < 0 then -va else va)) ∧
    does (.min e rd ra rb) (plain (if va < vb then b.dr ra else b.dr rb)) ∧
    does (.max e rd ra rb) (plain (if vb < va then b.dr ra else b.dr rb)) ∧
    (let v := if (if va < vb then vb else va) < vc then (if va < vb then vb else va) else vc
     does (.clamp e rd ra rb rc) [(1, .d rd (BitVec.ofInt 24 v)), (2, srFlags (zn v ++ [(3, decide (v ≠ va))]))]) ∧
    does (.cmpD e ra rb) [(2, srFlags (zn (va - vb)))] ∧
    does (.asriD e rd ra sh) (plain ((b.dr ra).sshiftRight sh)) ∧ does (.shliS e rd ra sh) (saturated (va * 2 ^ sh.val)) ∧
    does (.andD e rd ra rb) (plain (b.dr ra &&& b.dr rb)) ∧ does (.orD e rd ra rb) (plain (b.dr ra ||| b.dr rb)) ∧
    does (.xorD e rd ra rb) (plain (b.dr ra ^^^ b.dr rb)) ∧ does (.lid e rd imm) [(1, .d rd (imm ++ (0 : BitVec 6)))]

/-- The integer instructions of a loop engine (R118): X results at i+1, of MUL at i+2, Z and N at i+2, nothing else changes. -/
def LeIntegerOpsRules : Prop :=
  ∀ (s : State) (e : Fin 12) (rd ra rb : Fin 16) (sh : Fin 32) (imm : BitVec 18),
    let b := (s.leReady e).bank
    let c := Core.le e
    let x (n : Nat) (v : Word) := [(n, LeRes.x rd v), (2, srFlags (zn v.toInt))]
    let does (i : Instr) (l : List (Nat × LeRes)) := LeComputes s i e .rep 1 l
    LeComputes s (.nop c) e .plain 1 [] ∧
    does (.add c rd ra rb) (x 1 (b.xr ra + b.xr rb)) ∧ does (.sub c rd ra rb) (x 1 (b.xr ra - b.xr rb)) ∧
    does (.and c rd ra rb) (x 1 (b.xr ra &&& b.xr rb)) ∧ does (.or c rd ra rb) (x 1 (b.xr ra ||| b.xr rb)) ∧
    does (.xor c rd ra rb) (x 1 (b.xr ra ^^^ b.xr rb)) ∧
    does (.shl c rd ra rb) (x 1 (b.xr ra <<< ((b.xr rb).setWidth 5).toNat)) ∧
    does (.shr c rd ra rb) (x 1 (b.xr ra >>> ((b.xr rb).setWidth 5).toNat)) ∧
    does (.asr c rd ra rb) (x 1 ((b.xr ra).sshiftRight ((b.xr rb).setWidth 5).toNat)) ∧
    does (.mul c rd ra rb) (x 2 (b.xr ra * b.xr rb)) ∧
    does (.cmp c ra rb) [(2, srFlags (zn ((b.xr ra).toInt - (b.xr rb).toInt)))] ∧
    does (.shli c rd ra sh) (x 1 (b.xr ra <<< sh.val)) ∧ does (.shri c rd ra sh) (x 1 (b.xr ra >>> sh.val)) ∧
    does (.asri c rd ra sh) (x 1 ((b.xr ra).sshiftRight sh)) ∧
    does (.addi c rd ra imm) (x 1 (b.xr ra + imm.signExtend 32)) ∧
    does (.li c rd imm) [(1, .x rd (imm.signExtend 32))] ∧
    does (.lui c rd imm) [(1, .x rd (imm ++ (b.xr rd).setWidth 14))] ∧
    (rd.val % 2 = 0 → ra.val % 2 = 0 → rb.val % 2 = 0 →
      let pa : BitVec 64 := b.xr (ra + 1) ++ b.xr ra
      let pb : BitVec 64 := b.xr (rb + 1) ++ b.xr rb
      let pair (v : BitVec 64) := [(1, LeRes.x rd (v.setWidth 32)), (1, LeRes.x (rd + 1) ((v >>> 32).setWidth 32)), (2, srFlags (zn v.toInt))]
      does (.add64 e rd ra rb) (pair (pa + pb)) ∧ does (.sub64 e rd ra rb) (pair (pa - pb)))

/-- Loop engines: operations on the D and X registers (R104, R115, R119). -/
def Obligations.LeRegisterOps : Prop :=
  LeDataOpsRules ∧ LeIntegerOpsRules

/-- The accumulator instructions (R102, R103, R105, R118): accumulators and flags at i+2; arithmetic wraps modulo 2^56 and an overflow
sets V and SS; MVA truncates, wraps or saturates. -/
def LeAccumulatorOpsRules : Prop :=
  ∀ (s : State) (e : Fin 12) (r q w : Fin 16) (hr : r.val < 4) (_ : q.val < 4) (_ : w.val < 4) (d : Fin 16) (sh : BitVec 6)
    (sat : Bool) (k : Fin 16),
    let b := (s.leReady e).bank
    let va := (b.ar q).toInt
    let vb := (b.ar w).toInt
    let acc (v : Int) := [(2, LeRes.a ⟨r, hr⟩ (BitVec.ofInt 56 v)), (2, srFlags (vss (unfit 56 v)))]
    let does (i : Instr) (l : List (Nat × LeRes)) := LeComputes s i e .rep 1 l
    does (.clr e r) [(2, .a ⟨r, hr⟩ 0)] ∧ does (.lda e r d) [(2, .a ⟨r, hr⟩ ((b.dr d).signExtend 56 <<< 24))] ∧
    does (.adda e r q w) (acc (va + vb)) ∧ does (.suba e r q w) (acc (va - vb)) ∧ does (.nega e r q) (acc (-va)) ∧
    (sh.toInt ≤ 8 → does (.sha e r q sh) (acc (if 0 ≤ sh.toInt then va * 2 ^ sh.toInt.toNat else va / 2 ^ (-sh.toInt).toNat))) ∧
    (let v := if va < -(2 ^ 47) then -(2 ^ 47) else if 2 ^ 47 ≤ va then 2 ^ 47 - 1 else va
     does (.sat e r q) [(2, .a ⟨r, hr⟩ (BitVec.ofInt 56 v)), (2, srFlags (vss (decide (v ≠ va))))]) ∧
    (k.val ≤ 8 →
      let v := va / 2 ^ (24 - k.val)
      does (.mva e d q sat k) [(1, .d d (BitVec.ofInt 24 (if sat then sat24 v else v))),
        (2, srFlags ((2, unfit 24 v) :: (if sat && unfit 24 v then [(6, true)] else [])))])

/-- Multiplies with parallel moves (R92, R100 to R102, R105, R118, R119): the operands are read before the moves write, an accumulator
under way is forwarded, the moves load and post-modify their pointers. The two moves of one instruction load different registers. -/
def LeMultiplyOpsRules : Prop :=
  ∀ (s : State) (e : Fin 12) (aa : Fin 4) (dm dn : Fin 16) (m1 m2 : Byte),
    let x := s.leReady e
    let f := s.fresh
    let b1 := x.bank.afterMove m1 f
    let moves := x.moveRes s.bankB x.bank m1 ++ x.moveRes s.bankB b1 m2
    let prod (a b : D24) : Int := a.toInt * b.toInt * (if x.bank.sr.getLsbD 7 then 2 else 1)
    let p := prod (x.bank.dr dm) (x.bank.dr dn)
    let va := (x.accFwd aa).toInt
    let acc (v : Int) := moves ++ [(2, LeRes.a aa (BitVec.ofInt 56 v)), (2, srFlags (vss (unfit 56 v)))]
    let does (i : Instr) (l : List (Nat × LeRes)) := LeDoes s i e .rep 1 l (b1.afterMove m2 f)
    ¬ (m1.getLsbD 7 = true ∧ m2.getLsbD 7 = true ∧ moveReg m1 = moveReg m2) →
    does (.mac e aa dm dn m1 m2) (acc (va + p)) ∧ does (.msu e aa dm dn m1 m2) (acc (va - p)) ∧
    does (.mpy e aa dm dn m1 m2) (acc p) ∧
    (aa.val % 2 = 0 → dm.val % 2 = 0 → dn.val % 2 = 0 →
      let v := va + p
      let w := (x.accFwd (aa + 1)).toInt + prod (x.bank.dr (dm + 1)) (x.bank.dr (dn + 1))
      does (.mac2 e aa dm dn m1 m2) (moves ++ [(2, .a aa (BitVec.ofInt 56 v)), (2, .a (aa + 1) (BitVec.ofInt 56 w)),
        (2, srFlags (vss (unfit 56 v || unfit 56 w)))]))

/-- TAP (R98, R107, R119): the product of the words at Pi and Pj is accumulated, the word at Pj moves one place on, seen at i+3, both
pointers are post-modified. The place lies in the data area; in the table area the store is kernel fault 0x03 (R113). -/
def LeFilterTapRules : Prop :=
  ∀ (s : State) (e : Fin 12) (aa : Fin 4) (pi pj : Fin 8),
    let x := s.leReady e
    let f := s.fresh
    let c := x.peek s.bankB (x.bank.pr pi).toNat
    let t := x.peek s.bankB (x.bank.pr pj).toNat
    let after := x.bank.stepped pj 1 f
    let v := (x.accFwd aa).toInt + c.toInt * t.toInt * (if x.bank.sr.getLsbD 7 then 2 else 1)
    (after.toNat < 8192 → LeDoes s (.tap e aa pi pj) e .rep 1
      [(2, .a aa (BitVec.ofInt 56 v)), (2, srFlags (vss (unfit 56 v))), (3, .mem after t)] ((x.bank.post pi f).post pj f)) ∧
    (8192 ≤ after.toNat → s.leFree e .rep 1 = true → Runs (.tap e aa pi pj) s fun u => u = s.cutOff e 3)

/-- Loop engines: accumulators, products and filter taps (R105, R115 to R117, R119). -/
def Obligations.LeProducts : Prop :=
  LeAccumulatorOpsRules ∧ LeMultiplyOpsRules ∧ LeFilterTapRules

/-- Division, roots, transforms and selection (R118 to R120): results, latencies and cycles. -/
def LeFunctionOpsRules : Prop :=
  ∀ (s : State) (e : Fin 12) (rd ra rb rc : Fin 16) (three : Bool) (k : Fin 32),
    let b := (s.leReady e).bank
    let d (r : Nat) : Int := (b.dr r).toInt
    let va := d ra
    let vb := d rb
    let does (i : Instr) (c : Nat) (l : List (Nat × LeRes)) := LeComputes s i e .plain c l
    let at24 (r : Fin 16) (n : Nat) (v : Int) := (n, LeRes.d r (BitVec.ofInt 24 v))
    (vb ≠ 0 → let q := Int.fdiv (va * 2 ^ 23) vb
      does (.div e rd ra rb) 26 [at24 rd 1 (sat24 q), (2, srFlags (vss (unfit 24 q) ++ [(5, false)]))]) ∧
    (vb = 0 → does (.div e rd ra rb) 26
      [(1, .d rd (if 0 ≤ va then 0x7FFFFF else 0x800000)), (2, srFlags (vss true ++ [(5, true)]))]) ∧
    (va ≤ 0 → does (.nrecip e rd ra rb) 4 [(1, .d rd 0x7FFFFF), (1, .x rb 0), (2, srFlags [(5, true)])]) ∧
    (∀ x : Nat, x ≤ 22 → 2 ^ 22 ≤ va * 2 ^ x → va * 2 ^ x < 2 ^ 23 → does (.nrecip e rd ra rb) 4
      [at24 rd 1 (min ((2 : Int) ^ 45 / (va * 2 ^ x)) 0x7FFFFF), (1, .x rb (BitVec.ofNat 32 x)), (2, srFlags [(5, false)])]) ∧
    (va < 0 → does (.sqrt e rd ra) 13 [(1, .d rd 0), (2, srFlags [(2, true)])]) ∧
    (∀ r : Nat, 0 ≤ va → (r : Int) * r ≤ va * 2 ^ 23 → va * 2 ^ 23 < ((r : Int) + 1) * (r + 1) →
      does (.sqrt e rd ra) 13 [at24 rd 1 r, (2, srFlags [(2, false)])]) ∧
    (rd.val % 2 = 0 → let q := sinCos (b.dr ra).toNat
      does (.sincos e rd ra) 1 [at24 rd 3 q.1, at24 (rd + 1) 3 q.2]) ∧
    (rd.val % 2 = 0 → let q := clarke three va vb (d rc)
      does (.clarke e rd ra rb rc three) 2 [at24 rd 2 q.1, at24 (rd + 1) 2 q.2.1, (2, srFlags (vss q.2.2))]) ∧
    (rd.val % 2 = 0 → ra.val % 2 = 0 → rb.val % 2 = 0 →
      let q := park va (d (ra + 1)) vb (d (rb + 1))
      let i := ipark va (d (ra + 1)) vb (d (rb + 1))
      does (.park e rd ra rb) 2 [at24 rd 2 q.1, at24 (rd + 1) 2 q.2.1, (2, srFlags (vss q.2.2))] ∧
      does (.ipark e rd ra rb) 2 [at24 rd 2 i.1, at24 (rd + 1) 2 i.2.1, (2, srFlags (vss i.2.2))]) ∧
    (rd.val % 4 = 0 → ra.val % 2 = 0 → let q := svm va (d (ra + 1))
      does (.svm e rd ra) 3 [at24 rd 2 q.1, at24 (rd + 1) 2 q.2.1, at24 (rd + 2) 2 q.2.2.1, (2, srFlags [(3, q.2.2.2)])]) ∧
    (ra.val % 2 = 0 → rb.val % 2 = 0 →
      let v := (b.xr (ra + 1) ++ b.xr ra - (b.xr (rb + 1) ++ b.xr rb) : BitVec 64).toInt / 2 ^ (9 + k.val)
      does (.perr e rd ra rb k) 1 [at24 rd 2 (sat24 v), (2, srFlags (vss (unfit 24 v)))])

/-- MINSEL (R119): among the n words from Pi on, the one at place w is less than every earlier one and not more than any later one. -/
def LeMinSelectRules : Prop :=
  ∀ (s : State) (e : Fin 12) (rd xr : Fin 16) (pi : Fin 8) (n1 : Fin 16) (w : Nat),
    let x := s.leReady e
    let word (i : Nat) := x.peek s.bankB ((x.bank.pr pi).toNat + i)
    1 ≤ n1.val → w ≤ n1.val → (∀ i, i < w → (word w).toInt < (word i).toInt) → (∀ i, i ≤ n1.val → w < i → (word w).toInt ≤ (word i).toInt) →
    LeComputes s (.minsel e rd xr pi n1) e .plain (1 + (n1.val + 2) / 2)
      [(1, .d rd (word w)), (1, .x xr (BitVec.ofNat 32 w)), (2, srFlags (zn (word w).toInt ++ [(3, decide (w ≠ 0))]))]

/-- Loop engines: the functions of R119. -/
def Obligations.LeFunctions : Prop :=
  LeFunctionOpsRules ∧ LeMinSelectRules

/-- Moves, loads and stores of a loop engine (R98, R105, R107, R118, R119, R121, R125): loads are seen at i+2, stores at i+3, a MOVE at i+1 but
for what a BRC sees of the SR that it writes (i+2; log entry 64, DEDUCED); a store or any part of it in the table area is kernel fault 0x03 (R113); mode 1 post-modifies the pointer. -/
def LeMovesRules : Prop :=
  ∀ (s : State) (e : Fin 12) (rd ra src : Fin 16) (v : Word) (post : Bool) (pi : Fin 8) (imm : BitVec 14) (entry : Byte) (g : Fin 8),
    let x := s.leReady e
    let b := x.bank
    let f := s.fresh
    let mem (a : Nat) : D24 := x.peek s.bankB a
    let addr : BitVec 14 := if post then b.pr pi else b.pr pi + imm
    let a := addr.toNat
    let after := if post then b.post pi f else b
    let n := (entry.toNat + (if ra = 0 then 0 else (b.xr ra).toNat)) % 256
    let box : W64 := Tbl.get 0 x.mbox n
    let valid := srFlags [(4, Tbl.get false x.mvalid n)]
    let does (i : Instr) (l : List (Nat × LeRes)) (b' : LeBank) := LeDoes s i e .rep 1 l b'
    let kf (i : Instr) (k : LeClass) (c : Nat) := s.leFree e k c = true → Runs i s fun t => t = s.cutOff e 3
    (moveSource x f src ra = some v →
      does (.move e rd ra 0 src) [(1, .x rd v)] b ∧ does (.move e rd ra 1 src) [(1, .d rd (v.setWidth 24))] b ∧
      (rd.val < 8 → does (.move e rd ra 2 src) [] (b.loadP rd (v.setWidth 14)) ∧
        does (.move e rd ra 3 src) [] { b with m := b.m.setIfInBounds rd (v &&& 0x3FFF3FFF) }) ∧
      does (.move e rd ra 4 src) [(1, .srMove 0xFF v), (2, .sr 0x7F v)] b) ∧
    (rd.val < 8 → does (.addp e rd imm) [] (b.loadP rd (b.pr rd + imm))) ∧
    does (.ld e rd post pi imm) [(2, .d rd (mem a))] after ∧
    does (.ldx e rd post pi imm) [(2, .x rd ((mem (a + 1)).setWidth 8 ++ mem a))] after ∧
    (a < 8192 → does (.st e rd post pi imm) [(3, .mem addr (b.dr rd))] after) ∧
    (8192 ≤ a → kf (.st e rd post pi imm) .rep 1) ∧
    (a < 8191 → LeDoes s (.stx e rd post pi imm) e .plain 2
      [(3, .mem addr ((b.xr rd).setWidth 24)), (3, .mem (addr + 1) (((b.xr rd).sshiftRight 24).setWidth 24))] after) ∧
    (8191 ≤ a → kf (.stx e rd post pi imm) .plain 0) ∧
    does (.ldt e rd ra entry) [(2, .d rd (box.setWidth 24)), (2, valid)] b ∧
    (rd.val % 2 = 0 → LeDoes s (.ldtw e rd ra entry) e .plain 1
      [(2, .x rd (box.setWidth 32)), (2, .x (rd + 1) ((box >>> 32).setWidth 32)), (2, valid)] b) ∧
    ((∀ k, k < 32 → v.getLsbD k = Tbl.get false x.mvalid (32 * g.val + k)) → LeDoes s (.ldtv e rd g) e .plain 1 [(2, .x rd v)] b)

/-- STT stages the register as one flit, STTW a pair as two, in order (R119, R122); past 256 flits in a run the instruction is kernel
fault 0x07 (R113). -/
def LeStagingRules : Prop :=
  ∀ (s : State) (e : Fin 12) (rd : Fin 16) (r : LeRun), (s.leReady e).run = some r →
    let b := (s.leReady e).bank
    let staged (i : Instr) (k : LeClass) (f : StagedFlit) (n : Nat) := s.leFree e k 1 = true →
      (r.total + n ≤ 256 → Runs i s fun t => LeFrame s t e 1 [] b ∧
        (t.leAt e).run.map (fun q => (q.staged, q.total)) = some (r.staged ++ [f], r.total + n)) ∧
      (256 < r.total + n → Runs i s fun t => (t.leAt e).run = none ∧ (t.leAt e).frozen = true)
    staged (.stt e rd) .rep { data := (b.dr rd).setWidth 64, wide := false } 1 ∧
    (rd.val % 2 = 0 → staged (.sttw e rd) .plain { data := b.xr (rd + 1) ++ b.xr rd, wide := true } 2)

/-- Loop engines: loads, stores, moves and staging (R107, R118 to R123). -/
def Obligations.LeMemoryMoves : Prop :=
  LeMovesRules ∧ LeStagingRules

/-- Control flow of a loop engine (R97, R106, R109 to R111, R118): a branch goes to its target after two delay slots, CALL links PC + 3
in X15, REP and RPB take their count at once, LEAVE pops a level; an instruction that is no branch goes on at the next address, or from
the last delay slot at the target. -/
def Obligations.LeFlow : Prop :=
  ∀ (s : State) (e : Fin 12) (cond ra xs : Fin 16) (off : BitVec 22) (xc : Bool) (count : BitVec 12) (len : BitVec 9),
    let x := s.leReady e
    let b := x.bank
    let n := if xc then (b.xr xs).toNat % 65536 else count.toNat
    let lvl : LoopLvl := { cnt := n, sta := b.pc.toNat + 1, fin := b.pc.toNat + len.toNat }
    let does (i : Instr) (k : LeClass) (l : List (Nat × LeRes)) (P : Le → Prop) := s.leFree e k 1 = true →
      Runs i s fun t => (∀ r ∈ l, (t.leSees e (s.leNow e + r.1)).holds r.2) ∧ LeFrame s t e 1 l b ∧ P (t.leAt e)
    let branch (t : Option (BitVec 16)) (y : Le) := y.ds = some { left := 2, target := t } ∧ y.bank.pc = b.pc + 1 ∧ y.bank.loops = b.loops
    (cond ≠ 15 → does (.brc (.le e) cond off) .jump []
      (branch (if condHolds cond b.fl then some (b.pc + off.setWidth 16) else none))) ∧
    does (.call (.le e) off) .jump [(1, .x 15 ((b.pc + 3).setWidth 32))] (branch (some (b.pc + off.setWidth 16))) ∧
    does (.ret (.le e) ra) .jump [] (branch (some ((b.xr ra).setWidth 16))) ∧
    (1 ≤ n → n ≤ 4095 → does (.rep e xc xs count) .repeater []
      fun y => y.rep = some n ∧ y.bank.pc = b.pc + 1 ∧ y.bank.loops = b.loops) ∧
    (n = 0 → xc = true → b.loops = [] → does (.rep e xc xs count) .repeater []
      fun y => y.rep = x.rep ∧ y.bank.pc = b.pc + 2 ∧ y.bank.loops = []) ∧
    (2 ≤ len.toNat → b.loops.length < 4 → 1 ≤ n → does (.rpb e xc xs count len) .flow []
      fun y => y.bank.loops = lvl :: b.loops ∧ y.bank.pc = b.pc + 1) ∧
    (2 ≤ len.toNat → b.loops = [] → n = 0 → xc = true → does (.rpb e xc xs count len) .flow []
      fun y => y.bank.loops = [] ∧ y.bank.pc = b.pc + len.setWidth 16 + 1) ∧
    (∀ l ls, b.loops = l :: ls → (∀ k ∈ ls, k.fin ≠ b.pc.toNat) → does (.leave e) .flow []
      fun y => y.bank.loops = ls ∧ y.bank.pc = b.pc + 1) ∧
    (x.rep = none → b.loops = [] → does (.nop (.le e)) .plain [] fun y =>
      (x.ds = none → y.ds = none ∧ y.bank.pc = b.pc + 1) ∧
      (∀ d, x.ds = some d →
        (d.left = 2 → y.ds = some { left := 1, target := d.target } ∧ y.bank.pc = b.pc + 1) ∧
        (d.left = 1 → y.ds = none ∧ (∀ t, d.target = some t → y.bank.pc = t) ∧ (d.target = none → y.bank.pc = b.pc + 1))))

/-- A lock whose timetable entry is whole starts with its tokens, its bank as R130 gives it, nothing staged and nothing under way; one
whose entry is torn is not started in this flight, and one torn in both copies is fatal (R340); END ends a lock and clears its count of
consecutive cut-offs (R68, R123). RT_IST in a lock with 65 tokens or more begins work units at once (R589): 17 tokens are left. -/
def LeLockStartEndRules : Prop :=
  ∀ (s : State) (e : Fin 12) (n : Nat) (k : LockEntry) (g : Image) (r : LeRun),
    let entry : EntryRef := ⟨s.fld TT_STATUS Fld.TT_STATUS_ACTIVE % 15, false, n⟩
    let may := s.activeSec.locks[n]? = some k ∧ s.tt.image = some g ∧ s.lockMayStart e k g.voyage = true
    (may → s.tt.torn.contains entry = true → Runs (.lockStart e n) s fun t => t.leAt e = s.leAt e ∧ MemSame s t ∧
      (s.tt.torn2.contains entry = false → CorrectedOnce s t ∧ t.tt.torn.contains entry = false ∧ RegsFcBut s t []) ∧
      (s.tt.torn2.contains entry = true → FatalOnce s t (srcId 0x05 0xFF))) ∧
    (may → s.tt.torn.contains entry = false → k.entry = 0x8020 → k.kind ≠ 0 → 65 ≤ k.budget → (s.istWork e).isSome = true →
      Runs (.lockStart e n) s fun t =>
        (t.leAt e).run.map (fun q => (q.lock, q.unit, q.tokens + q.cyc)) = some (k, true, k.budget) ∧
        (t.leAt e).run.all (fun q => decide (17 ≤ q.tokens ∧ q.tokens < 65)) = true) ∧
    (may → s.tt.torn.contains entry = false → k.entry ≠ 0x8020 ∨ k.kind = 0 ∨ k.budget < 65 → Runs (.lockStart e n) s fun t =>
      let y := t.leAt e
      y.run.map (fun q => (q.lock, q.tokens, q.commits, q.staged, q.state, q.cyc)) = some (k, k.budget, 0, [], [], 0) ∧
      y.pend = [] ∧ y.ds = none ∧ y.rep = none ∧ y.frozen = false ∧ y.bank.loops = [] ∧
      y.bank.pc = BitVec.ofNat 16 k.entry ∧ y.bank.sr = 0x80 ∧ y.bank.fl = 0 ∧ y.bank.xr 0 = BitVec.ofNat 32 k.id ∧
      y.bank.xr 1 = BitVec.ofNat 32 s.tt.flightNo ∧
      y.bank.xr 2 = BitVec.ofNat 32 (s.tt.flightNo % g.voyage + 256 * b2n s.bankB + 4096 * s.fld TT_STATUS Fld.TT_STATUS_ACTIVE) ∧ (∀ q, 3 ≤ q → y.bank.xr q = 0) ∧ (∀ q, y.bank.dr q = 0 ∧ y.bank.ar q = 0) ∧
      y.bank.pr 0 = BitVec.ofNat 14 k.stateBase ∧ y.bank.pr 7 = 0x2000 ∧ (∀ q, 1 ≤ q → q ≤ 6 → y.bank.pr q = 0) ∧
      y.data = (if (s.leAt e).run.isSome then (s.leAt e).flush.data else (s.leAt e).data) ∧ y.mbox = (s.leAt e).mbox) ∧
    (s.leFree e .flow 1 = true → (s.leReady e).run = some r → r.lock.kind ≠ 0 ∨ r.lock.ncommit ≤ r.commits → Runs (.endLock e) s fun t =>
      (t.leAt e).run = none ∧ (∀ a, t.reg a = s.reg a) ∧ MemSame s t ∧ (r.lock.kind = 0 → Tbl.get 0 t.tt.cutRuns r.lock.id = 0) ∧
      t.fc = s.fc ∧ t.tow = s.tow ∧ t.mirror = s.mirror ∧ t.resp = s.resp)

/-- An accepted COMMIT (R64 to R66, R122): it takes two tokens, publishes the flits staged for its point in their places, empties the
staging; the final one also writes the staged words of the state region to data memory. -/
def LeCommitRules : Prop :=
  ∀ (s : State) (e : Fin 12) (r : LeRun),
    let x := (s.leReady e).flushMem
    let c := s.runSec r
    let k := r.commits + 1
    let flits := placeFlits (c.outputs r.lock k) r.staged
    s.leFree e .flow 2 = true → x.run = some r → k ≤ r.lock.ncommit →
    r.staged.foldl (fun n f => n + f.size) 0 ≤ (c.outputs r.lock k).foldl (fun n o => n + o.2.flits) 0 →
    r.cyc + 2 ≤ c.deadline r.lock k →
    Runs (.commit e) s fun t =>
      (t.leAt e).run.map (fun q => (q.commits, q.staged, q.tokens, q.cyc)) = some (k, [], r.tokens - 2, r.cyc + 2) ∧
      (∀ f ∈ flits, f ∈ t.tow.out) ∧
      (k < r.lock.ncommit → (t.leAt e).data = x.data ∧ (t.leAt e).run.map LeRun.state = some r.state) ∧
      (k = r.lock.ncommit → (t.leAt e).run.map LeRun.state = some [] ∧
        ∀ a v, r.state = [(a, v)] → a < 8192 → Tbl.get 0 (t.leAt e).data a = v) ∧
      (t.leAt e).bank.x = x.bank.x ∧ (t.leAt e).bank.d = x.bank.d ∧ (t.leAt e).mbox = (s.leAt e).mbox ∧ t.fc = s.fc ∧ MemSame s t

/-- Loop engines: a lock run from its start over its commits to its end (R59 to R68). -/
def Obligations.LeLockRuns : Prop :=
  LeLockStartEndRules ∧ LeCommitRules

/-- What a cut-off of a planned lock on LE_e leaves (R62, R66, R68, R115, R131): no lock runs, the bank is frozen with the results under
way written, nothing staged stands, the fault registers hold the cause and the lock where they held none, the missed deadline is
counted. -/
def CutOffBy (s t : State) (e : Nat) (r : LeRun) (cause : Nat) : Prop :=
  (t.leAt e).run = none ∧ (t.leAt e).frozen = true ∧ (t.leAt e).bank.x = (s.leAt e).flush.bank.x ∧
  (t.leAt e).bank.d = (s.leAt e).flush.bank.d ∧ (t.leAt e).data = (s.leAt e).flush.data ∧
  (t.leAt e).shadow.pc = (if cause < 0x80 then 0x8010 else 0x8000) ∧
  t.fld (TT_ENG_STAT e) Fld.TT_ENG_STAT_OVR = 1 ∧ t.fld (TT_ENG_STAT e) Fld.TT_ENG_STAT_LAST_LOCK = r.lock.id % 65536 ∧
  t.fld (TT_ENG_OVRCNT e) ⟨31, 0⟩ = satInc 32 (s.fld (TT_ENG_OVRCNT e) ⟨31, 0⟩) ∧
  (s.flag (ENG_FAULT e) Fld.ENG_FAULT_VALID = false →
    t.reg (ENG_FAULT e) = BitVec.ofNat 32 (r.lock.id * 65536 + 256 + cause) ∧
    t.reg (ENG_FAULT_PC e) = (s.leAt e).bank.pc.setWidth 32 ∧ t.reg (ENG_FAULT_SR e) = (s.leAt e).flush.bank.sr &&& 0xFF) ∧
  t.tow = s.tow ∧ t.mirror = s.mirror ∧ MemSame s t

/-- Cut-offs: tokens run out (0x80), an ECC error (0x83; a contained fault of the engine too, R341), an illegal word (0x01), with an
accepted word the command does nothing; BKPT is a debug event while DBG_EN is 1 and nothing else otherwise (R112, R118). -/
def Obligations.LeCutOffs : Prop :=
  ∀ (s : State) (e : Fin 12) (r : LeRun) (w : Word), (s.leAt e).run = some r → r.lock.kind = 0 →
    (s.leHalted e = false → s.fc.window = false → Runs (.lockCutOff e true) s fun t => CutOffBy s t e r 0x83 ∧ ContainedOnce s t (srcId 0x01 e)) ∧
    (s.leHalted e = false → r.tokens = 0 → Runs (.lockCutOff e false) s fun t => CutOffBy s t e r 0x80) ∧
    (r.tokens ≠ 0 → Runs (.lockCutOff e false) s fun t => t = s) ∧
    (s.leFree e .rep 0 = true → leLegal w.toNat = false → Runs (.illegalInstruction (.le e) w) s fun t => CutOffBy s t e r 1) ∧
    (leLegal w.toNat = true → Runs (.illegalInstruction (.le e) w) s fun t => t = s) ∧
    (s.leFree e .plain 1 = true → Runs (.bkpt e) s fun t =>
      LeFrame s t e 1 [] (s.leReady e).bank ∧ (t.leAt e).evt = ((s.leAt e).evt || (s.leAt e).stepOne || s.leDbg e))

/-- Debug of an engine over JTAG (R26, R112, R132): a halt request waits in ENG_DBG; at an instruction boundary free of delay slots
and repeats the event halts the engine, stops its island and puts the channels of its planned locks into their safe states; a resume or
a single step lets it go on; a halted engine issues nothing. A breakpoint that an instruction arrives at waits as an event. -/
def Obligations.LeDebug : Prop :=
  ∀ (s : State) (e : Fin 12), s.domOn (domLe e) = true →
    let halted (t : State) : Prop := t.leHalted e = true ∧ t.fc.stopped.contains (domLe e) = true
    (s.reachable (ENG_DBG e) = true → s.leHalted e = false → s.flag (ENG_DBG e) Fld.ENG_DBG_STEP = false →
      (Runs (.haltReq e) s fun t => t.flag (ENG_DBG e) Fld.ENG_DBG_HALT_REQ = true ∧ t.leHalted e = false ∧ RegsBut s t [ENG_DBG e] ∧
        t.leAt e = s.leAt e ∧ t.resp = .done) ∧
      (Runs (.resumeFromHalt e) s fun t => t.flag (ENG_DBG e) Fld.ENG_DBG_HALT_REQ = false ∧ t.leHalted e = false ∧
        RegsBut s t [ENG_DBG e] ∧ t.leAt e = s.leAt e ∧ t.resp = .done)) ∧
    (s.reachable (ENG_DBG e) = true → halted s →
      (Runs (.resumeFromHalt e) s fun t => t.leHalted e = false ∧ t.fc.stopped.contains (domLe e) = false ∧ RegsBut s t [ENG_DBG e] ∧
        ∀ n, n < 48 → (t.axAt n).safe.contains (.engineHalt e) = false) ∧
      (Runs (.singleStep e) s fun t => t.leHalted e = false ∧ (t.leAt e).stepOne = true ∧ RegsBut s t [ENG_DBG e])) ∧
    ((s.leAt e).held = false → s.leHalted e = false → s.leDbg e = true → (s.leAt e).ds = none → (s.leAt e).rep = none →
      s.leEvent e = true → Runs (.debugEventTaken e) s fun t => halted t ∧ (t.leAt e).evt = false ∧
        (t.leAt e).run = (s.leAt e).run ∧ ∀ n ∈ s.planAxes e, (t.axAt n).held = true ∧ (t.axAt n).safe.contains (.engineHalt e) = true) ∧
    (halted s → Runs (.nop (.le e)) s fun t => t = s) ∧
    (s.leFree e .plain 1 = true → s.leDbg e = true → s.flag (ENG_DBG e) Fld.ENG_DBG_BP_EN = true →
      Runs (.nop (.le e)) s fun t =>
        s.fld (ENG_DBG e) Fld.ENG_DBG_BP_ADDR = (t.leAt e).bank.pc.toNat → (t.leAt e).run.isSome = true → (t.leAt e).evt = true)

/-- A lockstep mismatch (R82, R117, R343, R349): the first engine lost is marked and held, its run dropped, the continuation window
opens, a contained fault of the engine is reported; with a timetable loaded its alternate is pending. A second engine is fatal and a
double fault (R85). -/
def Obligations.EngineLoss : Prop :=
  ∀ (s : State) (e : Fin 12), s.domOn (domLe e) = true → (s.leAt e).held = false →
    let after (t : State) : Prop := (t.leAt e).run = none ∧ (t.leAt e).held = true ∧ t.lost e = true
    (s.fc.lostEng = none → Runs (.engineLockstepMismatch e) s fun t =>
      after t ∧ t.fc.lostEng = some e.val ∧ t.fc.window = true ∧ t.flag FC_STAT Fld.FC_STAT_WINDOW = true ∧ ContainedOnce s t (srcId 0x01 e) ∧
      (s.tt.image.isSome = true → t.flag TT_STATUS Fld.TT_STATUS_ALT_PENDING = true ∧ t.tt.altReal = some (e.val + 1, s.ticks + 10))) ∧
    (∀ f, s.fc.lostEng = some f → f ≠ e.val → Runs (.engineLockstepMismatch e) s fun t =>
      after t ∧ t.fc.double = true ∧ t.fc.lostEng = some f ∧ FatalOnce s t (srcId 0x01 e) ∧ (s.mode = .run → s.flag SYS_MODE Fld.SYS_MODE_FROZEN = false → t.mode = .safeStop))

/-! ## Die links, islands, towpath -/

/-- Frames of a die link whose lanes run (R19 to R22, R39). A good frame in sequence is taken and acknowledged, whether or not a retry is
outstanding: the next number is expected, after a retry that of the frame sent next; a duty word of a downlink frame reaches the shadow of its channel, the burst words of an
uplink frame wait at the endpoint. A failing frame is logged and its retry is outstanding; while one is, every other frame that fails is dropped under
its own number and reported lost. The retry that fits its reservation and is good is taken; one that fails stays outstanding; one that
does not fit is dropped. Four frames dropped within 64 flights are a fault of the link. A keep-alive ends the silence. -/
def DieLinkFramesRules : Prop :=
  ∀ (s : State) (d : Fin 12) (dir : LinkDir) (f : LinkFrame), s.sddOn d = true → s.lanesUp d = true →
    let x := s.linkAt d
    let k := dirNo dir
    let q := vget x.rxSeq 0 k
    let n := vget x.txSeq 0 k
    let good := frameOk f = true ∧ frameSeq f = q
    let rx (t : State) := vget (t.linkAt d).rxSeq 0 k
    let tx (t : State) := vget (t.linkAt d).txSeq 0 k
    let out (t : State) := vget (t.linkAt d).retry false k
    let alive (t : State) := (t.linkAt d).lastAlive = s.clock ∧ (t.linkAt d).silent = false ∧ (t.linkAt d).faulted = false
    let retried (t : State) := Counted s t (SDD_LINKCNT d) Fld.SDD_LINKCNT_RETRIES
    let recent := (x.drops ++ [s.tt.flightNo]).filter fun g => s.tt.flightNo < g + 64
    let dropped (t : State) := Counted s t (SDD_LINKCNT d) Fld.SDD_LINKCNT_DROPPED ∧
      (recent.length < 4 → (t.linkAt d).faulted = x.faulted ∧ RegsFcBut s t [SDD_LINKCNT d] ∧ t.fc.pend = s.fc.pend) ∧
      (4 ≤ recent.length → (t.linkAt d).faulted = true)
    let taken (next : Nat) (t : State) := rx t = next ∧ tx t = next ∧ out t = false ∧ vget (t.linkAt d).acked none k = some q ∧
      (t.linkAt d).drops = x.drops ∧ alive t ∧ MemSame s t ∧ t.fc.pend = s.fc.pend ∧
      (dir = .up → (t.linkAt d).up = x.up ++ (f.words.filter fun w => (s.dieWords d).contains w.2).map fun w => (w.1, w.2, s.tt.flightNo)) ∧
      (dir = .down → ∀ j w : Fin 4, f.words.map Prod.fst = [0x1001 + 64 * j.val + w.val] → 4 * d.val + j.val < axisCount s.part →
        ∀ p ∈ f.words, p.2.toNat ≤ 0x7FFFFF → (t.axAt (4 * d.val + j.val)).arrived = true ∧
          (t.axAt (4 * d.val + j.val)).loads.getLast?.any (fun l => l.at_ == s.clock && l.words.contains (w.val + 1, p.2)) = true)
    (good → Runs (.dieLinkFrame d dir f) s fun t => taken (if out s then n else (q + 1) % 256) t ∧ (dir = .up → RegsBut s t [])) ∧
    (¬ good → out s = false → Runs (.dieLinkFrame d dir f) s fun t =>
      rx t = q ∧ tx t = (q + 1) % 256 ∧ out t = true ∧ CorrectedOnce s t ∧ RegsFcBut s t [] ∧ t.fc.pend = s.fc.pend ∧ t.ax = s.ax) ∧
    (¬ good → out s = true → Runs (.dieLinkFrame d dir f) s fun t =>
      rx t = q ∧ tx t = ((if frameOk f then frameSeq f else n) + 1) % 256 ∧ out t = true ∧ dropped t) ∧
    (good → out s = true → Runs (.dieLinkRetry d dir f true) s fun t => taken n t ∧ retried t) ∧
    (¬ good → out s = true → Runs (.dieLinkRetry d dir f true) s fun t =>
      t.linkAt d = x ∧ CorrectedOnce s t ∧ RegsFcBut s t [SDD_LINKCNT d] ∧ retried t) ∧
    (out s = true → Runs (.dieLinkRetry d dir f false) s fun t => rx t = n ∧ tx t = n ∧ out t = false ∧ dropped t) ∧
    (out s = false → Runs (.dieLinkRetry d dir f true) s fun t => t = s) ∧
    (Runs (.dieLinkKeepalive d) s fun t => alive t ∧ (t.linkAt d).rxSeq = x.rxSeq ∧ (t.linkAt d).txSeq = x.txSeq ∧
      (t.linkAt d).retry = x.retry ∧ RegsBut s t [] ∧ MemSame s t)

/-- The loss of a die link (R22, R146): silence of 512 ns, or the loss of a lane, puts every channel of the die into its safe state
and is a contained fault, once until the link is back; less than 512 ns is no silence. Outside the continuation window. -/
def DieLinkLossRules : Prop :=
  ∀ (s : State) (d : Fin 12) (lane : Fin 2), s.sddOn d = true → s.fc.window = false →
    let x := s.linkAt d
    let lost (t : State) := (t.linkAt d).faulted = true ∧
      (x.faulted = false → ContainedOnce s t (srcId 0x15 d) ∧
        ∀ n ∈ dieAxes d, (t.axAt n).held = true ∧ (t.axAt n).safe.contains (.collector (srcId 0x15 d)) = true ∧
          (t.queueAt n).stopCol.contains (srcId 0x15 d) = true) ∧
      (x.faulted = true → t.fc = s.fc)
    (x.lastAlive + 128 ≤ s.clock → x.silent = false → Runs (.dieLinkSilent d) s fun t =>
      lost t ∧ (t.linkAt d).silent = true ∧ ∀ n ∈ dieAxes d, InSafe t n .linkSilent) ∧
    (s.clock < x.lastAlive + 128 ∨ x.silent = true → Runs (.dieLinkSilent d) s fun t => t = s) ∧
    (Runs (.dieLinkLaneLoss d lane) s fun t => lost t ∧ t.flag (SDD_STAT d) ⟨8 + lane, 8 + lane⟩ = false ∧ t.lanesUp d = false ∧ MemSame s t)

/-- The die link (R16 to R22): frames, acknowledgements, retries, losses. -/
def Obligations.DieLink : Prop :=
  DieLinkFramesRules ∧ DieLinkLossRules

/-- Island stops (R26, R338, R341): a stopped or halted TP, NW or PS island puts every channel into its safe state, a halted engine
those of its planned locks; the stop of TP is the hardware safe state, of NW or PS a fatal fault, of an engine its loss; the other
islands only stop. -/
def Obligations.IslandStops : Prop :=
  ∀ (s : State) (halt : Bool) (e : Fin 12) (p : Fin 2) (g : Fin 6),
    let on (i : Island) (P : State → Prop) := s.domOn (islandNo i) = true → Runs (.islandClockStop i halt) s fun t =>
      t.fc.stopped.contains (islandNo i) = true ∧ P t
    let all (t : State) (c : SafeCause) := ∀ n, n < axisCount s.part → (t.axAt n).held = true ∧ (t.axAt n).safe.contains c = true
    let only (i : Island) := on i fun t => t = { s with fc := { s.fc with stopped := addOnce s.fc.stopped (islandNo i) } }
    (halt = true → on .tp (fun t => all t .linkSilent)) ∧
    (halt = false → s.hwSafeOn = false → on .tp fun t => t.hwSafeOn = true ∧ all t .hwsafe ∧ t.flag SYS_MODE Fld.SYS_MODE_FROZEN = true ∧
      t.fld SAFE_STO Fld.SAFE_STO_GRP_A = 0xFFF ∧ t.fld SAFE_STO Fld.SAFE_STO_GRP_B = 0xFFF) ∧
    on .nw (fun t => all t (.island 0) ∧ (halt = false → FatalOnce s t (srcId 0x11 domNW))) ∧
    on .ps (fun t => all t (.island 1) ∧ (halt = false → FatalOnce s t (srcId 0x11 domPS))) ∧
    (halt = true → on (.le e) fun t => t.leAt e = s.leAt e ∧
      ∀ a ∈ s.planAxes e, (t.axAt a).held = true ∧ (t.axAt a).safe.contains (.engineHalt e) = true) ∧
    (halt = false → s.fc.lostEng ≠ some e.val → on (.le e) fun t =>
      t.lost e = true ∧ (t.leAt e).held = true ∧ (t.leAt e).run = none) ∧
    only (.sv p) ∧ only .sc ∧ only .aq ∧ only .cn ∧ only .hb ∧ only (.en g)

/-- A flit of an open reservation (R21, R28, R29, R71 to R73, R121): with a token, a credit and plane A joining the ports, the flit that the
sender has to send goes out; a good one-flit value is written sign-extended into the engine's mailbox entry of its place and marked
valid; the second flit of a pair that is the complement of the first writes the 64-bit entry; a CRC error writes nothing and the flit is
due once more on plane B, which takes no other flit; a die link sends the next word of the tag that an uplink frame brought; without a token a flit is refused, without
a credit it waits until one returns; a returned credit is counted up to the depth of the receiver. -/
def TowpathFlitsRules : Prop :=
  ∀ (s : State) (r : Nat) (o : OpenRes) (v : D24) (w u : W64) (ok : Bool) (p : Fin 48) (vc : Fin 4),
    let e := o.res
    let c := s.fld (TOW_PORT_CRED e.src) Fld.TOW_PORT_CRED_VC0
    let f := flitOf v.toNat e.tag
    let place (k : Nat) := (e.tag % 256 + k) % 256
    let box (t : State) (k : Nat) := (Tbl.get 0 (t.leAt e.dst).mbox k, Tbl.get false (t.leAt e.dst).mvalid k)
    let sent (t : State) := t.tow.opened.find? (·.idx == r)
    let offers (x : W64) := s.offered o x = some (o.sent, x)
    let credited (t : State) := t.fld (TOW_PORT_CRED e.src) Fld.TOW_PORT_CRED_VC0 = c - 1 ∧ RegsBut s t [TOW_PORT_CRED e.src]
    s.domOn domTP = true → s.tow.opened.find? (·.idx == r) = some o → o.idx = r → e.src < 48 → e.dst < 12 → e.tag < 65536 →
    s.planeJoins e false = true →
    (0 < o.tokens → 0 < c → offers f → e.tag.testBit 8 = false → Runs (.towpathFlitReceive r .a true f) s fun t =>
      box t (place o.sent) = (v.signExtend 64, true) ∧ (∀ k, k ≠ place o.sent → box t k = box s k) ∧ credited t ∧ MemSame s t ∧
      (sent t).map (fun q => (q.tokens, q.sent)) = some (o.tokens - 1, o.sent + 1)) ∧
    (0 < o.tokens → 0 < c → offers u → e.tag.testBit 8 = true → o.sent % 2 = 1 → o.got.find? (·.1 == o.sent - 1) = some (o.sent - 1, w) →
      (u = ~~~w → Runs (.towpathFlitReceive r .a true u) s fun t => box t (place (o.sent / 2)) = (w, true) ∧ credited t) ∧
      (u ≠ ~~~w → Runs (.towpathFlitReceive r .a true u) s fun t => t.le = s.le ∧ credited t)) ∧
    (0 < o.tokens → 0 < c → offers u → Runs (.towpathFlitReceive r .a false u) s fun t =>
      t.le = s.le ∧ CorrectedOnce s t ∧ Tbl.get 0 t.tow.errA e.dst = Tbl.get 0 s.tow.errA e.dst + 1 ∧
      (s.planeJoins e true = true → (sent t).map OpenRes.resend = some (o.resend ++ [(o.sent, u)])) ∧
      (Tbl.get 0 s.tow.errA e.dst = 15 → t.badPlane e.dst false = true)) ∧
    (s.offered o u = none → Runs (.towpathFlitReceive r .a ok u) s fun t => t = s) ∧
    (∀ x, (s.linkAt (e.src - 16)).up.find? (fun y => y.1 == e.tag) = some x → s.part ≠ .la48 → 16 ≤ e.src → e.src < 28 → e.kind ≠ 1 →
      e.kind ≠ 2 → e.tag.testBit 8 = false → 0 < o.tokens → 0 < c → Runs (.towpathFlitReceive r .a true u) s fun t =>
        box t (place o.sent) = (x.2.1.signExtend 64, true) ∧
        (t.linkAt (e.src - 16)).up = (s.linkAt (e.src - 16)).up.eraseP fun y => y.1 == e.tag) ∧
    (o.tokens = 0 → offers u → Runs (.towpathFlitReceive r .a ok u) s fun t =>
      (sent t).map OpenRes.refused = some true ∧ t.le = s.le ∧ RegsBut s t [] ∧ t.fc = s.fc) ∧
    (0 < o.tokens → c = 0 → offers u → Runs (.towpathFlitReceive r .a ok u) s fun t =>
      (sent t).map (fun q => (q.tokens, q.sent, q.waiting)) = some (o.tokens - 1, o.sent + 1, o.waiting ++ [(o.sent, u, ok)]) ∧
      t.le = s.le ∧ RegsBut s t [] ∧ t.fc = s.fc) ∧
    (s.planeJoins e true = true →
      (o.resend = [] → Runs (.towpathFlitReceive r .b ok u) s fun t => t = s) ∧
      (∀ k l, o.resend = k :: l → k.2 = f → e.tag.testBit 8 = false → Runs (.towpathFlitReceive r .b true u) s fun t =>
        box t (place k.1) = (v.signExtend 64, true) ∧ (sent t).map OpenRes.resend = some l ∧
        Counted s t TOW_RESENDS Fld.TOW_RESENDS_COUNT ∧ Counted s t (TOW_PORT_RESENDCNT e.src) Fld.TOW_PORT_RESENDCNT_COUNT ∧ t.fc = s.fc)) ∧
    (∀ k l, o.waiting = k :: l → k.2 = (f, true) → s.tow.opened.find? (fun q => q.res.src == e.src && !q.waiting.isEmpty) = some o →
      e.tag.testBit 8 = false → portPresent s.part e.src = true → Runs (.creditReturn (Fin.ofNat 48 e.src) 0) s fun t =>
        box t (place k.1) = (v.signExtend 64, true) ∧ (sent t).map OpenRes.waiting = some l ∧ RegsBut s t [] ∧ t.fc = s.fc) ∧
    (portPresent s.part p = true → (∀ q ∈ s.tow.opened, q.waiting = []) → Runs (.creditReturn p vc) s fun t =>
      t.fld (TOW_PORT_CRED p) ⟨8 * vc + 7, 8 * vc⟩ =
        (if s.fld (TOW_PORT_CRED p) ⟨8 * vc + 7, 8 * vc⟩ < vcDepth vc then s.fld (TOW_PORT_CRED p) ⟨8 * vc + 7, 8 * vc⟩ + 1
         else s.fld (TOW_PORT_CRED p) ⟨8 * vc + 7, 8 * vc⟩) ∧ RegsBut s t [TOW_PORT_CRED p] ∧ t.tow = s.tow ∧ t.fc = s.fc)

/-- Reservations and the state mirror (R67, R70 to R73, R121, R231, R340, R341, R344): a reservation whose timetable entry is whole opens at its
slot with its tokens and clears the valid bits it covers; the basin delivers then the status word and the successor of the queue of the lock
that reads it; a torn entry is skipped, one torn in both copies is fatal; where no plane joins the ports the reservation is refused and
contained faults name the ports; it closes at the end of its span, a refusal is recorded and reported once; a mirror write whose every flit
matched enters the array and goes on to the replica in the spare, unless a pair of the mirror disagrees: then the replica is stale. An
idle lock on the spare may lose a token for each replica write (R60, R108). -/
def TowpathReservationsRules : Prop :=
  ∀ (s : State) (r : Nat) (e : ResEntry) (g : Image) (o : OpenRes) (l a : LockEntry),
    let entry : EntryRef := ⟨s.fld TT_STATUS Fld.TT_STATUS_ACTIVE % 15, true, r⟩
    let opens (P : State → Prop) := s.resAt r = some e → s.tt.image = some g → s.running = true → s.tt.stepped = false →
      s.tt.flightNo % g.voyage % (s.activeSec.resPhase r e).2 = (s.activeSec.resPhase r e).1 →
      (s.activeSec.owner r = none ∨ s.activeSec.owner r = some l ∧ s.lost l.engine = false ∧ s.tt.blocked.contains l.id = false) →
      s.tow.opened.any (·.idx == r) = false → Runs (.reservationOpen r) s P
    let clears (t : State) := e.dst < 12 →
      (∀ k ∈ covered e, Tbl.get false (t.leAt e.dst).mvalid k = false) ∧ (t.leAt e.dst).mbox = (s.leAt e.dst).mbox
    (s.tt.torn.contains entry = false → s.joined e = true → opens fun t =>
      t.tow.opened = s.tow.opened ++ [{ idx := r, res := e, tokens := e.flits }] ∧ clears t ∧
      (e.src ≠ 28 → t.tow.out = s.tow.out ∧ (∀ a, t.reg a = s.reg a) ∧ t.fc = s.fc) ∧
      (e.src = 28 → e.dst < 12 → ∀ q, s.deliveryAxis e = some q →
        (∀ k, (s.queueAt q).queued.head? = some k → dCrcOk (s.desc k) = true) →
          (t.tow.out.filter fun x => x.1 == r) = ((s.delivery q).flatMap fun v => [v, ~~~v]).zipIdx.map (fun x => (r, x.2, x.1)) ∧
          (∀ a, t.reg a = s.reg a) ∧ t.fc = s.fc) ∧
      (e.src = 28 → e.dst < 12 → ∀ q, s.deliveryAxis e = some q → ∀ k, (s.queueAt q).queued.head? = some k →
        dCrcOk (s.desc k) = false → s.fc.window = false → t.tow.out = s.tow.out ∧ ContainedOnce s t (srcId 0x06 q) ∧
          (t.queueAt q).stopCol.contains (srcId 0x06 q) = true)) ∧
    (s.tt.torn.contains entry = false → s.joined e = false → s.fc.window = false → opens fun t => clears t ∧
      t.tow.opened.any (fun o => o.idx == r && o.refused) = true ∧
      (e.dst = 31 → s.fc.conds.contains (srcId 0x04 31, 2) = false → (s.badPlane e.src false && s.badPlane e.src true) = false →
        ContainedOnce s t (srcId 0x04 31))) ∧
    (s.tt.torn.contains entry = true → opens fun t => t.tow = s.tow ∧ t.le = s.le ∧ MemSame s t ∧
      (s.tt.torn2.contains entry = false → CorrectedOnce s t ∧ t.tt.torn.contains entry = false) ∧
      (s.tt.torn2.contains entry = true → FatalOnce s t (srcId 0x05 0xFF))) ∧
    (s.tow.opened.find? (·.idx == r) = some o → o.refused = false → o.waiting = [] →
      s.activeSec.owner r = some l → o.res.kind = 2 → o.res.dst = 29 → (∀ k, k < o.res.flits → o.ok.contains k = true) →
      (o.got.map Prod.fst).Nodup → Runs (.reservationSpanEnd r) s fun t =>
        (∀ q ∈ t.tow.opened, q.idx ≠ r) ∧ (∀ a, t.reg a = s.reg a) ∧ t.fc = s.fc ∧
        (∀ p ∈ o.got, Tbl.get 0 t.mirror.words (l.mirrorFirst + p.1) = p.2.setWidth 24) ∧
        Tbl.get 0 t.mirror.flights l.id = s.tt.flightNo ∧ t.mirror.fwd.contains l.id = true) ∧
    (s.tow.opened.find? (·.idx == r) = some o → o.refused = true → o.res.kind ≠ 2 → s.fc.window = false → o.res.src < 48 →
      Runs (.reservationSpanEnd r) s fun t =>
        (∀ q ∈ t.tow.opened, q.idx ≠ r) ∧ ContainedOnce s t (srcId 0x04 o.res.src) ∧ t.mirror = s.mirror ∧
        t.flag (TOW_PORT_STAT o.res.src) Fld.TOW_PORT_STAT_REFUSED = true ∧
        t.fld (TOW_PORT_REFCNT o.res.src) Fld.TOW_PORT_REFCNT_COUNT = satInc 32 (s.fld (TOW_PORT_REFCNT o.res.src) Fld.TOW_PORT_REFCNT_COUNT)) ∧
    (s.mirror.fwd.contains l.id = true → s.tt.image = some g → g.replicaOf l.id = some (l, a) → g.spare < 12 → l.stateWords ≤ 256 →
      (s.activeSec.locks.any fun k => k.id == l.id && k.engine == g.spare) = false →
      ((∀ k, k < l.stateWords → Tbl.get 0 s.mirror.diff (l.mirrorFirst + k) = 0) → Runs (.replicaForward l.id) s fun t =>
        (∀ k, k < l.stateWords → t.leWord g.spare ((a.stateBase + k) % 16384) = Tbl.get 0 s.mirror.words (l.mirrorFirst + k)) ∧
        t.tt.stale.contains l.id = false ∧ t.mirror.fwd.contains l.id = false ∧ RegsBut s t [TT_ENG_TESTCNT g.spare] ∧ t.fc = s.fc ∧
        (∀ q, (s.leAt g.spare).run = some q → q.lock.kind ≠ 0 → l.stateWords ≤ q.tokens → RegsBut s t [] ∧
          (t.leAt g.spare).run.any (fun p => q.tokens ≤ p.tokens + l.stateWords && p.lock == q.lock) = true)) ∧
      (∀ k, k < l.stateWords → Tbl.get 0 s.mirror.diff (l.mirrorFirst + k) ≠ 0 → s.fc.window = false → Runs (.replicaForward l.id) s fun t =>
        t.tt.stale.contains l.id = true ∧ ContainedOnce s t (srcId 0x07 0) ∧ t.le = s.le))

/-- The towpath (R24 to R29, R70 to R74): flits and reservations. -/
def Obligations.TowpathTraffic : Prop :=
  TowpathFlitsRules ∧ TowpathReservationsRules

/-! ## The timetable sequencer -/

/-- TT_CTRL (R55, R59, R79, R81): RUN and TEST_EN take the written bits; RUN = 0 is refused while channels may move; an accepted LOAD
latches the address, clears RUN and runs the checks; LOAD in another mode ends with code 0x10 and changes nothing else, LOAD while one is checked
is refused; TCOPY starts the copy of the banks, or sets
TWR_ERR. `w` carries no other of these three requests. -/
def TimetableControlRules : Prop :=
  ∀ (s : State) (i : Initiator) (w : Word), s.reachable TT_CTRL = true →
    fget w Fld.TT_CTRL_LOAD = 0 → fget w Fld.TT_CTRL_TCOPY = 0 →
    let run := fget w Fld.TT_CTRL_RUN
    let stops := run = 0 ∧ s.flag TT_CTRL Fld.TT_CTRL_RUN = true
    let ctrl (t : State) := t.fld TT_CTRL Fld.TT_CTRL_RUN = run ∧ t.fld TT_CTRL Fld.TT_CTRL_TEST_EN = fget w Fld.TT_CTRL_TEST_EN
    (stops → s.stopAllowed = false → Refused (.ttRun i w) s ∧ Refused (.ttLoad i w) s ∧ Refused (.tcopy i w) s) ∧
    (¬ (stops ∧ s.stopAllowed = false) → Runs (.ttRun i w) s fun t =>
      ctrl t ∧ RegsBut s t [TT_CTRL] ∧ t.resp = .done ∧ t.tt = s.tt ∧ MemSame s t) ∧
    (s.loadAllowed = true → s.fld TT_STATUS Fld.TT_STATUS_LOAD_CODE ≠ 0xFF → Runs (.ttLoad i w) s fun t =>
      t.tt.loading = some (s.reg TT_IMG_ADDR).toNat ∧ t.fld TT_STATUS Fld.TT_STATUS_LOAD_CODE = 0xFF ∧
      t.flag TT_CTRL Fld.TT_CTRL_RUN = false ∧ t.resp = .done ∧
      (s.running = false → t.tt.image = none ∧ t.flag TT_STATUS Fld.TT_STATUS_LOADED = false) ∧ (s.running = true → t.tt.image = s.tt.image)) ∧
    (s.loadAllowed = false → ¬ stops → s.fld TT_STATUS Fld.TT_STATUS_LOAD_CODE ≠ 0xFF → Runs (.ttLoad i w) s fun t =>
      t.fld TT_STATUS Fld.TT_STATUS_LOAD_CODE = 0x10 ∧ t.resp = .busError ∧ t.tt = s.tt ∧ RegsBut s t [TT_STATUS]) ∧
    (¬ stops → s.fld TT_STATUS Fld.TT_STATUS_LOAD_CODE = 0xFF → Refused (.ttLoad i w) s) ∧
    (¬ stops → let busy := s.flag TT_STATUS Fld.TT_STATUS_TCOPY_BUSY || s.flag TT_SWAP Fld.TT_SWAP_ARM
      Runs (.tcopy i w) s fun t => ctrl t ∧ RegsBut s t [TT_CTRL, TT_STATUS] ∧
        (busy = true → t.flag TT_STATUS Fld.TT_STATUS_TWR_ERR = true ∧ t.resp = .busError) ∧
        (busy = false → t.flag TT_STATUS Fld.TT_STATUS_TCOPY_BUSY = true ∧ t.resp = .done))

/-- Loading and the table banks (R55 to R57, R77 to R81): a load ends with the code of its checks, and with code 0 the timetable is
loaded; a copy makes both banks equal to the active one; a table word goes to the queue and, acknowledged, into the inactive bank of
each copy, but for those whose engine was lost or switched off meanwhile (TWR_ERR); a swap is armed unless a copy or a write is outstanding; an alternate is forced in Commission and Test only (R87); reading the least slack resets it, but through JTAG. -/
def TimetableTablesRules : Prop :=
  ∀ (s : State) (i : Initiator) (a : Nat) (g : Image) (c : Nat) (p : Placement) (w : Word) (v : TableWrite) (vs : List TableWrite)
    (at_ : Bool) (alt : Fin 16) (e : Fin 12),
    (s.tt.loading = some a → s.running = false →
      (s.ttCheck a = (c, none) → Runs .ttLoadComplete s fun t =>
        t.fld TT_STATUS Fld.TT_STATUS_LOAD_CODE = c % 256 ∧ t.tt = { s.tt with loading := none } ∧ RegsBut s t [TT_STATUS]) ∧
      (s.ttCheck a = (0, some g) → s.fc.lostEng = none → Runs .ttLoadComplete s fun t =>
        t.fld TT_STATUS Fld.TT_STATUS_LOAD_CODE = 0 ∧ t.tt.image = some g ∧ t.tt.loading = none ∧
        t.flag TT_STATUS Fld.TT_STATUS_LOADED = true ∧ t.fld TT_STATUS Fld.TT_STATUS_ACTIVE = 0 ∧
        t.reg TT_FLIGHT = BitVec.ofNat 32 g.flightTicks ∧
        t.tt.flightNo = flightAt (g.flightTicks, g.offset, g.voyage) s.ticks)) ∧
    (s.flag TT_STATUS Fld.TT_STATUS_TCOPY_BUSY = true → Runs .tcopyDone s fun t =>
      (t.leAt e).tblA = (if s.bankB then (s.leAt e).tblB else (s.leAt e).tblA) ∧ (t.leAt e).tblB = (t.leAt e).tblA ∧
      t.flag TT_STATUS Fld.TT_STATUS_TCOPY_BUSY = false ∧ t.bankB = s.bankB ∧ RegsBut s t [TT_STATUS] ∧ (t.leAt e).data = (s.leAt e).data) ∧
    (s.reachable TT_TWR_DATA = true → s.tt.image = some g → s.flag TT_SWAP Fld.TT_SWAP_ARM = false →
      g.places.find? (fun q => q.region == s.fld TT_TWR_ADDR Fld.TT_TWR_ADDR_REGION) = some p →
      s.fld TT_TWR_ADDR Fld.TT_TWR_ADDR_OFFSET < p.words → s.reachableCopies p.copies ≠ 0 → Runs (.ttTwrData i w) s fun t =>
        t.tt.writes = s.tt.writes ++ [{ copies := s.reachableCopies p.copies, word := p.addr + s.fld TT_TWR_ADDR Fld.TT_TWR_ADDR_OFFSET,
                                        value := w.setWidth 24 }] ∧
        t.fld TT_TWR_ADDR Fld.TT_TWR_ADDR_OFFSET = (s.fld TT_TWR_ADDR Fld.TT_TWR_ADDR_OFFSET + 1) % 2 ^ 13 ∧
        (s.reachableCopies p.copies ≠ p.copies % 2 ^ 12 → t.flag TT_STATUS Fld.TT_STATUS_TWR_ERR = true) ∧
        RegsBut s t [TT_TWR_ADDR, TT_STATUS, TT_TWR_OUT] ∧ t.le = s.le) ∧
    (s.reachable TT_TWR_DATA = true → s.flag TT_SWAP Fld.TT_SWAP_ARM = true → Runs (.ttTwrData i w) s fun t =>
      t.resp = .busError ∧ t.flag TT_STATUS Fld.TT_STATUS_TWR_ERR = true ∧ t.tt = s.tt ∧ RegsBut s t [TT_STATUS]) ∧
    (s.tt.writes = v :: vs → Runs .twrAck s fun t =>
      let c := s.reachableCopies v.copies
      t.tt.writes = vs ∧ RegsBut s t [TT_TWR_OUT, TT_STATUS] ∧
      (c = v.copies % 2 ^ 12 → RegsBut s t [TT_TWR_OUT]) ∧ (c ≠ v.copies % 2 ^ 12 → t.flag TT_STATUS Fld.TT_STATUS_TWR_ERR = true) ∧
      (∀ k, Tbl.get 0 (if s.bankB then (t.leAt e).tblA else (t.leAt e).tblB) k =
        if c.testBit e ∧ k = v.word then v.value else Tbl.get 0 (if s.bankB then (s.leAt e).tblA else (s.leAt e).tblB) k) ∧
      (if s.bankB then (t.leAt e).tblB = (s.leAt e).tblB else (t.leAt e).tblA = (s.leAt e).tblA)) ∧
    (s.pairFree i TT_SWAP = true →
      let out := s.flag TT_STATUS Fld.TT_STATUS_TCOPY_BUSY = true ∨ s.fld TT_TWR_OUT Fld.TT_TWR_OUT_OUT ≠ 0 ∨ s.flag TT_STATUS Fld.TT_STATUS_TWR_ERR = true
      (¬ out → Runs (.swapArm i at_) s fun t =>
        t.flag TT_SWAP Fld.TT_SWAP_ARM = true ∧ t.flag TT_SWAP Fld.TT_SWAP_AT = at_ ∧ t.flag TT_STATUS Fld.TT_STATUS_SWAP_PENDING = true ∧
        t.bankB = s.bankB ∧ RegsBut s t [TT_SWAP, TT_STATUS] ∧ t.resp = .done) ∧
      (out → Refused (.swapArm i at_) s) ∧
      (Runs (.swapCancel i at_) s fun t =>
        t.flag TT_SWAP Fld.TT_SWAP_ARM = false ∧ t.flag TT_STATUS Fld.TT_STATUS_SWAP_PENDING = false ∧ RegsBut s t [TT_SWAP, TT_STATUS] ∧
        t.resp = .done)) ∧
    (s.pairFree i TT_ALT_FORCE = true →
      let may := (s.mode = .commission ∨ s.mode = .test) ∧ s.tt.image.isSome = true ∧ s.flag TT_STATUS Fld.TT_STATUS_ALT_PENDING = false ∧
        s.fld TT_STATUS Fld.TT_STATUS_ACTIVE = 0 ∧ s.tt.altForced = none ∧ 1 ≤ alt.val ∧ alt.val ≤ 12
      (may → Runs (.ttAltForce i alt) s fun t =>
        t.tt.altForced = some alt.val ∧ t.flag TT_STATUS Fld.TT_STATUS_ALT_PENDING = true ∧ t.resp = .done ∧
        RegsBut s t [TT_ALT_FORCE, TT_STATUS] ∧ t.fc = s.fc) ∧
      (¬ may → Refused (.ttAltForce i alt) s)) ∧
    (s.reachable (TT_ENG_SLACK e) = true → Runs (.slackRead i e) s fun t =>
      t.resp = .data (s.reg (TT_ENG_SLACK e)) ∧ t.reg (TT_ENG_SLACK e) = (if i = .jtag then s.reg (TT_ENG_SLACK e) else 0xFFFF) ∧
      RegsBut s t [TT_ENG_SLACK e] ∧ MemSame s t ∧ t.fc = s.fc)

/-- The timetable (R55 to R59, R77 to R88): control, loads, table banks, swaps. -/
def Obligations.Timetable : Prop :=
  TimetableControlRules ∧ TimetableTablesRules

/-- A flight boundary (R23, R34, R41, R59, R76, R80, R82, R86, R349, R587) with no mode change and no step of line time waiting: it falls
where line time reaches a boundary of the grid, once; the flight takes its number from line time, the dies whose links run get the
marker, the credits of every port are 8 again, RUNNING follows RUN as it stands (log entry 247), an armed swap is made (with AT = 1 at
the start of a voyage only), a pending alternate becomes active; a load that waits for RUNNING to fall unloads the timetable, and the
flights are counted on the default grid from then on. -/
def Obligations.FlightBoundary : Prop :=
  ∀ (s : State), s.pwr.modeReq = none → s.mode ≠ .dormant → (s.mode = .safeStop → s.allSto = false) → s.time.step = none →
    s.fc.window = false →
    let f := flightAt s.grid s.ticks
    let armed := s.flag TT_SWAP Fld.TT_SWAP_ARM = true ∧ (s.flag TT_SWAP Fld.TT_SWAP_AT = false ∨ f % s.grid.2.2 = 0)
    let gone := s.tt.loading.isSome && s.running
    (s.boundaryDue = false → Runs .flightBoundary s fun t => t = s) ∧
    (s.domOn domTP = true → s.domOn domNW = true → domTP ∉ s.fc.stopped → domNW ∉ s.fc.stopped →
      (s.boundaryDue = true ↔ s.tt.flightNo ≠ f)) ∧
    (s.boundaryDue = true → Runs .flightBoundary s fun t =>
      (gone = false → t.tt.flightNo = f ∧ t.reg TT_FLIGHT_NO = BitVec.ofNat 32 f) ∧
      (gone = true → t.tt.image = none ∧ t.tt.flightNo = flightAt (1250, 0, 1) s.ticks ∧ t.flag TT_STATUS Fld.TT_STATUS_LOADED = false) ∧
      t.tow.sentNow = [] ∧ t.tt.stepped = false ∧ t.boundaryReached = false ∧
      (∀ d, d < sddCount s.part → s.sddOn d = true → s.lanesUp d = true → (t.sddAt d).marker = some (s.ticks, s.clock)) ∧
      (∀ p, p < 48 → portPresent s.part p = true → t.fld (TOW_PORT_CRED p) Fld.TOW_PORT_CRED_VC0 = 8) ∧
      (s.tt.loading = none → t.running = (s.flag TT_CTRL Fld.TT_CTRL_RUN && s.flag TT_STATUS Fld.TT_STATUS_LOADED && s.domOn domNW)) ∧
      (gone = false → armed → t.bankB = !s.bankB ∧ t.flag TT_SWAP Fld.TT_SWAP_ARM = false ∧ t.flag TT_STATUS Fld.TT_STATUS_SWAP_PENDING = false) ∧
      (gone = false → ¬ armed → t.bankB = s.bankB) ∧
      (∀ k u, s.tt.altReal = some (k, u) → u ≤ s.ticks → s.tt.image.isSome = true → s.tt.loading = none → k < 16 →
        t.fld TT_STATUS Fld.TT_STATUS_ACTIVE = k ∧ t.tt.altReal = none ∧ t.flag TT_STATUS Fld.TT_STATUS_ALT_PENDING = false))

/-! ## Channels: PWM generators and power stage -/

/-- EN and SAFE_REQ (R137, R138, R144, R146 to R148): EN = 1 is taken in the modes that allow it and if the checks pass, sets CFG_ERR if
they do not, and no slot switches before a duty has arrived; while STO acts EN stays 0 (log entry 254); it ends a safe state whose triggers have ceased once EN was written 0.
EN = 0 turns every switch off. SAFE_REQ is a trigger of the safe state; clearing it ends the trigger, not the safe state. `w` carries
the update bits of the register, which are refused while EN is 1 otherwise. -/
def ChannelEnableRules : Prop :=
  ∀ (s : State) (n : Fin 48) (w : Word), s.reachable (PWM_CTRL n) = true →
    let x := s.axAt n
    let upd := fget w ⟨3, 2⟩ = s.fld (PWM_CTRL n) ⟨3, 2⟩
    let mode := s.mode = .commission ∨ s.mode = .run ∨ s.mode = .degraded
    let near (t : State) := RegsFcOutside s t (0x4010 + n) ∧ MemSame s t
    let off (t : State) := (∀ k, k < 4 → t.slotRank n k ≤ 4 ∧ vget (t.axAt n).ho false k = false ∧ vget (t.axAt n).lo false k = false)
    (upd → s.en n = false → mode → s.enChecks n = true → s.flag (PWM_STAT n) Fld.PWM_STAT_STO = true → Runs (.pwmEnSet n w) s fun t =>
      t.en n = false ∧ (∀ k, k < 4 → t.slotRank n k ≤ 4) ∧ t.resp = .done ∧ near t ∧ (t.axAt n).loads = x.loads) ∧
    (upd → s.en n = false → mode → s.enChecks n = true → s.flag (PWM_STAT n) Fld.PWM_STAT_STO = false → Runs (.pwmEnSet n w) s fun t =>
      t.en n = true ∧ (t.axAt n).stepNew = true ∧ t.fld (PWM_CTRL n) Fld.PWM_CTRL_SLOT_EN = fget w Fld.PWM_CTRL_SLOT_EN ∧
      t.flag (PWM_STAT n) Fld.PWM_STAT_SHADOW_VALID = false ∧ (∀ k, k < 4 → t.slotRank n k ≤ 4) ∧ (t.axAt n).loads = [] ∧ t.resp = .done ∧ near t ∧
      (x.held = true → x.safe = [] → x.enDropped = true → fget w Fld.PWM_CTRL_SAFE_REQ = s.fld (PWM_CTRL n) Fld.PWM_CTRL_SAFE_REQ →
        (t.axAt n).held = false ∧ t.flag (PWM_STAT n) Fld.PWM_STAT_SAFE = false) ∧
      (x.held = true → x.enDropped = false → (t.axAt n).held = true)) ∧
    (upd → s.en n = false → mode → s.enChecks n = false → Runs (.pwmEnSet n w) s fun t =>
      t.en n = false ∧ t.flag (PWM_STAT n) Fld.PWM_STAT_CFG_ERR = true ∧ t.resp = .busError ∧ RegsBut s t [PWM_STAT n]) ∧
    (upd → s.en n = false → ¬ mode → Runs (.pwmEnSet n w) s fun t => t = { s with resp := .busError }) ∧
    (¬ upd → s.en n = true → Refused (.pwmEnSet n w) s) ∧
    (upd → s.en n = true → Runs (.pwmEnClear n w) s fun t => t.en n = false ∧ off t ∧ t.flag (PWM_STAT n) Fld.PWM_STAT_ACTIVE = false ∧
      t.resp = .done ∧ near t ∧ (x.held = true → x.safe = [] → fget w Fld.PWM_CTRL_SAFE_REQ = s.fld (PWM_CTRL n) Fld.PWM_CTRL_SAFE_REQ →
        (t.axAt n).enDropped = true)) ∧
    (upd → fget w Fld.PWM_CTRL_EN = b2n (s.en n) → s.flag (PWM_CTRL n) Fld.PWM_CTRL_SAFE_REQ = false → Runs (.safeReqSet n w) s fun t =>
      t.flag (PWM_CTRL n) Fld.PWM_CTRL_SAFE_REQ = true ∧ InSafe t n .firmware ∧ (∀ k, k < 4 → t.slotRank n k ≤ 3) ∧ t.en n = s.en n ∧
      off t ∧ near t ∧ t.resp = .done ∧
      (x.held = false → t.flag (PWM_STAT n) Fld.PWM_STAT_SAFE = true ∧ t.fld (PWM_STAT n) Fld.PWM_STAT_SAFE_CAUSE = 1)) ∧
    (upd → fget w Fld.PWM_CTRL_EN = b2n (s.en n) → s.flag (PWM_CTRL n) Fld.PWM_CTRL_SAFE_REQ = true → Runs (.safeReqClear n w) s fun t =>
      t.flag (PWM_CTRL n) Fld.PWM_CTRL_SAFE_REQ = false ∧ (t.axAt n).safe = x.safe.filter (· != .firmware) ∧ (t.axAt n).held = x.held ∧
      t.en n = s.en n ∧ near t ∧ t.resp = .done)

/-- The carrier (R135, R136, R139 to R142): in the tick of an update point, and once, a shadow that has been complete for 64 ns takes effect and gives the edges of
its duty, rise h − d·h and fall h + d·h for the half period h; a younger one waits; at a peak with UPD = 0 none takes effect. A
rise turns LO off, a fall HO; the opposite switch turns on 20 ns and its delay later, while the other is off, unless the pulse is
shorter than MINPW: then it is suppressed and counted. The pulse ends at the edge in effect when it ends: with UPD = 1 that of the
shadow which the peak brings. -/
def CarrierUpdateRules : Prop :=
  ∀ (s : State) (n : Fin 48) (k : Fin 4) (g : Shadow) (v : D24) (peak : Bool) (iA iB : Int) (ed : PwmEdge),
    s.domOn (domAx n) = true → n.val < axisCount s.part →
    let x := s.axAt n
    let h := s.fld (PWM_PERIOD n) Fld.PWM_PERIOD_PERIOD / 2
    let d := v.toNat * h / 2 ^ 23
    let now := (s.reg (PWM_RISE n k)).toNat
    let nowF := (s.reg (PWM_FALL n k)).toNat
    let c := x.carrier
    let least : Int := max 1 (s.fld (PWM_MINPW n) Fld.PWM_MINPW_MINPW : Nat)
    let upd := s.flag (PWM_CTRL n) Fld.PWM_CTRL_UPD
    let fall := if upd = true ∧ x.pastPeak = false then (s.nextEdges n k).2 else nowF
    let rise := if c = ed.c then (s.nextEdges n k).1 else now
    let hi : Int := (edgeTap fall ed.c : Int) - ed.tap - s.fld (PWM_DLY n k) Fld.PWM_DLY_RISE - 320
    let lo : Int := (s.fld (PWM_PERIOD n) Fld.PWM_PERIOD_PERIOD / 16 : Nat) + (edgeTap rise (ed.c + 1) : Int) - ed.tap -
      s.fld (PWM_DLY n k) Fld.PWM_DLY_FALL - 320
    let side (t : State) := (vget (t.axAt n).ho false k, vget (t.axAt n).lo false k)
    let off (sw : Bool) (f : Fld) := sw = false ∧ (s.fld (PWM_DLY n k) f + 320) / 64 ≤ s.clock - ed.at_
    let suppressed (t : State) := side t = side s ∧ Counted s t (PWM_SUPCNT n) Fld.PWM_SUPCNT_COUNT ∧ RegsBut s t [PWM_SUPCNT n]
    (s.carrierAt n peak = false → Runs (.updatePoint n peak iA iB) s fun t => t = s) ∧
    (s.carrierAt n peak = true → peak = false ∨ upd = true → x.loads = [g] →
      k.val < 3 → g.words = [(k.val + 1, v)] → x.started = true → x.pre = none → x.bootHeld = false →
      s.fld (STP_CFG n) Fld.STP_CFG_CLASS = 0 →
      (g.at_ + 16 ≤ s.clock → Runs (.updatePoint n peak iA iB) s fun t =>
        vget (t.axAt n).duty 0 k = v ∧ (t.axAt n).loads = [] ∧ t.carrierAt n peak = false ∧
        (t.reg (PWM_RISE n k)).toNat = (h - d) % 2 ^ 32 ∧ (t.reg (PWM_FALL n k)).toNat = (h + d) % 2 ^ 32 ∧ RegsOutside s t (0x4010 + n)) ∧
      (s.clock < g.at_ + 16 → Runs (.updatePoint n peak iA iB) s fun t =>
        (t.axAt n).duty = x.duty ∧ (t.axAt n).loads = [g] ∧ RegsOutside s t (0x4010 + n))) ∧
    (s.carrierAt n true = true → upd = false → Runs (.updatePoint n true iA iB) s fun t =>
      (t.axAt n).duty = x.duty ∧ (t.axAt n).loads = x.loads ∧ (t.axAt n).pastPeak = true ∧ RegsBut s t []) ∧
    (s.en n = true → x.started = true →
      (Runs (.pwmEdge n k .rise) s fun t => side t = ((side s).1, false) ∧ RegsBut s t [] ∧
        vget (t.axAt n).riseE none k = some { at_ := s.clock, c := c, word := now, tap := edgeTap now c }) ∧
      (Runs (.pwmEdge n k .fall) s fun t => side t = (false, (side s).2) ∧ RegsBut s t [] ∧
        vget (t.axAt n).fallE none k = some { at_ := s.clock, c := c, word := nowF, tap := edgeTap nowF c }) ∧
      (vget x.riseE none k = none → Runs (.pwmEdge n k .hoOn) s fun t => t = s) ∧
      (vget x.fallE none k = none → Runs (.pwmEdge n k .loOn) s fun t => t = s) ∧
      (vget x.riseE none k = some ed →
        (¬ off (side s).2 Fld.PWM_DLY_RISE → Runs (.pwmEdge n k .hoOn) s fun t => t = s) ∧
        (off (side s).2 Fld.PWM_DLY_RISE →
          (ed.word < fall → least ≤ hi → Runs (.pwmEdge n k .hoOn) s fun t => side t = (true, (side s).2) ∧ RegsBut s t []) ∧
          (ed.word < fall → hi < least → Runs (.pwmEdge n k .hoOn) s suppressed) ∧
          (fall ≤ ed.word → Runs (.pwmEdge n k .hoOn) s fun t => side t = side s ∧ RegsBut s t []))) ∧
      (vget x.fallE none k = some ed →
        (¬ off (side s).1 Fld.PWM_DLY_FALL → Runs (.pwmEdge n k .loOn) s fun t => t = s) ∧
        (off (side s).1 Fld.PWM_DLY_FALL →
          (least ≤ lo → Runs (.pwmEdge n k .loOn) s fun t => side t = ((side s).1, true) ∧ RegsBut s t []) ∧
          (lo < least → Runs (.pwmEdge n k .loOn) s suppressed))))

/-- PWM channels: enabling and the carrier update. -/
def Obligations.ChannelRuns : Prop :=
  ChannelEnableRules ∧ CarrierUpdateRules

/-- Bursts and the offset calibration (R149, R161, R177 to R179, R186, R187, R294): a burst below the overvoltage threshold gives the slot its value
from the mean of its codes with offset and gain, or the rail, the bus voltage by VBUS_SRC, and the latest phase-node codes; a calibration waits, measures, writes the offsets, or
ends with the code of the check that failed: a spread of the phase node, a count change of a flight, an offset out of range. -/
def BurstsAndCalibrationRules : Prop :=
  ∀ (s : State) (n : Fin 48) (late : Bool) (b : BurstCodes) (k : Fin 4) (w : Word) (sums : List Int) (most least delta : Int),
    let x := s.axAt n
    let ext := s.extMode n
    let cnt := s.fld (SNS_CFG n) Fld.SNS_CFG_NM1 + 1
    let codes := (List.range cnt).map fun j => vgetL (vgetL b.slots [] k) 0 j
    let mean := codes.foldl (· + ·) 0 * 1024 / (cnt : Int)
    let value : D24 := if codes.contains 8191 then 0x7FFFFF else if codes.contains (-8192) then 0x800000 else
      BitVec.ofInt 24 (sat24 ((mean - s.sfld (SNS_OFS n k) Fld.SNS_OFS_OFS) * s.fld (SNS_GCAL n k) Fld.SNS_GCAL_GCAL / 2 ^ 22))
    let code := s.fld (SNS_CALSTAT n) Fld.SNS_CALSTAT_CODE
    let ofs (j : Nat) : Int := vgetL sums 0 j * 1024 / 256
    let fits (j : Nat) := -0x040000 ≤ ofs j ∧ ofs j ≤ 0x040000
    let quiet := (ext = true ∨ most - least ≤ s.fld (SNS_CAL n) Fld.SNS_CAL_CAL_VQ)
    let cq := s.fld (SNS_CAL n) Fld.SNS_CAL_CAL_CQ
    let ended (c : Nat) (t : State) := t.fld (SNS_CALSTAT n) Fld.SNS_CALSTAT_CODE = c ∧ CorrectedOnce s t ∧ RegsFcBut s t [SNS_CALSTAT n]
    (s.domOn (domAx n) = true → n.val < axisCount s.part → ext = false → s.part ≠ .la48 →
      b.vbus.toNat ≤ s.fld (SDD_THR (n / 4)) Fld.SDD_THR_VBUS_OV → Runs (.burst n late b) s fun t =>
        let new := if late then (t.axAt n).late else (t.axAt n).early
        vget new.i 0 k = value ∧ t.fld (SDD_VBUS (n / 4)) Fld.SDD_VBUS_CODE = b.vbus.toNat ∧
        (s.fld (CL_CFG n) Fld.CL_CFG_VBUS_SRC = 0 → new.vbus = BitVec.ofNat 24 (b.vbus.toNat * 2048)) ∧
        (s.fld (CL_CFG n) Fld.CL_CFG_VBUS_SRC = 2 → new.vbus = BitVec.ofNat 24 (s.fld (CL_VBUS_FW n) Fld.CL_VBUS_FW_VBUS)) ∧
        (t.reg (SNS_PHV n k) = match (vgetL b.phv [] k).getLast? with
          | some c => BitVec.ofInt 32 (c * 4096)
          | none => s.reg (SNS_PHV n k)) ∧
        (late = true → t.reg (SNS_I n k) = value.signExtend 32 ∧ (t.axAt n).early = x.early) ∧
        (late = false → t.reg (SNS_I n k) = s.reg (SNS_I n k) ∧ (t.axAt n).late = x.late) ∧ RegsFcBut s t
          ([SDD_VBUS (n / 4)] ++ (List.range 4).map (SNS_I n) ++ (List.range 4).map (SNS_PHV n)) ∧ MemSame s t) ∧
    (s.reachable (SNS_CAL n) = true →
      (s.en n = true → Runs (.calStart n w) s fun t => t.fld (SNS_CALSTAT n) Fld.SNS_CALSTAT_CODE = 0x10 ∧ RegsBut s t [SNS_CALSTAT n]) ∧
      (s.en n = false → Runs (.calStart n w) s fun t => t.fld (SNS_CALSTAT n) Fld.SNS_CALSTAT_CODE = 1 ∧
        ExpiresAt t (.calDecay n) (s.clock + fget w Fld.SNS_CAL_CAL_WAIT * 25000) ∧ RegsBut s t [SNS_CALSTAT n, SNS_CAL n] ∧
        (t.axAt n).calMask = s.fld (PWM_CTRL n) Fld.PWM_CTRL_SLOT_EN)) ∧
    (code = 1 → s.due (.calDecay n) = true → Runs (.calDecayEnd n) s fun t =>
      t.fld (SNS_CALSTAT n) Fld.SNS_CALSTAT_CODE = 2 ∧ t.timerOn (.calDecay n) = false ∧ RegsBut s t [SNS_CALSTAT n]) ∧
    (s.due (.calDecay n) = false → Runs (.calDecayEnd n) s fun t => t = s) ∧
    (code = 1 ∨ code = 2 → ¬ quiet → Runs (.calMeasureEnd n sums most least) s (ended 0x11)) ∧
    (code = 1 ∨ code = 2 → cq ≠ 255 → cq < min delta.natAbs 255 → ended 0x12 (s.calCount n delta)) ∧
    (cq = 255 ∨ min delta.natAbs 255 ≤ cq → s.calCount n delta = s) ∧
    (code = 1 → quiet → Runs (.calMeasureEnd n sums most least) s fun t => t = s) ∧
    (code = 2 → quiet → (∃ j, j < 4 ∧ x.calMask.testBit j = true ∧ ¬ fits j) → Runs (.calMeasureEnd n sums most least) s (ended 0x13)) ∧
    (code = 2 → quiet → (∀ j, j < 4 → x.calMask.testBit j = true → fits j) → Runs (.calMeasureEnd n sums most least) s fun t =>
      t.fld (SNS_CALSTAT n) Fld.SNS_CALSTAT_CODE = 3 ∧ t.fc = s.fc ∧
      t.reg (SNS_OFS n k) = (if x.calMask.testBit k then (BitVec.ofInt 24 (ofs k)).setWidth 32 else s.reg (SNS_OFS n k)) ∧
      RegsBut s t (SNS_CALSTAT n :: (List.range 4).map (SNS_OFS n)))

/-- Supervisions of a channel (R159, R216, R275) outside the continuation window: a count at its limit (a limit of 0 acts as 1) takes
the action of its code once: a corrected fault, a contained fault with the stop of the axis, or a contained fault with the safe state;
below the limit, or taken already, nothing happens. -/
def SupervisionLimitsRules : Prop :=
  ∀ (s : State) (n : Fin 48), s.fc.window = false →
    let src := srcId 0x09 n
    let acts (i : Instr) (k count limit code : Nat) :=
      (max limit 1 ≤ count → vget (s.axAt n).acted false k = false → Runs i s fun t =>
        vget (t.axAt n).acted false k = true ∧ MemSame s t ∧
        (code = 0 → RegsBut s t [] ∧ t.fc = s.fc) ∧ (code = 1 → CorrectedOnce s t ∧ RegsFcBut s t []) ∧
        (code = 2 → ContainedOnce s t src ∧ (t.queueAt n).stopSup.contains src = true ∧ t.fc.conds.contains (src, k) = true ∧ RegsFcBut s t []) ∧
        (code = 3 → ContainedOnce s t src ∧ InSafe t n (.collector src) ∧ t.fc.conds.contains (src, k) = true)) ∧
      (count < max limit 1 ∨ vget (s.axAt n).acted false k = true → Runs i s fun t => t = s)
    acts (.clLimitReached n true) 1 (s.axAt n).lbRun (s.fld (CL_LIMIT n) Fld.CL_LIMIT_LB_T) (s.fld (CL_CFG n) Fld.CL_CFG_LB_ACT) ∧
    acts (.clLimitReached n false) 0 (s.fld (CL_STAT n) Fld.CL_STAT_VLIM_RUN) (s.fld (CL_LIMIT n) Fld.CL_LIMIT_VLIM_T)
      (s.fld (CL_CFG n) Fld.CL_CFG_VLIM_ACT) ∧
    acts (.loopSupervisionLimit n 0) 2 (s.fld (LP_RUNS n) Fld.LP_RUNS_FE_RUN) (s.fld (LP_LIMIT n) Fld.LP_LIMIT_FE_T)
      (s.fld (LP_CFG n) Fld.LP_CFG_FE_ACT) ∧
    acts (.loopSupervisionLimit n 1) 3 (s.fld (LP_RUNS n) Fld.LP_RUNS_SAT_RUN) (s.fld (LP_LIMIT n) Fld.LP_LIMIT_SAT_T)
      (s.fld (LP_CFG n) Fld.LP_CFG_SAT_ACT) ∧
    acts (.loopSupervisionLimit n 2) 4 (s.fld (LP_RUNS n) Fld.LP_RUNS_WU_RUN) (s.fld (LP_LIMIT n) Fld.LP_LIMIT_WU_T)
      (s.fld (LP_CFG n) Fld.LP_CFG_WU_ACT) ∧
    acts (.loopSupervisionLimit n 3) 5 (s.fld (LP_STAT n) Fld.LP_STAT_HOLD_RUN) (s.fld (LP_HOLD n) Fld.LP_HOLD_HOLD_T)
      (s.fld (LP_CFG n) Fld.LP_CFG_HOLD_ACT) ∧
    acts (.stallLimit n) 6 (s.fld (STP_STAT n) Fld.STP_STAT_SG_RUN) (s.fld (STP_LIMIT n) Fld.STP_LIMIT_SG_T)
      (s.fld (STP_CFG n) Fld.STP_CFG_SG_ACT)

/-- The gate supply, the bus voltage, the bootstrap and the temperature of a die (R166 to R168, R174, R175, R178, R195), outside the
continuation window. -/
def DieSupplyAndTemperatureRules : Prop :=
  ∀ (s : State) (d : Fin 12) (i : Initiator) (w : Word) (mv : BitVec 16) (code : BitVec 12) (tmp : BitVec 16) (n : Fin 48) (bst : List Nat)
    (k : Fin 4) (mvB : Nat), s.sddOn d = true → s.fc.window = false →
    let src := srcId 0x08 d
    let m := s.fld (SDD_GDS d) Fld.SDD_GDS_MODE
    let x := s.axAt n
    let safe (t : State) := ∀ a ∈ dieAxes d, InSafe t a (.collector src)
    let mask := s.fld (GATE_BOOT n) Fld.GATE_BOOT_MASK
    let mode := s.fld (SDD_GDS (n / 4)) Fld.SDD_GDS_MODE
    let low := mode = 2 ∨ mode = 3 ∧ s.flag (SDD_GDS (n / 4)) Fld.SDD_GDS_EXT_GAN = true
    let up (j : Nat) := (if low then 4600 else 9200) ≤ vgetL bst 0 j
    let all := ∀ j, j < 4 → mask.testBit j = true → up j
    let held (t : State) := ∀ a ∈ dieAxes d, (t.axAt a).held = true
    (s.pairFree i (SDD_GDS d) = true →
      ((∀ a ∈ dieAxes d, s.en a = false) → Runs (.sddGds i d w) s fun t =>
        t.reg (SDD_GDS d) = w &&& cpBits (SDD_GDS d) ∧ RegsBut s t [SDD_GDS d, SDD_STAT d] ∧ t.resp = .done ∧
        (t.flag (SDD_STAT d) Fld.SDD_STAT_VGD_OK = true ↔
          t.fld (SDD_GDS d) Fld.SDD_GDS_MODE ≠ 0 ∧ (t.vgdThr d).2 ≤ s.fld (SDD_VGD d) Fld.SDD_VGD_MV)) ∧
      ((∃ a ∈ dieAxes d, s.en a = true) → Refused (.sddGds i d w) s)) ∧
    (m ≠ 0 → mv.toNat < (s.vgdThr d).1 → (s.sddAt d).vgdSeen = true → Runs (.vgdUvlo d mv) s fun t =>
      t.flag (SDD_STAT d) Fld.SDD_STAT_VGD_OK = false ∧ t.flag (SDD_STAT d) Fld.SDD_STAT_VGD_UV = true ∧
      t.fld (SDD_VGD d) Fld.SDD_VGD_MV = mv.toNat ∧ ContainedOnce s t src ∧ t.fc.conds.contains (src, 0) = true ∧ safe t) ∧
    (m ≠ 0 → (s.vgdThr d).2 ≤ mv.toNat → Runs (.vgdUvloRelease d mv) s fun t =>
      t.flag (SDD_STAT d) Fld.SDD_STAT_VGD_OK = true ∧ t.fc.conds.contains (src, 0) = false ∧ t.ax = s.ax ∧
      RegsBut s t [SDD_STAT d, SDD_VGD d] ∧ t.fc.pend = s.fc.pend) ∧
    (m = 1 ∨ m = 2 → Runs (.regOl d) s fun t =>
      t.flag (SDD_STAT d) Fld.SDD_STAT_REG_OL = true ∧ CorrectedOnce s t ∧ t.ax = s.ax ∧ RegsFcBut s t [SDD_STAT d]) ∧
    (s.fld (SDD_THR d) Fld.SDD_THR_VBUS_OV < code.toNat → (s.sddAt d).ovOn = false → Runs (.vbusOv d code) s fun t =>
      t.flag (SDD_STAT d) Fld.SDD_STAT_VBUS_OV = true ∧ ContainedOnce s t src ∧ t.fc.conds.contains (src, 1) = true ∧ safe t) ∧
    (code.toNat ≤ s.fld (SDD_THR d) Fld.SDD_THR_VBUS_OV → Runs (.vbusOv d code) s fun t =>
      t.fld (SDD_VBUS d) Fld.SDD_VBUS_CODE = code.toNat ∧ t.fc.conds.contains (src, 1) = false ∧ t.ax = s.ax ∧ RegsBut s t [SDD_VBUS d]) ∧
    (tmp.toInt < 2240 → (s.fld (SDD_THR d) Fld.SDD_THR_TWARN : Int) * 16 < tmp.toInt → (s.sddAt d).twarnOn = false →
      Runs (.sddTempSample d tmp) s fun t => t.fld (SDD_TEMP d) Fld.SDD_TEMP_T = tmp.toNat ∧
        t.flag (SDD_STAT d) Fld.SDD_STAT_TWARN = true ∧ CorrectedOnce s t ∧ t.ax = s.ax ∧ RegsFcBut s t [SDD_TEMP d, SDD_STAT d]) ∧
    (2240 ≤ tmp.toInt → tmp.toInt < 2400 → (s.sddAt d).tsdOn = false → Runs (.sddTempSample d tmp) s fun t =>
      t.flag (SDD_STAT d) Fld.SDD_STAT_TSD = true ∧ ContainedOnce s t src ∧
      (if s.timerOn (.tsd d) = true then t.timers = s.timers else ExpiresAt t (.tsd d) (s.clock + 20 * 250000)) ∧
      t.ax = s.ax ∧ ∀ a ∈ dieAxes d, (t.queueAt a).stopCol.contains src = true) ∧
    (2400 ≤ tmp.toInt → s.timerOn (.tsd d) = true → Runs (.sddTempSample d tmp) s fun t => held t ∧ t.timerOn (.tsd d) = false) ∧
    (s.due (.tsd d) = true → Runs (.tsdTimeout d) s fun t => held t ∧ t.timerOn (.tsd d) = false ∧ t.fc = s.fc) ∧
    (s.due (.tsd d) = false → Runs (.tsdTimeout d) s fun t => t = s) ∧
    (x.pre = some 0 → Runs (.prechargeEnd n bst) s fun t =>
      (∀ j, j < 4 → ((t.fld (GATE_STAT n) Fld.GATE_STAT_BOOT_OK).testBit j = true ↔ mask.testBit j = true ∧ up j)) ∧
      t.flag (GATE_STAT n) Fld.GATE_STAT_BOOT_DONE = true ∧
      t.flag (GATE_STAT n) Fld.GATE_STAT_PRECHG_BUSY = false ∧ (t.axAt n).pre = none ∧ RegsFcBut s t [GATE_STAT n] ∧
      (all → (t.axAt n).bootHeld = x.bootHeld ∧ t.fc = s.fc) ∧
      (¬ all → (t.axAt n).bootHeld = true ∧ CorrectedOnce s t ∧ t.flag (GATE_STAT n) Fld.GATE_STAT_BOOT_FAIL = true)) ∧
    (s.extMode n = false → s.domOn (domAx n) = true →
      (mvB < (if low then 4300 else 8600) → Runs (.bootstrapUvlo n k mvB) s fun t =>
        vget (t.axAt n).bstLow false k = true ∧ t.flag (GATE_STAT n) ⟨12 + k, 12 + k⟩ = true ∧
        (x.started = true → s.en n = true → x.buvCounted = false → Counted s t (GATE_BUVCNT n) Fld.GATE_BUVCNT_COUNT) ∧
        (t.driver n k).1 = false ∧ RegsBut s t [GATE_STAT n, GATE_BUVCNT n]) ∧
      ((if low then 4300 else 8600) ≤ mvB → Runs (.bootstrapUvlo n k mvB) s fun t =>
        vget (t.axAt n).bstLow false k = false ∧ RegsBut s t []))

/-- PWM channels: limits of current and voltage, the supply and the temperature of the dies. -/
def Obligations.ChannelSupervision : Prop :=
  SupervisionLimitsRules ∧ DieSupplyAndTemperatureRules

/-- Short circuits (R183 to R185): a shunt voltage of either sign at 20 mV + THR or more, once the blanking after the last turn-on is over, latches the slots of its scope, which switch off below every lower rank, counts once
until a switch of the channel turns on again and is then a contained fault; a latch clears only with EN = 0 and 10 ms after it was set. -/
def ShortCircuitsRules : Prop :=
  ∀ (s : State) (n : Fin 48) (snp snn : List Int) (w : Word), s.fc.window = false →
    let blank (k : Nat) := ∃ c, vget (s.axAt n).onAt none k = some c ∧ c ≤ s.clock ∧ 4 * (s.clock - c) < 100 + 25 * s.fld (SC_CFG n) Fld.SC_CFG_BLANK
    let mv (k : Nat) := vgetL snp 0 k - vgetL snn 0 k
    let trips (k : Nat) := (s.fld (SC_CFG n) Fld.SC_CFG_EN).testBit k = true ∧ 20 + s.fld (SC_CFG n) Fld.SC_CFG_THR ≤ (mv k).natAbs ∧ ¬ blank k
    let scope := s.fld (GATE_CFG n) Fld.GATE_CFG_SC_SCOPE
    let latch (t : State) (m : Nat) := t.fld (SC_STAT m) Fld.SC_STAT_LATCH
    let clr := fget w Fld.SC_STAT_LATCH &&& latch s n
    let ripe := ∀ k, k < 4 → clr.testBit k = true → s.due (.scLatch n k) = true
    (s.extMode n = false → s.domOn (domAx n) = true →
      ((∃ k, k < 4 ∧ trips k) → Runs (.scTrip n snp snn) s fun t =>
        (scope = 0 → ∀ k, k < 4 → ((latch t n).testBit k = true ↔ (latch s n).testBit k = true ∨ trips k)) ∧ (1 ≤ scope → latch t n = 15) ∧
        (∀ m ∈ dieAxes (n / 4), m ≠ n → latch t m = if 2 ≤ scope then 15 else latch s m) ∧
        (∀ k, k < 4 → trips k → t.slotRank n k ≤ 2 ∧ t.driver n k = (false, false) ∧
          ((t.fld (SC_STAT n) Fld.SC_STAT_POL).testBit k = true ↔ 0 < mv k)) ∧
        ((s.axAt n).scSeen = false → Counted s t (SC_CNT n) Fld.SC_CNT_COUNT ∧ ContainedOnce s t (srcId 0x08 (n / 4))) ∧
        ((s.axAt n).scSeen = true → t.reg (SC_CNT n) = s.reg (SC_CNT n) ∧ t.fc = s.fc) ∧
        (∀ k, k < 4 → trips k → (latch s n).testBit k = false → ExpiresAt t (.scLatch n k) (s.clock + 10 * 250000))) ∧
      ((∀ k, k < 4 → ¬ trips k) → Runs (.scTrip n snp snn) s fun t => t = s)) ∧
    (s.reachable (SC_STAT n) = true → clr ≠ 0 →
      (s.en n = false → ripe → Runs (.scLatchClear n w) s fun t =>
        latch t n = latch s n &&& (15 ^^^ clr) ∧ t.resp = .done ∧ RegsOutside s t (0x4010 + n) ∧ t.fc.pend = s.fc.pend) ∧
      (s.en n = true ∨ ¬ ripe → Refused (.scLatchClear n w) s))

/-- The fourth slot (R188 to R191): the brake chopper's block gives its mean and is off in the next block after an overload; releasing a
holding brake pulls it in for PULL_T at PULL_D, then it holds at HOLD_D; engaging it turns its slot off; below rank 5 it stays engaged. -/
def FourthSlotRules : Prop :=
  ∀ (s : State) (n : Fin 48) (w : Word),
    let x := s.axAt n
    let fn := s.fld (GATE_CFG n) Fld.GATE_CFG_SLOT3_FN
    let win := s.fld (BRK_LIM n) Fld.BRK_LIM_WIN
    let past := s.fld (BRK_LIM n) Fld.BRK_LIM_AVG * 2 ^ 7 * 2 ^ win < x.brkSum
    let rel (t : State) := t.flag (HBRK_CTRL n) Fld.HBRK_CTRL_REL
    let pulls (t : State) := t.flag (HBRK_CTRL n) Fld.HBRK_CTRL_PULLING
    (fn = 1 → 2 ^ win ≤ x.brkN → Runs (.brakeBlockEnd n) s fun t =>
      t.fld (BRK_STAT n) Fld.BRK_STAT_LAST_AVG = x.brkSum / 2 ^ win / 2 ^ 7 % 2 ^ 16 ∧ (t.axAt n).brkN = 0 ∧ (t.axAt n).brkSum = 0 ∧
      ((t.axAt n).brkOff = true ↔ past) ∧ RegsFcBut s t [BRK_STAT n] ∧
      (past → t.flag (BRK_STAT n) Fld.BRK_STAT_OL = true ∧ CorrectedOnce s t ∧ t.chopperDuty n = 0) ∧ (¬ past → t.fc = s.fc)) ∧
    (fn = 1 → x.brkN < 2 ^ win → Runs (.brakeBlockEnd n) s fun t => t = s) ∧
    (s.reachable (HBRK_CTRL n) = true → fn = 2 →
      (rel s = false → s.slotRank n 3 = 5 → Runs (.hbrkRelSet n w) s fun t =>
        rel t = true ∧ pulls t = true ∧ ExpiresAt t (.pullIn n) (s.clock + s.fld (HBRK_CFG n) Fld.HBRK_CFG_PULL_T * 25000) ∧
        t.brakeDuty n = s.fld (HBRK_CFG n) Fld.HBRK_CFG_PULL_D * 2 ^ 15 ∧ RegsBut s t [HBRK_CTRL n] ∧ t.resp = .done) ∧
      (rel s = false → s.slotRank n 3 < 5 → Runs (.hbrkRelSet n w) s fun t =>
        rel t = false ∧ pulls t = false ∧ t.brakeDuty n = 0 ∧ RegsBut s t [HBRK_CTRL n, PWM_CTRL n]) ∧
      (rel s = true → Runs (.hbrkRelClear n w) s fun t =>
        rel t = false ∧ pulls t = false ∧ t.slotEn n 3 = false ∧ t.brakeDuty n = 0 ∧ t.timerOn (.pullIn n) = false ∧
        RegsOutside s t (0x4010 + n) ∧ t.resp = .done)) ∧
    (s.due (.pullIn n) = true → Runs (.pullInEnd n) s fun t =>
      pulls t = false ∧ rel t = rel s ∧ (rel s = true → t.brakeDuty n = s.fld (HBRK_CFG n) Fld.HBRK_CFG_HOLD_D * 2 ^ 15) ∧
      RegsBut s t [HBRK_CTRL n]) ∧
    (s.due (.pullIn n) = false → Runs (.pullInEnd n) s fun t => t = s)

/-- PWM channels: short circuits and the fourth slot of a die. -/
def Obligations.ChannelPower : Prop :=
  ShortCircuitsRules ∧ FourthSlotRules

/-- The chopper of a stepper phase (R266, R267, R269): DRIVE ends at HI once TON_MIN has elapsed, in the decay that STP_CFG names; a
decay ends at LO once TOFF_MIN has elapsed, while the code is not 0 and no precharge or failed check of it holds the phase (R174); fast decay turns slow at current 0, in mixed decay after TFAST. -/
def ChopperPhasesRules : Prop :=
  ∀ (s : State) (n : Fin 48) (b : Bool),
    let f := phaseFld b
    let c := s.chop n b
    let ns := 4 * (s.clock - vget (s.axAt n).chopAt 0 (b2n b))
    let tfast := s.fld (STP_CHOP n) Fld.STP_CHOP_TFAST
    let decay := match s.fld (STP_CFG n) Fld.STP_CFG_DECAY with
      | 0 => 3
      | 1 => 2
      | _ => if tfast = 0 then 3 else 2
    let goes (i : Instr) (code : Nat) := Runs i s fun t => t.fld (STP_STATE n) f = code ∧ RegsBut s t [STP_STATE n] ∧
      t.chop n (!b) = s.chop n (!b) ∧ t.fc = s.fc ∧ (c = 1 ∨ code = 1 → vget (t.axAt n).chopAt 0 (b2n b) = s.clock)
    let ton := 100 + 25 * s.fld (STP_CHOP n) Fld.STP_CHOP_TON_MIN ≤ ns
    let toff := 125 * s.fld (STP_CHOP n) Fld.STP_CHOP_TOFF_MIN ≤ ns
    let idle (i : Instr) := Runs i s fun t => t = s
    (c = 1 → ton → goes (.chopperHi n b) decay ∧ goes (.tonMinExpiry n b) decay) ∧
    (c ≠ 1 ∨ ¬ ton → idle (.chopperHi n b) ∧ idle (.tonMinExpiry n b)) ∧
    (2 ≤ c → toff → s.chopCode n b ≠ 0 → s.bootHolds n b = false → goes (.chopperLo n b) 1 ∧ goes (.toffMinExpiry n b) 1) ∧
    (c < 2 ∨ ¬ toff ∨ s.chopCode n b = 0 ∨ s.bootHolds n b = true → idle (.chopperLo n b) ∧ idle (.toffMinExpiry n b)) ∧
    (c = 2 → goes (.chopperZero n b) 3) ∧ (c ≠ 2 → idle (.chopperZero n b)) ∧
    (c = 2 → 2 ≤ s.fld (STP_CFG n) Fld.STP_CFG_DECAY → 125 * tfast ≤ ns → goes (.tfastEnd n b) 3) ∧
    (c ≠ 2 ∨ ns < 125 * tfast → idle (.tfastEnd n b))

/-- PWM channels: bursts, calibration, chopper phases. -/
def Obligations.ChannelMeasurement : Prop :=
  BurstsAndCalibrationRules ∧ ChopperPhasesRules

/-! ## Encoder ports -/

/-- Counting (R281 to R284, R287, R293, R294): a step up or down the sequence 00, 10, 11, 01 changes COUNT by one, in the other direction
with INV; a step over two is illegal and counts nothing; Z stores COUNT; a Hall sector step counts in the Hall mode; the sampling
instant gives position and electrical angle; a read of COUNT latches its upper half for the initiator. -/
def Obligations.EncoderCounting : Prop :=
  ∀ (s : State) (n : Fin 48) (ab : BitVec 2) (h : BitVec 3) (stamp : W64) (i : Initiator) (a b : Nat), s.fbOn n = true →
    let x := s.fbAt n
    let m := s.fbMode n
    let inv := s.flag (FB_CFG n) Fld.FB_CFG_INV
    let up := x.count + 1
    let dn := x.count - 1
    let count (t : State) := (t.fbAt n).count
    let step (t : State) (c : W64) := count t = c ∧ t.fc = s.fc ∧ MemSame s t
    let cpr := max 1 (s.reg (FB_CPR n)).toNat
    let res := (x.count.toInt % (cpr : Int)).toNat
    let angle := res * s.fld (FB_EL n) Fld.FB_EL_PP % cpr * 2 ^ 24 / cpr
    (m = 1 ∨ m = 2 →
      (quadPlace ab = (quadPlace x.ab + 1) % 4 → Runs (.encoderEdge n ab stamp) s fun t =>
        step t (if inv then dn else up) ∧ (t.fbAt n).ab = ab ∧ RegsBut s t [FB_STAT n]) ∧
      (quadPlace x.ab = (quadPlace ab + 1) % 4 → Runs (.encoderEdge n ab stamp) s fun t =>
        step t (if inv then up else dn) ∧ (t.fbAt n).ab = ab ∧ RegsBut s t [FB_STAT n]) ∧
      (quadPlace ab = (quadPlace x.ab + 2) % 4 → s.fld (FB_LIM n) Fld.FB_LIM_ILL_MAX = 0 → Runs (.encoderEdge n ab stamp) s fun t =>
        step t x.count ∧ t.flag (FB_STAT n) Fld.FB_STAT_ILL_S = true ∧ Counted s t (FB_ERRCNT n) Fld.FB_ERRCNT_ILL ∧ (t.fbAt n).ill = true ∧
        RegsBut s t [FB_STAT n, FB_ERRCNT n]) ∧
      (ab = x.ab → Runs (.encoderEdge n ab stamp) s fun t => t = s) ∧
      (s.flag (FB_CFG n) Fld.FB_CFG_ZQ_EN = false ∨ x.ab.toNat = s.fld (FB_CFG n) Fld.FB_CFG_ZQ → Runs (.indexEvent n) s fun t =>
        t.reg (FB_ZCNT n) = x.count.setWidth 32 ∧ t.flag (FB_STAT n) Fld.FB_STAT_ZSEEN = true ∧ RegsBut s t [FB_ZCNT n, FB_STAT n] ∧
        step t x.count) ∧
      (s.flag (FB_CFG n) Fld.FB_CFG_ZQ_EN = true → x.ab.toNat ≠ s.fld (FB_CFG n) Fld.FB_CFG_ZQ → Runs (.indexEvent n) s fun t => t = s)) ∧
    (x.hall ≠ h →
      (m = 2 → Runs (.hallChange n h stamp) s fun t =>
        step t x.count ∧ (t.fbAt n).hall = h ∧ t.fld (FB_ANG n) Fld.FB_ANG_HSTATE = h.toNat ∧ RegsBut s t [FB_ANG n]) ∧
      (m = 3 → s.sector n x.hall = some a → s.sector n h = some b → b = (a + 1) % 6 → Runs (.hallChange n h stamp) s fun t =>
        step t (if inv then dn else up) ∧ (t.fbAt n).hall = h ∧ RegsBut s t [FB_ANG n, FB_STAT n]) ∧
      (m = 3 → s.sector n x.hall = some a → s.sector n h = some b → a = (b + 1) % 6 → Runs (.hallChange n h stamp) s fun t =>
        step t (if inv then up else dn) ∧ (t.fbAt n).hall = h ∧ RegsBut s t [FB_ANG n, FB_STAT n])) ∧
    (m = 1 ∨ m = 2 → s.flag (FB_CFG n) Fld.FB_CFG_INTERP = false → s.flag (FB_CFG n) Fld.FB_CFG_ASRC = false → x.forced = none →
      x.conds = [] → s.flag (FB_STAT n) Fld.FB_STAT_WAIT = false → Runs (.encoderSamplingInstant n) s fun t =>
        (t.fbAt n).out.pos = some ((x.count + x.ofs) <<< 32) ∧ (t.fbAt n).out.angle = some (BitVec.ofNat 24 angle) ∧
        t.fld (FB_ANG n) Fld.FB_ANG_ANGLE = angle ∧ step t x.count ∧ RegsBut s t [FB_STAT n, FB_ANG n]) ∧
    (m ≠ 0 → x.conds ≠ [] ∨ s.flag (FB_STAT n) Fld.FB_STAT_WAIT = true → Runs (.encoderSamplingInstant n) s fun t =>
      (t.fbAt n).out = { angle := x.forced } ∧ step t x.count) ∧
    (Runs (.fbCountLo i n) s fun t => t.resp = .data (x.count.setWidth 32) ∧ RegsBut s t [] ∧ t.fb = s.fb ∧
      Tbl.get 0 t.hiLatch (2 ^ 32 * initNo i + FB_COUNT_HI n) = (x.count >>> 32).setWidth 32)

/-- Serial frames and port faults (R279, R288 to R292, R295 to R297) outside the continuation window: a good frame moves COUNT by the
signed change of its data, a bad one is discarded and counted; a persisted cable condition sets FAULT, ends an alignment and takes the
action of FBF_ACT once; with the last condition gone FAULT clears and the port waits for RESUME unless AUTO_RES; a write of MODE
restarts the port, and is refused while the channel is enabled or aligns. -/
def EncoderFramesAndFaultsRules : Prop :=
  ∀ (s : State) (n : Fin 48) (f : SerialFrame) (u : Nat) (c : CableCond) (pairs : BitVec 3) (w : Word), s.fbOn n = true →
    s.fc.window = false →
    let x := s.fbAt n
    let m := s.fbMode n
    let len := s.fld (FB_SER n) Fld.FB_SER_LEN
    let v := f.data.toNat % 2 ^ len
    let d := sxt len (v + 2 ^ len - x.data.getD 0 % 2 ^ len)
    let below := x.bad + 1 < s.fld (FB_SER2 n) Fld.FB_SER2_SER_T
    let discarded (t : State) := (t.fbAt n).frame = none ∧ (t.fbAt n).bad = x.bad + 1 ∧ (t.fbAt n).count = x.count ∧ t.fc = s.fc ∧
      t.flag (FB_STAT n) Fld.FB_STAT_SER = true ∧ Counted s t (FB_ERRCNT n) Fld.FB_ERRCNT_SER ∧ RegsBut s t [FB_STAT n, FB_ERRCNT n]
    let src := srcId 0x0A n
    let act := s.fld (FB_CFG n) Fld.FB_CFG_FBF_ACT
    let k := condNo c
    (m = 4 ∨ m = 5 → s.tt.flightNo % (s.fld (FB_SER n) Fld.FB_SER_EVM1 + 1) = 0 →
      (x.frame = none → x.endAt = 0 ∨ x.endAt + s.fld (FB_SER2 n) Fld.FB_SER2_TM * 250 ≤ s.clock → Runs (.serialFrameStart n) s fun t =>
        (t.fbAt n).frame = some (s.fbInstant n) ∧ (t.fbAt n).count = x.count ∧ RegsBut s t [] ∧ t.fc = s.fc) ∧
      (x.frame = some u → below → Runs (.serialFrameStart n) s discarded)) ∧
    (m = 4 → s.flag (FB_SER n) Fld.FB_SER_GRAY = false → x.frame = some u →
      (f.idle = true → x.data = none → Runs (.serialFrameEnd n f) s fun t =>
        (t.fbAt n).count = BitVec.ofNat 64 v ∧ (t.fbAt n).data = some v ∧ (t.fbAt n).frame = none ∧ RegsBut s t [] ∧ t.fc = s.fc) ∧
      (f.idle = true → x.data ≠ none → d.natAbs ≤ (s.reg (FB_JMAX n)).toNat → Runs (.serialFrameEnd n f) s fun t =>
        (t.fbAt n).count = x.count + BitVec.ofInt 64 d ∧ (t.fbAt n).data = some v ∧ (t.fbAt n).bad = 0 ∧ RegsBut s t [] ∧ t.fc = s.fc) ∧
      (f.idle = false → below → Runs (.serialFrameEnd n f) s discarded)) ∧
    (m = 5 → x.frame = some u → below → f.preamble = false ∨ f.err = true ∨ f.check.toNat ≠ crc8 len v f.err f.wrn →
      Runs (.serialFrameEnd n f) s discarded) ∧
    (c = .loss ∨ c = .eq ∨ c = .cm → pairs.toNat &&& s.fbPairs n ≠ 0 → x.conds = [] → Runs (.cableFault n c pairs) s fun t =>
      t.flag (FB_STAT n) Fld.FB_STAT_FAULT = true ∧ (t.fbAt n).conds = [k] ∧ (t.fbAt n).count = x.count ∧ (t.fbAt n).forced = (if x.al = .idle then x.forced else none) ∧
      (m = 1 → t.flag (FB_STAT n) Fld.FB_STAT_SUSPECT = true) ∧
      (act = 0 → t.fc = s.fc) ∧ (act = 1 → CorrectedOnce s t) ∧
      (act = 2 → ContainedOnce s t src ∧ t.fc.conds.contains (src, k) = true ∧ (t.queueAt n).stopSup.contains src = true) ∧
      (act = 3 → ContainedOnce s t src ∧ t.fc.conds.contains (src, k) = true ∧ InSafe t n (.collector src))) ∧
    (x.conds = [k] → Runs (.faultClear n c) s fun t =>
      t.flag (FB_STAT n) Fld.FB_STAT_FAULT = false ∧ (t.fbAt n).conds = [] ∧ t.fc.conds.contains (src, k) = false ∧
      (s.flag (FB_CFG n) Fld.FB_CFG_AUTO_RES = false → t.flag (FB_STAT n) Fld.FB_STAT_WAIT = true) ∧ t.fc.pend = s.fc.pend) ∧
    (s.reachable (FB_CFG n) = true →
      (s.en n = true ∨ x.al ≠ .idle ∨ 6 ≤ fget w Fld.FB_CFG_MODE → Refused (.fbModeWrite n w) s) ∧
      (s.en n = false → x.al = .idle → fget w Fld.FB_CFG_MODE < 6 → Runs (.fbModeWrite n w) s fun t =>
        t.fbMode n = fget w Fld.FB_CFG_MODE ∧ (t.fbAt n).count = 0 ∧ (t.fbAt n).conds = [] ∧ (t.fbAt n).ofs = x.ofs ∧
        t.flag (FB_STAT n) Fld.FB_STAT_FAULT = false ∧ t.flag (FB_STAT n) Fld.FB_STAT_WAIT = false ∧ t.resp = .done ∧ t.fc.pend = s.fc.pend)) ∧
    (s.reachable (FB_CTRL n) = true → w = 0 →
      (s.flag (FB_STAT n) Fld.FB_STAT_FAULT = true → Runs (.resume n w) s fun t => t = { s with resp := .busError }) ∧
      (s.flag (FB_STAT n) Fld.FB_STAT_FAULT = false → Runs (.resume n w) s fun t =>
        t.flag (FB_STAT n) Fld.FB_STAT_WAIT = false ∧ t.fb = s.fb ∧ t.fc = s.fc ∧ t.resp = .done))

/-- The alignment (R300, R301): REST, ARMED with the angle forced to 0, SETTLE_0, SETTLE_1 with a quarter turn, HOLDING with θ or a code;
every code as the rule gives it, and the forced angle released only by AL_END or an end from REST. -/
def EncoderAlignmentRules : Prop :=
  ∀ (s : State) (n : Fin 48) (w : Word), s.reachable (FB_CTRL n) = true → w = 0 →
    let x := s.fbAt n
    let m := s.fbMode n
    let al (t : State) := ((t.fbAt n).al, t.fld (FB_ALSTAT n) Fld.FB_ALSTAT_CODE)
    let forced (t : State) := ((t.fbAt n).forced, t.flag (FB_ANG n) Fld.FB_ANG_FORCED)
    let near (t : State) := RegsOutside s t (0x4010 + n) ∧ t.fc = s.fc ∧ (t.fbAt n).count = x.count
    let may := (m = 1 ∨ m = 2 ∨ m = 4 ∨ m = 5) ∧ s.flag (FB_CFG n) Fld.FB_CFG_ASRC = false ∧ s.en n = true ∧
      s.flag (FB_STAT n) Fld.FB_STAT_FAULT = false ∧ s.flag (FB_STAT n) Fld.FB_STAT_WAIT = false ∧ s.flag (FB_STAT n) Fld.FB_STAT_SUSPECT = false
    let d := (s.angleNow n - x.thm1).toInt - 4194304
    (x.al = .idle → may → Runs (.alStart n w) s fun t => al t = (.rest, 1) ∧ ExpiresAt t (.alRest n) (s.clock + s.restTicks n) ∧ near t) ∧
    (x.al = .idle → ¬ may → Runs (.alStart n w) s fun t => al t = (.idle, 0x10) ∧ near t) ∧
    (x.al = .armed → Runs (.alGo n w) s fun t => al t = (.settle0, 4) ∧ ExpiresAt t (.alSettle n) (s.clock + s.settleTicks n) ∧ near t) ∧
    (x.al ≠ .armed → Runs (.alGo n w) s fun t => t = { s with resp := .done }) ∧
    (x.al = .holding → Runs (.alEnd n w) s fun t => (t.fbAt n).al = .idle ∧ forced t = (none, false) ∧ near t ∧
      t.reg (FB_ALSTAT n) = s.reg (FB_ALSTAT n)) ∧
    (x.al = .rest → Runs (.alAbort n w) s fun t => al t = (.idle, 0x14) ∧ forced t = (none, false) ∧ near t) ∧
    (x.al = .armed ∨ x.al = .settle0 ∨ x.al = .settle1 → Runs (.alAbort n w) s fun t =>
      al t = (.holding, 0x14) ∧ forced t = forced s ∧ near t) ∧
    (s.due (.alRest n) = true → x.al = .rest →
      (s.atRest n = true → Runs (.alignRestEnd n) s fun t => al t = (.armed, 2) ∧ forced t = (some 0, true) ∧ near t) ∧
      (s.atRest n = false → Runs (.alignRestEnd n) s fun t => al t = (.idle, 0x11) ∧ forced t = (none, false) ∧ near t)) ∧
    (s.due (.alSettle n) = true →
      (x.al = .settle0 ∨ x.al = .settle1 → s.atRest n = false → Runs (.alignSettleEnd n) s fun t =>
        al t = (.holding, 0x12) ∧ forced t = forced s ∧ near t) ∧
      (x.al = .settle0 → s.atRest n = true → Runs (.alignSettleEnd n) s fun t =>
        al t = (.settle1, 5) ∧ forced t = (some 0x400000, true) ∧ (t.fbAt n).thm1 = s.angleNow n ∧
        ExpiresAt t (.alSettle n) (s.clock + s.settleTicks n) ∧ near t) ∧
      (x.al = .settle1 → s.atRest n = true → s.fld (FB_ALCFG n) Fld.FB_ALCFG_TOL * 65536 < d.natAbs → Runs (.alignSettleEnd n) s fun t =>
        al t = (.holding, 0x13) ∧ near t) ∧
      (x.al = .settle1 → s.atRest n = true → d.natAbs ≤ s.fld (FB_ALCFG n) Fld.FB_ALCFG_TOL * 65536 → Runs (.alignSettleEnd n) s fun t =>
        al t = (.holding, 3) ∧ t.fld (FB_ALSTAT n) Fld.FB_ALSTAT_THETA = wrap 24 (-(x.thm1.toNat : Int) + (-d) / 2) ∧ near t)) ∧
    (s.due (.alRest n) = false → Runs (.alignRestEnd n) s fun t => t = s) ∧
    (s.due (.alSettle n) = false → Runs (.alignSettleEnd n) s fun t => t = s)

/-- Encoder ports: frames, faults, alignment. -/
def Obligations.EncoderPorts : Prop :=
  EncoderFramesAndFaultsRules ∧ EncoderAlignmentRules

/-! ## Print triggers, encoder emulation, latches, delay lines -/

/-- Triggers (R306 to R312, R314): an append at the tail and its limit; FLUSH only while EN is 0; EN = 1 in its modes and with its
checks; EN cleared cancels the pulses that have not started, whose entries return to the head; the leading and the trailing edge of a
pulse; every pulse that a window computation adds starts in the next window, at most 128 of them, and an invalid source adds none. -/
def TriggerOutputsRules : Prop :=
  ∀ (s : State) (n : Fin 16) (w : Word) (p : PsPulse) (l : List PsPulse) (e : Int) (routes : List PsRoute),
    let x := s.trgAt n
    let stat := TRG_STAT n
    let cfg := TRG_CFG n
    let near (t : State) (r : List Nat) := RegsBut s t r ∧ t.fc = s.fc ∧ MemSame s t
    let width := s.fld (TRG_WIDTH n) Fld.TRG_WIDTH_WIDTH
    let pitch := (s.pair64 (TRG_PITCH_LO n) (TRG_PITCH_HI n)).toInt
    let good := srcExists s.part (fget w Fld.TRG_CFG_SRC) = true ∧ (2 ≤ width ∧ width ≤ 250000) ∧ s.flag PS_STAT Fld.PS_STAT_CAL_DONE = true ∧
      (fget w Fld.TRG_CFG_MODE = 1 → pitch ≠ 0 ∧ (fget w Fld.TRG_CFG_DIR = 0 → 0 < pitch) ∧ (fget w Fld.TRG_CFG_DIR = 1 → pitch < 0))
    let w0 := s.boundaryOf (s.tt.flightNo + 1)
    let w1 := s.boundaryOf (s.tt.flightNo + 2)
    (s.reachable (TRG_LDATA_HI n) = true →
      (x.ring.length < 4096 → Runs (.trgAppend n w) s fun t => (t.trgAt n).ring = x.ring ++ [w ++ x.lo] ∧ t.resp = .done ∧
        t.fld (TRG_LIST n) Fld.TRG_LIST_LEVEL = x.ring.length + 1 ∧ near t [TRG_LIST n]) ∧
      (4096 ≤ x.ring.length → Runs (.trgAppend n w) s fun t => (t.trgAt n).ring = x.ring ∧ t.resp = .busError ∧
        t.flag stat Fld.TRG_STAT_FULL = true ∧ near t [stat])) ∧
    (s.reachable (TRG_LIST n) = true → fget w Fld.TRG_LIST_FLUSH = 1 →
      (s.trgOn n = false → Runs (.trgFlush n w) s fun t => (t.trgAt n).ring = [] ∧ t.resp = .done ∧
        t.fld (TRG_LIST n) Fld.TRG_LIST_LEVEL = 0 ∧ near t [TRG_LIST n]) ∧
      (s.trgOn n = true → Runs (.trgFlush n w) s fun t => t = { s with resp := .busError })) ∧
    (s.reachable cfg = true →
      (s.trgOn n = true → Refused (.trgEnSet n w) s) ∧
      (s.trgOn n = false → s.mode ≠ .commission → s.mode ≠ .run → s.mode ≠ .degraded → Runs (.trgEnSet n w) s fun t => t = { s with resp := .busError }) ∧
      (s.trgOn n = false → s.mode = .commission ∨ s.mode = .run ∨ s.mode = .degraded →
        (¬ good → Runs (.trgEnSet n w) s fun t => t.trgOn n = false ∧ t.flag stat Fld.TRG_STAT_CFG_ERR = true ∧ t.resp = .busError ∧
          t.psync = s.psync ∧ near t [stat]) ∧
        (good → Runs (.trgEnSet n w) s fun t => t.trgOn n = true ∧ t.fld cfg ⟨13, 8⟩ = fget w ⟨13, 8⟩ ∧ t.fld cfg ⟨4, 1⟩ = fget w ⟨4, 1⟩ ∧
          (t.trgAt n).k = 0 ∧ (t.trgAt n).ring = x.ring ∧ t.resp = .done ∧ near t [cfg])) ∧
      (s.trgOn n = true → srcExists s.part (fget w Fld.TRG_CFG_SRC) = true → Runs (.trgEnClear n w) s fun t =>
        t.trgOn n = false ∧ (t.trgAt n).sched = [] ∧ (t.trgAt n).act = x.act ∧ t.flag stat Fld.TRG_STAT_DONE = false ∧
        (s.flag cfg Fld.TRG_CFG_MODE = false → (t.trgAt n).ring = x.sched.map PsPulse.entry ++ x.ring) ∧
        (s.flag cfg Fld.TRG_CFG_MODE = true → (t.trgAt n).back = x.sched.map PsPulse.entry ++ x.back ∧ (t.trgAt n).k = x.k) ∧
        t.resp = .done ∧ near t [cfg, stat, TRG_LIST n])) ∧
    (x.sched = p :: l → s.psOn = true → Runs (.triggerPulseStart n) s fun t =>
      (t.trgAt n).sched = l ∧ (t.trgAt n).act = some (p.start + width * 64) ∧ t.flag stat Fld.TRG_STAT_ACTIVE = true ∧
      Counted s t (TRG_FIRED n) Fld.TRG_FIRED_COUNT ∧
      (p.late = true → t.flag stat Fld.TRG_STAT_LATE = true ∧ Counted s t (TRG_ERRCNT n) Fld.TRG_ERRCNT_LATE) ∧
      (p.late = false → t.reg (TRG_ERRCNT n) = s.reg (TRG_ERRCNT n)) ∧ near t [stat, TRG_FIRED n, TRG_ERRCNT n]) ∧
    (x.act = some e → Runs (.triggerPulseEnd n) s fun t =>
      (t.trgAt n).act = none ∧ t.flag stat Fld.TRG_STAT_ACTIVE = false ∧ (t.trgAt n).sched = x.sched ∧ near t [stat]) ∧
    (s.psOn = true → Runs (.psyncWindowCompute routes) s fun t =>
      (∀ k : Fin 16, let old := (s.trgAt k).sched
        let new := (t.trgAt k).sched.drop old.length
        (t.trgAt k).sched = old ++ new ∧ new.length ≤ 128 ∧ (∀ q ∈ new, w0 ≤ q.start ∧ q.start < w1) ∧
        (s.trgOn k = false → t.trgAt k = s.trgAt k) ∧
        (s.trgOn k = true → (∀ r ∈ routes, r.src.val = s.fld (TRG_CFG k) Fld.TRG_CFG_SRC → s.modelOf r = none) →
          t.trgAt k = s.trgAt k ∧ t.flag (TRG_STAT k) Fld.TRG_STAT_HOLD = true)) ∧
      RegsOutside s t 0x4009 ∧ t.fc = s.fc)

/-- Encoder emulation (R315 to R318): EN records C0 with its checks and keeps the levels; a step moves C by one toward Y, changes A or B by
one place of the sequence, never less than 20 ns after the edge before, and Z with it. -/
def EncoderEmulationRules : Prop :=
  ∀ (s : State) (e : Fin 8) (w : Word) (m : PsModel) (u t0 : Int),
    let x := s.emuAt e
    let near (t : State) (r : List Nat) := RegsBut s t r ∧ t.fc = s.fc ∧ MemSame s t
    let good := srcExists s.part (fget w Fld.EMU_CFG_SRC) = true ∧ s.reg (EMU_DEN e) ≠ 0 ∧ s.flag PS_STAT Fld.PS_STAT_CAL_DONE = true
    let w0 := s.boundaryOf s.tt.flightNo
    let lo : Int := ((x.last.map fun l => if w0 < l + 320 then l + 320 else w0).getD w0)
    let up : Bool := decide (x.c < s.emuTarget e m u t0)
    let c := if up then x.c + 1 else x.c - 1
    let per := s.fld (EMU_Z e) Fld.EMU_Z_ZPER
    (s.reachable (EMU_CFG e) = true →
      (s.emuOn e = true → Refused (.emuEnSet e w) s) ∧
      (s.emuOn e = false → ¬ good → Runs (.emuEnSet e w) s fun t => t.emuOn e = false ∧ t.resp = .busError ∧
        t.flag (EMU_STAT e) Fld.EMU_STAT_CFG_ERR = true ∧ t.psync = s.psync ∧ near t [EMU_STAT e]) ∧
      (s.emuOn e = false → good → Runs (.emuEnSet e w) s fun t => t.emuOn e = true ∧ t.resp = .done ∧
        (t.emuAt e).c0 = x.c ∧ (t.emuAt e).c = x.c ∧ (t.emuAt e).ab = x.ab ∧ (t.emuAt e).z = x.z ∧ (t.emuAt e).org = none ∧ near t [EMU_CFG e])) ∧
    (s.psOn = true → s.emuOn e = true → x.cur = some (m, u) → s.emuNext e m u lo (s.boundaryOf (s.tt.flightNo + 1)) = some t0 →
      Runs (.emuStep e) s fun t =>
        (t.emuAt e).c = c ∧ t.reg (EMU_CNT e) = BitVec.ofInt 32 c ∧
        quadPlace (t.emuAt e).ab = (quadPlace x.ab + if up != s.flag (EMU_CFG e) Fld.EMU_CFG_INV then 1 else 3) % 4 ∧
        ((t.emuAt e).z = true ↔ per ≠ 0 ∧ (c - s.fld (EMU_Z e) Fld.EMU_Z_ZPOS) % (per : Int) = 0) ∧
        (∀ l, x.last = some l → ∀ q, (t.emuAt e).last = some q → l + 320 ≤ q) ∧
        (s.tapsOff (.emu e) = false → (t.emuAt e).last = some t0) ∧
        (t.emuAt e).c0 = x.c0 ∧ near t [EMU_CNT e])

/-- Print synchronisation: trigger outputs and encoder emulation. -/
def Obligations.PrintOutputs : Prop :=
  TriggerOutputsRules ∧ EncoderEmulationRules

/-- Latches, interval units and delay lines (R319 to R328, R330): an accepted event waits with its stamp and positions, corrects the
registration, and starts or stops the units; a complete event, its local positions with every edge up to its stamp, enters the FIFO or
is lost; POP moves the oldest to the read buffer; a
result is removed by its read, but not by a read through JTAG; a calibration, a line that fails it, and a background swap. -/
def Obligations.LatchesAndDelayLines : Prop :=
  ∀ (s : State) (n : Fin 16) (falling : Bool) (stamp : W64) (xr : W64) (m : Fin 8) (a : Nat) (w : Word) (i : Initiator) (e : LatEvt)
    (l : List LatEvt) (dl : DelayLine) (el : Nat), s.psOn = true → s.fc.window = false →
    let x := s.latAt n
    let cfg := s.reg (LAT_CFG n)
    let tl := if s.tapsOff (.lat n) then stamp.toNat / 64 * 64 else stamp.toNat
    let mask := (s.pair64 (LAT_MASK_LO n) (LAT_MASK_HI n)).toNat
    let mp := (s.pair64 (LAT_MP_LO n) (LAT_MP_HI n)).toInt
    let d := (xr - s.pair64 (LAT_MO_LO n) (LAT_MO_HI n)).toInt
    let c := (2 * d + mp) / (2 * mp) * mp - d
    let v := wrap 48 (clampI (-(2 ^ 47)) (2 ^ 47 - 1) c)
    let tc := s.reg (TIM_CFG m)
    let u := s.timAt m
    let stops := fget tc Fld.TIM_CFG_EN = 1 ∧ fget tc Fld.TIM_CFG_STP = n.val ∧ fget tc Fld.TIM_CFG_STP_EDGE = b2n falling
    let starts := fget tc Fld.TIM_CFG_EN = 1 ∧ fget tc Fld.TIM_CFG_STA = n.val ∧ fget tc Fld.TIM_CFG_STA_EDGE = b2n falling
    let res (t : State) (r : TimRes) (q : Option Nat) := (t.timAt m).fifo = u.fifo ++ [r] ∧ (t.timAt m).start = q
    let failed (t : State) := t.flag PS_STAT Fld.PS_STAT_CAL_FAIL = true ∧ ContainedOnce s t psSrc ∧ t.psync.coarse.contains dl = true ∧
      (∀ k : Fin 48, dl = .enc k → t.flag (tdcReg k) Fld.EN_GSTAT_TDC_OK = false)
    let buf := latBuf n
    let pos := e.pos.map fun q => (q.1, if q.1 < 48 then (s.axisPosAt q.1 e.stamp).getD q.2 else q.2)
    let round := if s.psync.round.contains dl then s.psync.round else s.psync.round ++ [dl]
    (Runs (.latchEvent n falling stamp) s fun t =>
      let took := fget cfg Fld.LAT_CFG_EN = 1 ∧ (fget cfg Fld.LAT_CFG_EDGE = 0 → falling = false) ∧ (fget cfg Fld.LAT_CFG_EDGE = 1 → falling = true)
      let drop := decide (64 ≤ x.fifo.length + (x.busy.filter (!·.drop)).length)
      let pos := (List.range 64).filterMap fun k => if mask.testBit k then (s.posAt k tl).map fun p => (k, p) else none
      (took → (t.latAt n).busy = x.busy ++
        [{ stamp := tl, falling := falling, seq := x.seq, step := s.psync.stepIn.any fun w => decide (w.1 ≤ tl ∧ tl < w.2), drop := drop, pos := pos }]) ∧
      (¬ took → t.latAt n = x) ∧
      (took → fget cfg Fld.LAT_CFG_REG_EN = 1 →
        (s.posAt (fget cfg Fld.LAT_CFG_REF) tl = none → t.flag (LAT_STAT n) Fld.LAT_STAT_REFINV = true ∧
          t.reg (LAT_CORR_LO n) = s.reg (LAT_CORR_LO n) ∧ t.reg (LAT_CORR_HI n) = s.reg (LAT_CORR_HI n)) ∧
        (s.posAt (fget cfg Fld.LAT_CFG_REF) tl = some xr → 0 < mp →
          t.reg (LAT_CORR_LO n) = BitVec.ofNat 32 v ∧ t.fld (LAT_CORR_HI n) Fld.LAT_CORR_HI_C = v / 2 ^ 32 ∧
          t.fld (LAT_CORR_HI n) Fld.LAT_CORR_HI_EVT = (s.fld (LAT_CORR_HI n) Fld.LAT_CORR_HI_EVT + 1) % 256 ∧
          (c < -(2 ^ 47) ∨ 2 ^ 47 ≤ c → t.flag (LAT_STAT n) Fld.LAT_STAT_CSAT = true))) ∧
      (starts → (t.timAt m).start = some tl ∧ (¬ stops → u.start ≠ none → t.flag (TIM_RSTAT m) Fld.TIM_RSTAT_REPL_S = true)) ∧
      (stops → ¬ starts →
        (u.start = none → t.timAt m = u ∧ t.flag (TIM_RSTAT m) Fld.TIM_RSTAT_NOSTART_S = true) ∧
        (u.start = some a → u.fifo.length < 16 →
          (tl < a → res t { val := 0, ord := true } (some a)) ∧
          (tl = a → res t { val := 0, coin := true } none) ∧
          (a < tl → tl - a < 2 ^ 32 → res t { val := BitVec.ofNat 32 (tl - a) } none) ∧
          (a < tl → 2 ^ 32 ≤ tl - a → res t { val := 0xFFFFFFFF, sat := true } none)) ∧
        (u.start = some a → 16 ≤ u.fifo.length → (t.timAt m).fifo = u.fifo ∧ t.flag (TIM_RSTAT m) Fld.TIM_RSTAT_OVF = true)) ∧
      (¬ starts → ¬ stops → t.timAt m = u) ∧ RegsOutside s t 0x4009 ∧ t.fc = s.fc) ∧
    (x.busy = e :: l →
      (e.drop = true → Runs (.latchPositionsComplete n) s fun t => (t.latAt n).busy = l ∧ (t.latAt n).fifo = x.fifo ∧
        t.flag (LAT_STAT n) Fld.LAT_STAT_OVF = true ∧ Counted s t (LAT_STAT n) Fld.LAT_STAT_LOST ∧ (t.latAt n).loss = true ∧ RegsBut s t [LAT_STAT n]) ∧
      (e.drop = false → x.fifo.length < 64 → Runs (.latchPositionsComplete n) s fun t => (t.latAt n).busy = l ∧
        (t.latAt n).fifo = x.fifo ++ [{ e with loss := x.loss, pos := pos }] ∧ (t.latAt n).loss = false ∧
        t.fld (LAT_STAT n) Fld.LAT_STAT_LEVEL = x.fifo.length + 1 ∧ RegsBut s t [LAT_STAT n])) ∧
    (s.reachable (LAT_STAT n) = true →
      (x.fifo = e :: l → fget w Fld.LAT_STAT_POP = 1 → Runs (.latchPop n w) s fun t => (t.latAt n).fifo = l ∧
        t.reg buf = BitVec.ofNat 32 e.stamp ∧ t.reg (buf + 4) = BitVec.ofNat 32 (e.stamp / 2 ^ 32) ∧
        t.reg (buf + 8) = BitVec.ofNat 32 (e.seq + 2 ^ 16 * b2n e.falling + 2 ^ 17 * b2n e.loss + 2 ^ 18 * b2n e.step) ∧
        (∀ k : Fin 64, let p : W64 := ((e.pos.find? (·.1 == k.val)).map fun q => q.2).getD 0
          t.reg (buf + 0x200 + 8 * k) = p.setWidth 32 ∧ t.reg (buf + 0x204 + 8 * k) = (p >>> 32).setWidth 32) ∧
        RegsOutside s t 0x4009 ∧ t.fc = s.fc) ∧
      (x.fifo = [] → w = 0x80000000 → Runs (.latchPop n w) s fun t => RegsBut s t [] ∧ t.psync = s.psync ∧ t.resp = .done)) ∧
    (Runs (.timResRead i m) s fun t => t.resp = .data (s.reg (TIM_RES m)) ∧
      (i ≠ .jtag → (t.timAt m).fifo = u.fifo.drop 1) ∧ (i = .jtag → t.psync = s.psync) ∧
      RegsBut s t [TIM_RSTAT m, TIM_RES m] ∧ t.fc = s.fc) ∧
    (Runs (.delayLineCalDone []) s fun t => t.flag PS_STAT Fld.PS_STAT_CAL_DONE = true ∧ t.fc = s.fc ∧
      (∀ g : Fin 6, g.val < enCount s.part → s.domOn (domEn g) = true → t.flag (tdcReg (8 * g)) Fld.EN_GSTAT_TDC_OK = true)) ∧
    ((allLines s.part).contains dl = true →
      Runs (.delayLineCalDone [dl]) s fun t => t.flag PS_STAT Fld.PS_STAT_CAL_DONE = true ∧ failed t) ∧
    (s.flag PS_CAL Fld.PS_CAL_BG_EN = true → s.flag PS_STAT Fld.PS_STAT_CAL_DONE = true → (allLines s.part).contains dl = true →
      Runs (.delayLineSwap dl el) s fun t =>
        (el < 80 ∨ 160 < el → failed t) ∧ (80 ≤ el → el ≤ 160 → t.fc = s.fc ∧ t.psync.coarse = s.psync.coarse) ∧
        ((allLines s.part).all (fun k => round.contains k) = true →
          t.psync.round = [] ∧ t.fld PS_CAL Fld.PS_CAL_ROUNDS = (s.fld PS_CAL Fld.PS_CAL_ROUNDS + 1) % 65536) ∧
        ((allLines s.part).all (fun k => round.contains k) = false → t.psync.round = round ∧ t.reg PS_CAL = s.reg PS_CAL))

/-! ## Fault collector -/

/-- A report (R331 to R337, R349): corrected takes LOG; a contained or fatal report that falls into the continuation window and counts is
raised to fatal with SSTOP; FC_COUNT, the history and FC_FIRST record it, its source is pending, and its reaction acts. -/
def Obligations.CollectorTakesReport : Prop :=
  ∀ (s : State) (r : Report) (n : Fin 48) (p : Fin 2),
    let up := r.cls ≠ .corrected ∧ s.fc.window = true ∧ exemptReport r = false ∧ s.fc.lostEng.any (fun e => lostEngineSource e r.src) = false
    let cls := if up then .fatal else r.cls
    let re := if r.cls = .corrected then .log else if up then .sstop else r.react
    let k := s.fld FC_HIST_CTRL Fld.FC_HIST_CTRL_COUNT
    let i := if k = 0 then 0 else (s.fld FC_HIST_CTRL Fld.FC_HIST_CTRL_NEWEST + 1) % 32
    let was := s.fc.pend.any fun q => q.src == r.src && q.fatal
    re ≠ .hwsafe → r.src < 65536 → Runs (.faultReport r) s fun t =>
      (cls = .corrected → CorrectedOnce s t ∧ t.fc.pend = s.fc.pend ∧ t.fc.conds = s.fc.conds) ∧
      (cls = .contained → ContainedOnce s t r.src) ∧ (cls = .fatal → FatalOnce s t r.src) ∧
      (cls ≠ .corrected → t.fc.pend = s.fc.pend.filter (fun q => q.src != r.src) ++ [{ src := r.src, fatal := was || cls == .fatal }]) ∧
      (up → r.cls ≠ .fatal → t.fc.double = true) ∧
      t.reg (FC_HIST i) = BitVec.ofNat 32 (r.src + 2 ^ 16 * classCode cls + 2 ^ 18 * reactCode re + 2 ^ 24 * (s.fc.seq % 256)) ∧
      t.reg (FC_HIST i + 4) = r.data ∧ t.reg (FC_HIST i + 8) = s.time.line.setWidth 32 ∧ t.reg (FC_HIST i + 12) = (s.time.line >>> 32).setWidth 32 ∧
      (k < 32 → t.fld FC_HIST_CTRL Fld.FC_HIST_CTRL_COUNT = k + 1) ∧ (k = 32 → Counted s t FC_HIST_CTRL Fld.FC_HIST_CTRL_LOST) ∧
      t.fld FC_HIST_CTRL Fld.FC_HIST_CTRL_NEWEST = i ∧
      (cls ≠ .corrected ∧ s.flag FC_FIRST Fld.FC_FIRST_VALID = false → t.flag FC_FIRST Fld.FC_FIRST_VALID = true ∧
        t.reg FC_FIRST = BitVec.ofNat 32 (2 ^ 31 + 2 ^ 21 * reactCode re + 2 ^ 16 * classCode cls + r.src) ∧ t.reg FC_FIRST_DATA = r.data) ∧
      (cls = .corrected ∨ s.flag FC_FIRST Fld.FC_FIRST_VALID = true → t.reg FC_FIRST = s.reg FC_FIRST ∧ t.reg FC_FIRST_DATA = s.reg FC_FIRST_DATA) ∧
      ((Tbl.get (0 : Word) (s.svAt p).icCfg 1).toNat.testBit 4 = true → (t.svAt p).icEdge.contains 1 = true) ∧
      (re = .log → RegsOutside s t 0x4001 ∧ t.ax = s.ax ∧ t.basin = s.basin) ∧
      (re = .axstop ∨ re = .safepwm → r.axes.contains n.val = true → (t.queueAt n).stopCol.contains r.src = true) ∧
      (re = .safepwm → r.axes.contains n.val = true → InSafe t n (.collector r.src)) ∧
      (re = .axstop → RegsOutside s t 0x4001) ∧
      (re = .sstop → s.flag SYS_MODE Fld.SYS_MODE_FROZEN = false →
        (s.mode = .run ∨ s.mode = .degraded ∨ s.mode = .commission → t.mode = .safeStop ∧ (t.queueAt n).stopSafe = true) ∧
        (s.mode ≠ .run → s.mode ≠ .degraded → s.mode ≠ .commission → t.mode = s.mode)) ∧
      MemSame s t

/-- The hardware safe state (R338) makes no report and freezes the mode; every channel is in its safe state with its gates off. In-service test
rounds (R354), the Degraded timers (R350, R381), and the refusal of every acknowledgement while the hardware safe state holds (R339). -/
def CollectorSafeStateAndTimersRules : Prop :=
  ∀ (s : State) (tp : Bool) (n : Fin 48) (d : Fin 12) (i : Initiator) (src : BitVec 16),
    let noted (t : State) := t.reg FC_FIRST = s.reg FC_FIRST ∧ t.reg FC_COUNT = s.reg FC_COUNT ∧ t.reg FC_HIST_CTRL = s.reg FC_HIST_CTRL ∧
      t.fc.pend = s.fc.pend
    let stops (t : State) := (s.mode = .run ∨ s.mode = .degraded ∨ s.mode = .commission → t.mode = .safeStop ∧ (t.queueAt n).stopSafe = true) ∧
      RegsBut s t [SYS_MODE] ∧ t.fc = s.fc
    let ist := srcId 0x13 0
    (s.hwSafeOn = false → Runs (.collectorCopyMismatch tp) s fun t =>
      t.hwSafeOn = true ∧ t.flag SYS_MODE Fld.SYS_MODE_FROZEN = true ∧ t.mode = s.mode ∧ noted t ∧
      t.hwWord = (if tp then 0x21111 else 0x10000) ∧
      (n.val < axisCount s.part → InSafe t n .hwsafe ∧ t.en n = false ∧ t.flag (PWM_STAT n) Fld.PWM_STAT_STO = true ∧
        (t.axAt n).ho = Vector.replicate 4 false ∧ (t.axAt n).lo = Vector.replicate 4 false) ∧
      (d.val < sddCount s.part → t.flag (SDD_STAT d) Fld.SDD_STAT_STOA_ACT = true ∧ t.flag (SDD_STAT d) Fld.SDD_STAT_STOB_ACT = true)) ∧
    (s.hwSafeOn = true → Runs (.collectorCopyMismatch false) s fun t => t = s) ∧
    (s.hwSafeOn = true → s.pairFree i FC_ACK = true →
      (Runs (.fcAck i src) s fun t => t.fld FC_ACKSTAT Fld.FC_ACKSTAT_CODE = 4 ∧ t.fc.pend = s.fc.pend) ∧
      (Runs (.fcAckAll i) s fun t => t.fld FC_ACKSTAT Fld.FC_ACKSTAT_CODE = 4 ∧ t.fc.pend = s.fc.pend)) ∧
    (s.flag SYS_MODE Fld.SYS_MODE_FROZEN = false →
      (s.due .mdLimit = true → Runs .mdTimerExpiry s stops) ∧ (s.due .sdLimit = true → Runs .sdTimerExpiry s stops)) ∧
    (s.due .mdLimit = false → Runs .mdTimerExpiry s fun t => t = s) ∧
    (s.due .sdLimit = false → Runs .sdTimerExpiry s fun t => t = s) ∧
    (s.flag TT_CTRL Fld.TT_CTRL_TEST_EN = true → s.fc.roundOver = false → (s.fc.roundAt.any fun a => a + 2000 * msTicks < s.clock) = true → s.fc.window = false → Runs .istRoundOverdue s fun t =>
      t.flag FC_IST Fld.FC_IST_OVERDUE = true ∧ t.fc.roundOver = true ∧ CorrectedOnce s t ∧ RegsOutside s t 0x4001 ∧
      (s.fc.overdue = 2 → ContainedOnce s t ist ∧ t.fc.overdue = 0) ∧ (s.fc.overdue < 2 → t.fc.overdue = s.fc.overdue + 1 ∧ t.fc.pend = s.fc.pend))

/-- Acknowledgement (R339, R592): the code; an accepted source is no longer pending, its stop sources clear and the channels lose it as a
trigger, but stay held; GO on SRC 0xFFFF takes every source that qualifies. -/
def CollectorAcknowledgementRules : Prop :=
  ∀ (s : State) (i : Initiator) (src : BitVec 16) (p : PendSrc) (n : Fin 48), s.pairFree i FC_ACK = true → s.hwSafeOn = false →
    src ≠ 0xFFFF →
    let k := src.toNat
    let found := s.fc.pend.find? fun q => q.src == k
    let active := s.fc.conds.any fun c => c.1 == k
    let code (t : State) := t.fld FC_ACKSTAT Fld.FC_ACKSTAT_CODE
    let kept (t : State) := t.fc.pend = s.fc.pend ∧ t.ax = s.ax ∧ t.basin = s.basin ∧ RegsBut s t [FC_ACKSTAT, FC_ACK] ∧ t.resp = .done
    let gone (t : State) (x : Nat) := (t.queueAt n).stopCol.contains x = false ∧ (t.queueAt n).stopSup.contains x = false ∧
      (t.axAt n).safe.contains (.collector x) = false ∧ t.fc.pend.any (fun q => q.src == x) = false
    let oks := (s.fc.pend.map PendSrc.src).filter fun x => s.ackCode x == 0
    (found = none → Runs (.fcAck i src) s fun t => code t = 1 ∧ kept t) ∧
    (found = some p → active = true → Runs (.fcAck i src) s fun t => code t = 2 ∧ kept t) ∧
    (found = some p → active = false → p.fatal = true → s.mode ≠ .hold → Runs (.fcAck i src) s fun t => code t = 3 ∧ kept t) ∧
    (found = some p → active = false → p.fatal = false ∨ s.mode = .hold → Runs (.fcAck i src) s fun t => code t = 0 ∧ gone t k ∧
      t.fc.pend = s.fc.pend.filter (fun q => q.src != k) ∧ t.flag FC_STAT Fld.FC_STAT_FATAL = t.fc.pend.any (fun q => q.fatal) ∧
      (t.axAt n).held = (s.axAt n).held ∧ RegsBut s t [FC_ACKSTAT, FC_ACK, FC_STAT] ∧ t.resp = .done) ∧
    (Runs (.fcAckAll i) s fun t =>
      (oks ≠ [] → code t = 0) ∧ (s.fc.pend = [] → code t = 1) ∧
      (oks = [] → ∀ x ∈ (s.fc.pend.map PendSrc.src).min?, code t = s.ackCode x ∧ kept t) ∧
      (∀ x ∈ oks, gone t x) ∧ t.fc.pend = s.fc.pend.filter (fun q => s.ackCode q.src != 0) ∧
      RegsBut s t [FC_ACKSTAT, FC_ACK, FC_STAT] ∧ t.resp = .done)

/-- The fault collector: safe states, timers, acknowledgement. -/
def Obligations.CollectorStates : Prop :=
  CollectorSafeStateAndTimersRules ∧ CollectorAcknowledgementRules

/-! ## Functional safety -/

/-- STO (R357 to R364, R369, R370, R372): lands, their discrepancy, a wrong path readback, an enable latch that drops, T_SS1 and a test pulse.
After each, a group's paths read as what holds them or waits for a restart says, on the dies and on the channels; a land or a dropped latch
asserts its path on every group; releasing one holder keeps what the others hold; where STO acts, an output that feeds a brake of the group is
off. No channel's copies of the block disagree; where they do, the use of the block reports it. -/
def SafetyStopsRules : Prop :=
  ∀ (s : State) (n : Fin 48) (g : Fin 12) (a b pb rd shows : Bool) (k : Fin 4) (x : Fin 16), s.fc.window = false →
    let grpA (t : State) := t.fld SAFE_STO Fld.SAFE_STO_GRP_A
    let grpB (t : State) := t.fld SAFE_STO Fld.SAFE_STO_GRP_B
    let shown (t : State) := grpA t = t.pathHeld false ||| t.safe.waitG ∧ grpB t = t.pathHeld true ||| t.safe.waitG ∧
      t.fld SAFE_PATH Fld.SAFE_PATH_A_ACT = grpA t ∧ t.fld SAFE_PATH Fld.SAFE_PATH_B_ACT = grpB t ∧
      (t.brakeActs k = true → vget t.safe.a.so false k = false ∧ vget t.safe.b.so false k = false) ∧
      (n.val < axisCount s.part → t.flag (PWM_STAT n) Fld.PWM_STAT_STO = nbit (grpA t ||| grpB t) (n / 4) ∧
        (s.flag (PWM_STAT n) Fld.PWM_STAT_STO = false → t.flag (PWM_STAT n) Fld.PWM_STAT_STO = true → t.en n = false))
    let kept (t : State) := t.safe.a.demand = s.safe.a.demand ∧ t.safe.b.demand = s.safe.b.demand ∧ t.safe.disc = s.safe.disc ∧
      t.safe.path = s.safe.path ∧ t.fc.pend = s.fc.pend
    let src := safeSrc 0x80
    let ch := (saxCfg s.safe.a.val x).ch
    let c := soCfg (s.chan b).val k
    let off (t : State) (q : Bool) := vget (t.chan q).so false k = false
    (s.safe.a.torn = false → s.safe.b.torn = false →
      (s.safe.landA = false → Runs .stoAAssert s fun t => t.safe.landA = true ∧ t.flag SAFE_STO Fld.SAFE_STO_LAND_A = true ∧ grpA t = 0xFFF ∧
        shown t ∧ kept t ∧ t.safe.landB = s.safe.landB ∧
        (s.safe.landB = false → s.timerOn .stoDisc = false → s.safe.a.lost = false → s.safe.a.val ≠ [] →
          ExpiresAt t .stoDisc (s.clock + blkDisc s.safe.a.val * msTicks))) ∧
      (s.safe.landB = false → Runs .stoBAssert s fun t => t.safe.landB = true ∧ t.flag SAFE_STO Fld.SAFE_STO_LAND_B = true ∧ grpB t = 0xFFF ∧
        shown t ∧ kept t ∧ t.safe.landA = s.safe.landA) ∧
      ((if a then s.safe.landA else s.safe.landB) = true → s.safe.disc = false → Runs (.stoRelease a) s fun t =>
        (if a then t.safe.landA else t.safe.landB) = false ∧ shown t ∧ kept t) ∧
      (s.due (.ss1 x) = true → Runs (.ss1Timeout x) s fun t => vget t.safe.ssEnd false x = true ∧ t.timerOn (.ss1 x) = false ∧ shown t ∧
        t.fc = s.fc ∧
        ((s.safe.a.saxAt x).ss1.isSome = true → (t.safe.a.saxAt x).ended = true ∧
          (x.val < blkAxes s.safe.a.val → s.mode ≠ .safeStop → nbit t.safe.a.demand (ch / 4) = true)) ∧
        ((s.safe.b.saxAt x).ss1.isSome = true → (t.safe.b.saxAt x).ended = true)) ∧
      (s.due (.ss1 x) = false → s.due (.ss2 x) = true → Runs (.ss1Timeout x) s fun t => vget t.safe.ss2End false x = true ∧
        t.timerOn (.ss2 x) = false ∧ t.safe.a = s.safe.a ∧ t.safe.b = s.safe.b ∧ t.fc = s.fc ∧ RegsBut s t []) ∧
      (s.armed = true → (s.chan b).lost = false → c.test = 1 → vget s.safe.a.so false k = true → vget s.safe.b.so false k = true →
        s.pulseDue b k = true → Runs (.soTestPulse b k shows) s fun t =>
          off t b ∧ vget (t.chan b).pulse none k = some s.clock ∧ ExpiresAt t (.soPulse (b2n b) k) (s.clock + c.us * usTicks) ∧
          (shows = true → vget (t.chan (!b)).so false k = true ∧ t.fc = s.fc ∧ RegsBut s t []) ∧
          (shows = false → vget t.safe.soFault false k = true ∧ off t (!b) ∧ ContainedOnce s t (safeSrc (0xA0 + k)) ∧ RegsFcBut s t [SAFE_SO]))) ∧
    (s.safe.a.torn = true → s.safe.landA = false → Runs .stoAAssert s fun t => t.safe.landA = true ∧ grpA t = 0xFFF ∧
      t.fc.pend.any (fun q => q.src == safeSrc 0xB3) = true) ∧
    (s.safe.landA = true → Runs .stoAAssert s fun t => t = s) ∧ (s.safe.landB = true → Runs .stoBAssert s fun t => t = s) ∧
    (s.due .stoDisc = true → s.safe.landA ≠ s.safe.landB → Runs .stoDiscExpiry s fun t =>
      t.safe.disc = true ∧ ContainedOnce s t src ∧ grpA t = 0xFFF ∧ grpB t = 0xFFF ∧ shown t) ∧
    (g.val < groupCount s.part → rd ≠ nbit (if pb then grpB s else grpA s) g → Runs (.pathReadbackTimeout b g pb rd) s fun t =>
      t.safe.path = true ∧ ContainedOnce s t src ∧ grpA t = 0xFFF ∧ grpB t = 0xFFF ∧ shown t) ∧
    (s.due (.soloMax (b2n b)) = true → Runs (.soloMaxExpiry b) s fun t => (t.chan b).latch = false ∧
      (if b then grpB t else grpA t) = 0xFFF ∧ shown t ∧
      (b = false → s.safe.a.lost = true → s.safe.a.restart = true → FatalOnce s t (safeSrc 0xB2)) ∧ (b = true → t.fc = s.fc))

/-- A safety cycle (R355, R356, R360, R361, R365 to R367, R373) and the pair timer: a channel that delivers its result steps its pairs by the state
machine over its own snapshot, demands what its pairs, its axes and Safe Stop demand and refreshes its latch; copies that disagree, or a second
missing result, are fatal; each channel's snapshot holds the inputs and the lands as they are; and a pair whose discrepancy time ends is in FAULT. -/
def SafetyCyclesRules : Prop :=
  ∀ (s : State) (ra rb b : Bool) (p : Fin 8) (g : Fin 12),
    let x := s.chan b
    let c := pairCfg x.val p
    let st := x.pairAt p
    let i1 := x.snap.di.testBit (2 * p.val)
    let i2 := x.snap.di.testBit (2 * p.val + 1) != decide (c.mode = 2)
    let up := if c.restart = 1 then PairSt.ready else .on
    let here := x.torn = false ∧ if b then rb = true ∧ s.domOn domSC = true ∧ s.fc.stopped.contains domSC = false
      else ra = true ∧ (s.svAt 1).up = true ∧ s.aRestarting = false
    let fatal (t : State) (i : Nat) := t.fc.pend.any (fun q => q.src == safeSrc i && q.fatal) = true
    let cycled (t : State) := t.safe.cyc = s.safe.cyc + 1 ∧ t.safe.landA = s.safe.landA ∧ t.safe.landB = s.safe.landB ∧
      (t.chan b).snap.di = t.fld FIO_DI ⟨31, 16⟩ ∧ (t.chan b).snap.landA = s.safe.landA ∧ (t.chan b).snap.landB = s.safe.landB
    (s.armed = false → s.domOn domSC = true → Runs (.safetyCycleBoundary ra rb) s fun t => cycled t ∧
      (t.chan b).demand = x.demand ∧ (t.chan b).pair = x.pair) ∧
    (s.armed = true → Runs (.safetyCycleBoundary ra rb) s fun t => cycled t ∧
      (s.safe.a.torn = true ∨ s.safe.b.torn = true → s.fc.pend.any (fun q => q.src == safeSrc 0xB3) = false → fatal t 0xB3) ∧
      (x.lost = false → ¬ here → (b = false → s.aRestarting = false) → 1 ≤ x.miss → (t.chan b).lost = true ∧ fatal t (if b then 0xB1 else 0xB2)) ∧
      (x.lost = false → ¬ here → (b = false → s.aRestarting = false) → x.miss = 0 → (t.chan b).lost = false ∧ (t.chan b).miss = 1) ∧
      (x.lost = false → b = false → s.aRestarting = true → (t.chan b).lost = true ∧ (t.chan b).restart = true) ∧
      (x.lost = false → here → (t.chan b).latch = true ∧ (t.chan b).miss = 0 ∧
        (s.safe.a.val = s.safe.b.val → (t.chan b).demand = (s.channelCycle b).demand ∧ (t.chan b).sax = (s.channelCycle b).sax) ∧
        (c.mode ≠ 0 →
          let q := (t.chan b).pairAt p
          (nbit x.snap.cross p = true → q = .fault) ∧
          (nbit x.snap.cross p = false →
            (i1 = true → i2 = true → st = .off ∨ st = .discOn → q = up) ∧
            (i1 ≠ i2 → st = .off → q = .discOn) ∧
            (i1 ≠ i2 → st = .on ∨ st = .ready → q = .discOff) ∧
            (i1 = false → i2 = false → st ≠ .discOn → q = .off) ∧
            (i1 = true → i2 = true → st = .on → q = .on) ∧
            (i1 = true → i2 = true → st = .ready → q = if nbit s.safe.restart (16 + p) then .on else .ready) ∧
            (i1 = true ∨ i2 = true → st = .fault → q = .fault)) ∧
          (q ≠ .on → nbit c.groups g = true → nbit (t.chan b).demand g = true)) ∧
        (s.mode = .safeStop → nbit (ss1Groups x.val) g = false → nbit (t.chan b).demand g = true))) ∧
    (s.domOn domSC = false → s.armed = false → Runs (.safetyCycleBoundary ra rb) s fun t => t = s) ∧
    (s.due (.pairDisc (b2n b) p) = true → s.armed = true → st = .discOn ∨ st = .discOff → s.fc.window = false →
      Runs (.pairDiscTimeout b p) s fun t => (t.chan b).pairAt p = .fault ∧ t.timerOn (.pairDisc (b2n b) p) = false ∧
        (t.chan (!b)) = s.chan (!b) ∧ RegsOutside s t 0x4001 ∧
        (s.safe.rep.contains (0x90 + p.val) = false → ContainedOnce s t (safeSrc (0x90 + p.val)))) ∧
    (st ≠ .discOn → st ≠ .discOff → Runs (.pairDiscTimeout b p) s fun t => t = s)

/-- The safety functions at work. -/
def Obligations.SafetyFunctions : Prop :=
  SafetyStopsRules ∧ SafetyCyclesRules

/-- Requests, loading, confirmation (R358, R364, R377, R378, R471): a load only in Commission, which disarms at once; both channels take a block whose
checks pass, with its complement; the confirmation of its check value arms and goes to the parameter store; DISARM in Commission and Hold; the same for
the safe-data table. While the functions are not armed, every group holds STO and the safety outputs are off. -/
def SafetyParametersRules : Prop :=
  ∀ (s : State) (i : Initiator) (w : Word) (agree : Bool) (a : Nat) (k : Fin 4),
    let code (t : State) := t.fld SAFE_STAT Fld.SAFE_STAT_LOAD_CODE
    let scode (t : State) := t.fld SAFE_SDT_STAT Fld.SAFE_SDT_STAT_LOAD_CODE
    let offAll (t : State) := t.armed = false ∧ t.stoGroups = 0xFFF ∧ vget t.safe.a.so false k = false ∧ vget t.safe.b.so false k = false ∧
      t.sdtArmed = false
    let l := (s.bytesAt .sv0 a 1216).getD []
    let m := (s.bytesAt .sv0 a 128).getD []
    let ok := agree = true ∧ s.chanReady false = true ∧ s.chanReady true = true
    (s.pairFree i SAFE_RESTART = true → Runs (.safeRestart i w) s fun t =>
      (∀ j : Fin 24, j.val < 12 ∨ 16 ≤ j.val → nbit t.safe.restart j = (nbit s.safe.restart j || w.getLsbD j)) ∧ RegsBut s t [SAFE_RESTART] ∧ t.resp = .done ∧ t.safe.waitG = s.safe.waitG) ∧
    (s.pairFree i SAFE_REQ = true → Runs (.safeReq i w) s fun t =>
      t.fld SAFE_REQ Fld.SAFE_REQ_SS1 = fget w Fld.SAFE_REQ_SS1 ∧ t.fld SAFE_REQ Fld.SAFE_REQ_SS2 = fget w Fld.SAFE_REQ_SS2 ∧
      RegsBut s t [SAFE_REQ] ∧ t.safe = s.safe ∧ t.resp = .done) ∧
    (s.reachable SAFE_CTRL = true → fget w Fld.SAFE_CTRL_DISARM = 0 →
      (s.mode = .commission → Runs (.safeLoad i w) s fun t => offAll t ∧ code t = 0xFF ∧ t.safe.load = some (s.reg SAFE_LOAD_ADDR).toNat ∧
        t.flag SAFE_STAT Fld.SAFE_STAT_LOADED = false ∧ t.flag SAFE_STAT Fld.SAFE_STAT_CHECK_VALID = false) ∧
      (s.mode ≠ .commission → Runs (.safeLoad i w) s fun t => code t = 5 ∧ RegsBut s t [SAFE_STAT] ∧ t.safe = s.safe)) ∧
    (s.reachable SAFE_CTRL = true → fget w Fld.SAFE_CTRL_LOAD = 0 →
      (s.mode = .commission ∨ s.mode = .hold → Runs (.safeDisarm i w) s fun t => offAll t ∧ t.safe.a.val = s.safe.a.val ∧ t.resp = .done) ∧
      (s.mode ≠ .commission → s.mode ≠ .hold → Runs (.safeDisarm i w) s fun t => t = { s with resp := .busError })) ∧
    (s.domOn domSC = true → s.safe.load = some a → Runs (.safeLoadDone false agree) s fun t =>
      code t = (if blockCode s.part l = 0 ∧ ¬ ok then 4 else blockCode s.part l) ∧ t.safe.load = none ∧ t.fc = s.fc ∧
      (blockCode s.part l = 0 → ok → t.safe.a.val = l ∧ t.safe.b.val = l ∧ t.safe.a.torn = false ∧ t.safe.b.torn = false ∧
        t.flag SAFE_STAT Fld.SAFE_STAT_LOADED = true ∧ t.flag SAFE_STAT Fld.SAFE_STAT_CHECK_VALID = true ∧
        t.reg SAFE_CHECK = BitVec.ofNat 32 (leAtOf l 1212 4)) ∧
      (blockCode s.part l ≠ 0 ∨ ¬ ok → t.safe.a = s.safe.a ∧ t.safe.b = s.safe.b ∧ RegsBut s t [SAFE_STAT])) ∧
    (s.domOn domSC = true → s.safe.sdtLoad = some a → Runs (.safeLoadDone true agree) s fun t =>
      scode t = (if sdtCode m = 0 ∧ agree = false then 4 else sdtCode m) ∧ t.safe.sdtLoad = none ∧
      (sdtCode m = 0 → agree = true → t.safe.sdt = m ∧ t.reg SAFE_SDT_CHECK = BitVec.ofNat 32 (leAtOf m 124 4))) ∧
    (s.pairFree i SAFE_CONFIRM = true →
      (s.mode ≠ .commission → Refused (.safeConfirm i w) s) ∧
      (s.mode = .commission → s.flag SAFE_STAT Fld.SAFE_STAT_CHECK_VALID = true → w = s.reg SAFE_CHECK → s.blocksAgree = true →
        Runs (.safeConfirm i w) s fun t => t.armed = true ∧ t.safe.a.val = s.safe.a.val ∧ t.fc = s.fc ∧ t.resp = .done ∧
        t.boot.psWait = s.boot.psWait ++ [(false, .write 2 (s.safe.a.val ++ leBytes 4 w.toNat))]) ∧
      (s.mode = .commission → s.flag SAFE_STAT Fld.SAFE_STAT_CHECK_VALID = false ∨ w ≠ s.reg SAFE_CHECK → Runs (.safeConfirm i w) s fun t =>
        s.safe.a.torn = false → s.safe.b.torn = false →
        t.flag SAFE_STAT Fld.SAFE_STAT_CONF_ERR = true ∧ t.armed = s.armed ∧ RegsBut s t [SAFE_STAT, SAFE_CONFIRM] ∧ t.safe = s.safe)) ∧
    (s.reachable SAFE_SDT_CTRL = true → fget w Fld.SAFE_SDT_CTRL_LOAD = 1 →
      (s.mode = .commission → Runs (.sdtLoad i w) s fun t => t.sdtArmed = false ∧ scode t = 0xFF ∧ t.armed = s.armed ∧
        t.safe.sdtLoad = some (s.reg SAFE_SDT_ADDR).toNat ∧ t.flag SAFE_SDT_STAT Fld.SAFE_SDT_STAT_LOADED = false) ∧
      (s.mode ≠ .commission → Runs (.sdtLoad i w) s fun t => scode t = 5 ∧ RegsBut s t [SAFE_SDT_STAT] ∧ t.safe = s.safe)) ∧
    (s.pairFree i SAFE_SDT_CONFIRM = true →
      (s.mode ≠ .commission → Refused (.sdtConfirm i w) s) ∧
      (s.mode = .commission → s.flag SAFE_SDT_STAT Fld.SAFE_SDT_STAT_CHECK_VALID = true → w = s.reg SAFE_SDT_CHECK →
        Runs (.sdtConfirm i w) s fun t => t.sdtArmed = s.armed ∧ t.safe.sdtOn = true ∧ t.safe.sdt = s.safe.sdt ∧ t.fc = s.fc ∧
          t.boot.psWait = s.boot.psWait ++ [(false, .write 3 (s.safe.sdt ++ leBytes 4 w.toNat))]))

/-- Safe data (R472 to R474, R476): the first good copy opens a window of CW; the same copy on the other plane is accepted; an invalid copy only counts;
two copies that differ put the connection in FAULT; a window that ends with one copy accepts it for a connection that is OK and counts the missing plane;
the watchdog loses a connection. -/
def SafeDataConnectionsRules : Prop :=
  ∀ (s : State) (r : Fin 8) (can : Bool) (id : Nat) (m : List Byte) (w : RxWin) (l : List RxWin), s.sdtArmed = true → s.domOn domSC = true →
    s.fc.window = false →
    let plane := if can then Plane.b else .a
    let x := s.rxAt r
    let c := s.conn r
    let seq := leAtOf m 2 2
    let age := sxt 32 ((s.ticks + 2 ^ 32 - leAtOf m 4 4) % 2 ^ 32)
    let after := (seq + 65536 - x.seq) % 65536
    let good := m.length = 16 ∧ crc32c (m.take 12) = leAtOf m 12 4 ∧ (can = true → id = c.canId) ∧
      (x.st = .wait ∨ x.st = .lost ∨ 1 ≤ after ∧ after ≤ 32767) ∧ x.done ≠ some seq ∧ 0 ≤ age ∧ age * 4 ≤ leAtOf s.safe.sdt 20 4 * 1000
    let opened := x.win.find? fun v => v.seq == seq
    let stat := SAFE_RX_STAT r
    let state (t : State) := t.fld stat Fld.SAFE_RX_STAT_STATE
    let other (t : State) := (∀ q : Fin 8, q ≠ r → t.rxAt q = s.rxAt q) ∧ t.safe.a = s.safe.a ∧ t.safe.b = s.safe.b
    let invalid (t : State) := t.safe = s.safe ∧ Counted s t stat Fld.SAFE_RX_STAT_INVALID ∧ RegsBut s t [stat]
    ((List.range s.nrx).find? (fun q => (s.conn q).src == leAtOf m 0 2) = some r.val →
      (¬ good → Runs (.safeCopyRx plane id m) s invalid) ∧
      (good → opened = none → Runs (.safeCopyRx plane id m) s fun t =>
        t.rxAt r = { x with win := x.win ++ [{ seq := seq, msg := m, can := can, due := s.clock + leAtOf s.safe.sdt 16 2 * usTicks }] } ∧
        other t ∧ RegsBut s t [] ∧ t.fc = s.fc) ∧
      (good → opened = some w →
        (w.can = can → Runs (.safeCopyRx plane id m) s invalid) ∧
        (w.can ≠ can → w.msg = m → x.st ≠ .fault → Runs (.safeCopyRx plane id m) s fun t => (t.rxAt r).st = .ok ∧ (t.rxAt r).msg = m ∧
          (t.rxAt r).seq = seq ∧ (t.rxAt r).duals = x.duals + 1 ∧ state t = 1 ∧ other t ∧ RegsBut s t [stat] ∧ t.fc = s.fc) ∧
        (w.can ≠ can → w.msg ≠ m → x.st ≠ .fault → Runs (.safeCopyRx plane id m) s fun t => (t.rxAt r).st = .fault ∧ state t = 3 ∧
          Counted s t stat Fld.SAFE_RX_STAT_MISMATCH ∧ ContainedOnce s t s.canSrc ∧ (t.rxAt r).msg = x.msg ∧ other t ∧ RegsFcBut s t [stat]))) ∧
    (x.win = w :: l → w.due ≤ s.clock → Runs (.cwExpiry r) s fun t => (t.rxAt r).win = l ∧ (t.rxAt r).duals = 0 ∧
      Counted s t stat (if w.can then Fld.SAFE_RX_STAT_MISS_A else Fld.SAFE_RX_STAT_MISS_B) ∧
      ((t.rxAt r).msg = if x.st = .ok then w.msg else x.msg) ∧ (t.rxAt r).st = x.st ∧ other t ∧ RegsBut s t [stat] ∧ t.fc = s.fc) ∧
    (x.st = .ok → x.at_ + c.wd ≤ s.safe.cyc → Runs (.connectionWatchdog r) s fun t => (t.rxAt r).st = .lost ∧ state t = 2 ∧
      ContainedOnce s t s.canSrc ∧ other t ∧ RegsFcBut s t [stat]) ∧
    (x.st ≠ .ok ∨ s.safe.cyc < x.at_ + c.wd → Runs (.connectionWatchdog r) s fun t => t = s)

/-- The parameters of the safety functions and the safe-data connections. -/
def Obligations.SafetyConfiguration : Prop :=
  SafetyParametersRules ∧ SafeDataConnectionsRules

/-! ## Supervisor pairs -/

/-- Registers and the instructions of both profiles on a supervisor pair (R382 to R384, R387, R388): U0 reads 0, the E registers of a frame are the H
registers of the frame before; NOP changes nothing but PC; results, flags and carries; branches; an illegal word traps. -/
def SupervisorArithmeticRules : Prop :=
  ∀ (s : State) (q : Fin 2) (rd ra rb cond : Fin 16) (sh : Fin 32) (imm : BitVec 18) (off : BitVec 22) (w : Word) (f : Fin 8) (v : Sv),
    let p := q.val
    let pc := (s.svAt p).pc
    let im : Word := imm.signExtend 32
    let dest : Word := pc + off.signExtend 32 * 4
    let shb (v : Sv) := (v.get rb).toNat % 32
    let x (c : Instr) (g : Sv → Word × Option Bool) := SvDoes s c p 0 fun v t => v.result t rd (g v).1 (g v).2
    let x0 (c : Instr) (g : Sv → Word) := x c fun v => (g v, none)
    let carry (a b : Word) := some (decide (2 ^ 32 ≤ a.toNat + b.toNat))
    ((v.setIn f rd w).regIn f rd = (if rd = 0 then 0 else w) ∧ (∀ k : Fin 4, v.regIn f (12 + k) = v.regIn ((f + 7) % 8) (4 + k)) ∧
      (∀ g : Fin 8, ∀ k : Fin 4, v.regIn f k = v.regIn g k)) ∧
    (SvDoes s (.nop (.sv q)) p 0 fun v t => t = v) ∧
    (s.svIssues p = true →
      let t := s.svFetched p
      t.svAt p = { s.svAt p with pc := pc + 4, waiting := false, icache := (t.svAt p).icache, tagCnt := (t.svAt p).tagCnt } ∧
      RegsBut s t [] ∧ MemSame s t ∧ t.svAt (1 - p) = s.svAt (1 - p) ∧ t.fc = s.fc) ∧
    (x (.add (.sv q) rd ra rb) fun v => (v.get ra + v.get rb, carry (v.get ra) (v.get rb))) ∧
    (x (.sub (.sv q) rd ra rb) fun v => (v.get ra - v.get rb, some (decide ((v.get ra).toNat < (v.get rb).toNat)))) ∧
    (x (.addi (.sv q) rd ra imm) fun v => (v.get ra + im, carry (v.get ra) im)) ∧
    x0 (.and (.sv q) rd ra rb) (fun v => v.get ra &&& v.get rb) ∧ x0 (.or (.sv q) rd ra rb) (fun v => v.get ra ||| v.get rb) ∧
    x0 (.xor (.sv q) rd ra rb) (fun v => v.get ra ^^^ v.get rb) ∧ x0 (.mul (.sv q) rd ra rb) (fun v => v.get ra * v.get rb) ∧
    x0 (.shl (.sv q) rd ra rb) (fun v => v.get ra <<< shb v) ∧ x0 (.shr (.sv q) rd ra rb) (fun v => v.get ra >>> shb v) ∧
    x0 (.asr (.sv q) rd ra rb) (fun v => (v.get ra).sshiftRight (shb v)) ∧
    x0 (.shli (.sv q) rd ra sh) (fun v => v.get ra <<< sh.val) ∧ x0 (.shri (.sv q) rd ra sh) (fun v => v.get ra >>> sh.val) ∧
    x0 (.asri (.sv q) rd ra sh) (fun v => (v.get ra).sshiftRight sh.val) ∧
    (SvDoes s (.cmp (.sv q) ra rb) p 0 fun v t => t = { v with st := t.st } ∧ t.st.getLsbD 3 = decide (v.get ra = v.get rb) ∧
      t.st.getLsbD 2 = decide ((v.get ra).toInt < (v.get rb).toInt) ∧ t.st.getLsbD 0 = decide ((v.get ra).toNat < (v.get rb).toNat) ∧
      ∀ k, k = 1 ∨ 4 ≤ k → t.st.getLsbD k = v.st.getLsbD k) ∧
    (SvDoes s (.li (.sv q) rd imm) p 0 fun v t => t = v.set rd im) ∧
    (SvDoes s (.lui (.sv q) rd imm) p 0 fun v t => t = v.set rd (imm ++ (v.get rd).setWidth 14)) ∧
    (cond.val ≤ 10 → SvDoes s (.brc (.sv q) cond off) p 0 fun v t => t = if svCond cond v.st then { v with pc := dest } else v) ∧
    (svCond 9 w = w.getLsbD 0 ∧ svCond 10 w = !w.getLsbD 0 ∧ (∀ k : Fin 9, svCond k w = condHolds k (stAsSr w))) ∧
    (10 < cond.val → SvTraps s (.brc (.sv q) cond off) p 2 0 pc) ∧
    (SvDoes s (.call (.sv q) off) p 0 fun v t => t = { v.set 7 (pc + 4) with pc := dest }) ∧
    (SvDoes s (.ret (.sv q) ra) p 0 fun v t => t = { v with pc := v.get ra }) ∧
    (svLegal w.toNat = false → SvTraps s (.illegalInstruction (.sv q) w) p 2 0 pc ∧ SvNests s (.illegalInstruction (.sv q) w) p 2)

/-- Division, frames, traps (R385 to R391): quotients toward zero (log entry 121, PRESUMED) and the trap of a zero divisor; FPUSH and FPOP compute in the old frame and
write in the new one, or trap at the reserved frame; TRAP; TRET, which is illegal with traps on; and the frame-nesting fault of each with traps off. -/
def SupervisorFramesRules : Prop :=
  ∀ (s : State) (q : Fin 2) (rd ra rb k : Fin 16) (imm : BitVec 18),
    let p := q.val
    let v := s.svAt p
    let u := (s.svFetched p).svAt p
    let pc := v.pc
    let a := u.get ra
    let b := u.get rb
    let corner := a = 0x80000000 ∧ b = 0xFFFFFFFF
    let up := (v.cfr + 1) % 8
    let dn := (v.cfr + 7) % 8
    let res := v.rsv.toNat % 8
    let t := a + imm.signExtend 32
    let back := { u with st := fset v.tstatus stTen 1, pc := a }
    (b ≠ 0 →
      (¬ corner → SvDoes s (.svDiv q rd ra rb) p 0 fun v t => t = v.set rd (BitVec.ofInt 32 (a.toInt.tdiv b.toInt))) ∧
      (SvDoes s (.svDiv q rd ra rb) p 0 fun v t => t = v.set rd (t.get rd)) ∧
      (SvDoes s (.divu q rd ra rb) p 0 fun v t => t = v.set rd (a / b)) ∧
      (SvDoes s (.rem q rd ra rb) p 0 fun v t => t = v.set rd (BitVec.ofInt 32 (a.toInt.tmod b.toInt))) ∧
      (SvDoes s (.remu q rd ra rb) p 0 fun v t => t = v.set rd (a % b))) ∧
    (b = 0 → SvTraps s (.svDiv q rd ra rb) p 9 0 pc ∧ SvTraps s (.divu q rd ra rb) p 9 0 pc ∧ SvTraps s (.rem q rd ra rb) p 9 0 pc ∧
      SvTraps s (.remu q rd ra rb) p 9 0 pc) ∧
    (v.ten = true → up ≠ res → SvDoes s (.fpush q rd ra imm) p 0 fun v w => w = ({ v with st := fset v.st stCfr up }).set rd t ∧ w.cfr = up) ∧
    (v.ten = true → dn ≠ res → SvDoes s (.fpop q rd ra imm) p 0 fun v w => w = ({ v with st := fset v.st stCfr dn }).set rd t ∧ w.cfr = dn) ∧
    (up = res → SvTraps s (.fpush q rd ra imm) p 7 0 pc) ∧ (dn = res → SvTraps s (.fpop q rd ra imm) p 8 0 pc) ∧
    SvTraps s (.trap q k) p (0x10 + k) 0 (pc + 4) ∧
    (v.ten = false → bits v.tstatus.toNat 18 16 ≠ res → SvDoes s (.tret q ra) p 2 fun _ w => w = back ∧ w.ten = true ∧ w.pl = bits v.tstatus.toNat 11 10) ∧
    SvTraps s (.tret q ra) p 2 0 pc ∧ (v.pl < 2 → v.ten = false → SvNests s (.tret q ra) p 3) ∧
    SvNests s (.fpush q rd ra imm) p 7 ∧ SvNests s (.fpop q rd ra imm) p 8 ∧ SvNests s (.trap q k) p (0x10 + k) ∧
    (b = 0 → SvNests s (.svDiv q rd ra rb) p 9)

/-- Supervisor cores: arithmetic, control flow, register frames. -/
def Obligations.SupervisorInstructions : Prop :=
  SupervisorArithmeticRules ∧ SupervisorFramesRules

/-- Memory (R387, R388, R392, R394, R404): a load or a store that the MPU grants, uncached or on a line that the cache holds, by size and extension;
the causes of a denied, a misaligned and a refused access; CAS; the spill and the fill of a frame on the tightly coupled RAM. -/
def Obligations.SupervisorMemory : Prop :=
  ∀ (s : State) (q : Fin 2) (rd ra rb : Fin 16) (imm : BitVec 18) (att : Nat) (w o : Word) (c : CacheLine),
    let p := q.val
    let r := s.svFetched p
    let v := r.svAt p
    let a := v.get ra + imm.signExtend 32
    let n := a.toNat
    let i := svIni p
    let pc := (s.svAt p).pc
    let loads : List (Instr × Nat × (Word → Word)) := [(.ldw q rd ra imm, 4, fun x => x), (.ldh q rd ra imm, 2, fun x => (x.setWidth 16).signExtend 32),
      (.ldhu q rd ra imm, 2, fun x => (x.setWidth 16).setWidth 32), (.ldb q rd ra imm, 1, fun x => (x.setWidth 8).signExtend 32),
      (.ldbu q rd ra imm, 1, fun x => (x.setWidth 8).setWidth 32)]
    let stores : List (Instr × Nat) := [(.stw q rd ra imm, 4), (.sth q rd ra imm, 2), (.stb q rd ra imm, 1)]
    let lineVal (size : Nat) := BitVec.ofNat 32 (c.data.toNat / 2 ^ (8 * (n % 64)) % 2 ^ (8 * size))
    let tcm := tcmBase p
    let sp := v.fsp - 32
    s.svCan p 0 = true →
    (∀ l ∈ loads, let rd' := r.busRead i n l.2.1
      (n % l.2.1 = 0 → v.mpu .read n = some att → cachedAt att n = false → rd'.resp = .data w → w.toNat < 2 ^ (8 * l.2.1) →
        Runs l.1 s fun t => t.svAt p = (rd'.svAt p).set rd (l.2.2 w) ∧ SvOnly rd' t p) ∧
      (n % l.2.1 = 0 → v.mpu .read n = some att → cachedAt att n = true → findLine v.dcache (n / 64) = some c →
        Runs l.1 s fun t => t.svAt p = v.set rd (l.2.2 (lineVal l.2.1)) ∧ SvOnly r t p) ∧
      (v.mpu .read n = none → SvTraps s l.1 p 5 a pc) ∧
      (v.mpu .read n = some att → n % l.2.1 ≠ 0 → SvTraps s l.1 p 6 a pc) ∧
      (n % l.2.1 = 0 → v.mpu .read n = some att → cachedAt att n = false → rd'.resp = .busError → (s.svAt p).ten = true →
        Runs l.1 s fun t => (t.svAt p).tcause = 0x0A ∧ (t.svAt p).tval = a)) ∧
    (∀ l ∈ stores, let wr' := r.busWrite i n l.2 (v.get rd)
      (n % l.2 = 0 → v.mpu .write n = some att → cachedAt att n = false → wr'.resp ≠ .busError →
        Runs l.1 s fun t => t.svAt p = wr'.svAt p ∧ SvOnly wr' t p) ∧
      (n % l.2 = 0 → v.mpu .write n = some att → cachedAt att n = true → findLine v.dcache (n / 64) = some c →
        Runs l.1 s fun t => SvOnly r t p ∧ t.svAt p = { v with dcache := v.dcache.map fun (x : CacheLine) =>
          if x.line = n / 64 then { x with data := patchLine x.data (n % 64) l.2 (v.get rd).toNat, dirty := true } else x }) ∧
      (v.mpu .write n = none → SvTraps s l.1 p 5 a pc) ∧ (v.mpu .write n = some att → n % l.2 ≠ 0 → SvTraps s l.1 p 6 a pc)) ∧
    (let m := (v.get ra).toNat
      let rd' := r.busRead i m 4
      v.mpu .write m = some att → m % 4 = 0 → rd'.resp = .data o →
        (o ≠ v.get rb → Runs (.cas q rd ra rb) s fun t => t.svAt p = (rd'.svAt p).set rd o ∧ SvOnly rd' t p) ∧
        (o = v.get rb → (rd'.busWrite i m 4 (v.get rd)).resp ≠ .busError → Runs (.cas q rd ra rb) s fun t =>
          t.svAt p = ((rd'.busWrite i m 4 (v.get rd)).svAt p).set rd o ∧ SvOnly (rd'.busWrite i m 4 (v.get rd)) t p)) ∧
    (2 ≤ v.pl → sp.toNat % 32 = 0 → 0x08000000 ≤ sp.toNat → sp.toNat + 32 ≤ 0x08080000 →
      (∀ k : Fin 16, (v.mpuLimit[k]).getLsbD 5 = false) → Runs (.fspill q) s fun t =>
        (t.svAt p).fsp = sp ∧ (∀ k : Fin 8, t.cellWord (tcm + sp.toNat % 0x80000 + 4 * k) = v.regIn ((v.cfr + 1) % 8) (8 + k)) ∧
        t.svAt p = { v with fsp := sp } ∧ (∀ x : Nat, x < tcm + sp.toNat % 0x80000 ∨ tcm + sp.toNat % 0x80000 + 32 ≤ x → t.cell x = s.cell x) ∧ RegsBut s t []) ∧
    (2 ≤ v.pl → v.fsp.toNat % 32 = 0 → 0x08000000 ≤ v.fsp.toNat → v.fsp.toNat + 32 ≤ 0x08080000 →
      (∀ k : Fin 16, (v.mpuLimit[k]).getLsbD 5 = false) → Runs (.ffill q) s fun t =>
        (t.svAt p).fsp = v.fsp + 32 ∧ (∀ k : Fin 8, (t.svAt p).regIn ((v.cfr + 6) % 8) (8 + k) = s.cellWord (tcm + v.fsp.toNat % 0x80000 + 4 * k)) ∧
        MemSame s t ∧ RegsBut s t []) ∧
    (2 ≤ v.pl → sp.toNat % 32 ≠ 0 →
      ((∀ k : Fin 8, (v.mpu .write (sp + BitVec.ofNat 32 (4 * k.val)).toNat).isSome = true) → SvTraps s (.fspill q) p 6 sp pc ∧ SvNests s (.fspill q) p 6) ∧
      (v.mpu .write sp.toNat = none → SvTraps s (.fspill q) p 5 sp pc ∧ SvNests s (.fspill q) p 5)) ∧
    (2 ≤ v.pl → v.fsp.toNat % 32 ≠ 0 →
      ((∀ k : Fin 8, (v.mpu .read (v.fsp + BitVec.ofNat 32 (4 * k.val)).toNat).isSome = true) → SvTraps s (.ffill q) p 6 v.fsp pc) ∧
      (v.mpu .read v.fsp.toNat = none → SvTraps s (.ffill q) p 5 v.fsp pc))

/-- Control registers, WAIT, FENCE, caches (R387, R393, R395, R399, R404, R407): a control register by number, with its levels; what a write changes, and the
writes that are illegal; a pair that waits issues nothing until an interrupt that it would take; cache lines go, or are written back. -/
def SupervisorSystemRules : Prop :=
  ∀ (s : State) (q : Fin 2) (rd ra : Fin 16) (n : Byte) (lvl : Nat) (c : CacheLine),
    let p := q.val
    let r := s.svFetched p
    let v := r.svAt p
    let w := v.get rd
    let pc := (s.svAt p).pc
    let k := n.toNat
    let ln := (v.get ra).toNat / 64
    let only (i : Instr) (l : Nat) (g : Sv → Sv) := SvDoes s i p l fun v t => t = g v
    let wr (g : Sv → Sv) := only (.wrcr q rd n) 2 g
    let gone (l : List CacheLine) := l.filter fun (x : CacheLine) => x.line != ln
    (crRead k = some lvl →
      (SvDoes s (.rdcr q rd n) p lvl fun v t => t = v.set rd (r.crGet p v k)) ∧ ((s.svAt p).pl < lvl → SvTraps s (.rdcr q rd n) p 3 0 pc)) ∧
    (crRead k = none → SvTraps s (.rdcr q rd n) p 2 0 pc) ∧
    (crWrite k = some lvl → (s.svAt p).pl < lvl → SvTraps s (.wrcr q rd n) p 3 0 pc) ∧
    (crWrite k = none → SvTraps s (.wrcr q rd n) p 2 0 pc) ∧
    (k = 0 → (s.svAt p).pl = 1 → SvDoes s (.wrcr q rd n) p 1 fun v t => t = { v with st := t.st } ∧
      ∀ j, t.st.getLsbD j = if j < 9 then w.getLsbD j else v.st.getLsbD j) ∧
    (k = 0 → bits w.toNat 11 10 ≠ 3 → bits w.toNat 18 16 ≠ v.rsv.toNat % 8 → SvDoes s (.wrcr q rd n) p 2 fun v t => t = { v with st := t.st } ∧
      ∀ j, t.st.getLsbD j = if j < 9 ∨ 16 ≤ j ∧ j < 19 then w.getLsbD j else v.st.getLsbD j) ∧
    (2 ≤ v.pl → k = 0 → bits w.toNat 11 10 = 3 ∨ bits w.toNat 18 16 = v.rsv.toNat % 8 → SvTraps s (.wrcr q rd n) p 2 0 pc) ∧
    (2 ≤ v.pl → k = 1 → w.toNat % 8 = v.cfr → SvTraps s (.wrcr q rd n) p 2 0 pc) ∧
    (k = 1 → w.toNat % 8 ≠ v.cfr → wr fun v => { v with rsv := w &&& 7 }) ∧ (k = 2 → wr fun v => { v with tvec := w &&& 0xFFFFF000 }) ∧
    (k = 6 → wr fun v => { v with fsp := w }) ∧ (k = 8 → wr fun v => { v with icSel := w &&& 0xFF }) ∧
    (k = 9 → SvDoes s (.wrcr q rd n) p 2 fun v t => t = { v with icCfg := t.icCfg, icEdge := t.icEdge, icHigh := t.icHigh } ∧
      Tbl.get 0 t.icCfg v.icSel.toNat = w &&& 0x1F ∧ ∀ j, j ≠ v.icSel.toNat → Tbl.get 0 t.icCfg j = Tbl.get 0 v.icCfg j) ∧
    (k = 0x10 → wr fun v => { v with ptCtl := w &&& 1 }) ∧ (k = 0x11 → wr fun v => { v with ptId := w &&& 15 }) ∧
    (k = 0x13 → w = 0 → wr fun v => { v with ptMused := 0 }) ∧ (k = 0x15 → wr fun v => { v with ptStat := v.ptStat &&& ~~~w }) ∧
    (0x20 ≤ k → k < 0x2F → wr fun v => { v with ptBud := v.ptBud.setIfInBounds (k - 0x20) w }) ∧
    (∀ g : Fin 16, (v.mpuLimit[g]).getLsbD 5 = false → (k = 0x41 + 2 * g.val → wr fun v => { v with mpuLimit := v.mpuLimit.setIfInBounds g w }) ∧
      (k = 0x40 + 2 * g.val → wr fun v => { v with mpuBase := v.mpuBase.setIfInBounds g (w &&& 0xFFFFFFC0) })) ∧
    (∀ g : Fin 16, (v.mpuLimit[g]).getLsbD 5 = true → k = 0x40 + 2 * g.val ∨ k = 0x41 + 2 * g.val → wr fun v => v) ∧
    (only (.wait q) 1 fun v => { v with waiting := (r.svTakes v).isNone }) ∧
    ((s.svAt p).waiting = true → s.svTakes (s.svAt p) = none → Runs (.nop (.sv q)) s fun t => t = s) ∧
    only (.fence q) 0 (fun v => v) ∧
    only (.invalidateILine q ra) 1 (fun v => { v with icache := gone v.icache }) ∧ only (.invalidateICache q) 1 (fun v => { v with icache := [] }) ∧
    only (.invalidateDLine q ra) 1 (fun v => { v with dcache := gone v.dcache }) ∧
    (findLine v.dcache ln = some c → c.dirty = true → s.svCan p 1 = true → 0x09000000 + 0x1000000 * (1 - p) ≤ 64 * ln → 64 * ln < 0x09080000 + 0x1000000 * (1 - p) → p = 1 →
      (Runs (.cleanDLine q ra) s fun t => (∀ j : Fin 16, t.cellWord (64 * ln + 4 * j) = BitVec.ofNat 32 (c.data.toNat >>> (32 * j.val))) ∧
        (∀ x : Nat, x < 64 * ln ∨ 64 * ln + 64 ≤ x → t.cell x = s.cell x) ∧ (findLine (t.svAt p).dcache ln).map CacheLine.dirty = some false) ∧
      (Runs (.cleanInvalidateDLine q ra) s fun t => (∀ j : Fin 16, t.cellWord (64 * ln + 4 * j) = BitVec.ofNat 32 (c.data.toNat >>> (32 * j.val))) ∧
        (∀ x : Nat, x < 64 * ln ∨ 64 * ln + 64 ≤ x → t.cell x = s.cell x) ∧ findLine (t.svAt p).dcache ln = none)) ∧
    (findLine v.dcache ln = none → only (.cleanDLine q ra) 1 (fun v => v) ∧ only (.cleanInvalidateDLine q ra) 1 (fun v => { v with dcache := gone v.dcache })) ∧
    (s.svCan p 1 = true → Runs (.cleanInvalidateDCache q) s fun t => (t.svAt p).dcache = []) ∧
    (v.dcache.all (fun x => !x.dirty) = true → only (.cleanInvalidateDCache q) 1 fun v => { v with dcache := [] }) ∧
    ((s.svAt p).pl < 1 → SvTraps s (.wait q) p 3 0 pc ∧ SvTraps s (.invalidateICache q) p 3 0 pc)

/-- Events of a pair (R341, R351, R391, R397 to R402): an interrupt, the budget trap before it, the reload and the end of a budget, a pair fault, its restart. -/
def SupervisorEventsRules : Prop :=
  ∀ (s : State) (q : Fin 2) (lat : Word) (lvl src : Nat) (o : Nat), s.domOn (domSv q) = true → s.fc.window = false →
    let p := q.val
    let v := s.svAt p
    let id := v.ptId.toNat
    let left := vget v.ptLeft 0 id
    let sum := v.ptBud.toList.foldl (fun (n : Nat) w => n + w.toNat) 0
    let svSrc := srcId 0x02 p
    let idle (t : State) := (t.svAt p).up = false ∧ (t.svAt p).pc = 0 ∧ (t.svAt p).st = 0x00000A00 ∧ (t.svAt p).rsv = 7 ∧ (t.svAt p).icache = [] ∧
      (t.svAt p).dcache = [] ∧ t.cpArmed = s.cpArmed.filter (fun e => e.1 != p) ∧
      t.svAt (1 - p) = { s.svAt (1 - p) with icEdge := (t.svAt (1 - p)).icEdge } ∧ MemSame s t
    let recent := v.restartedAt.any fun c => decide (s.clock < c + 60000 * msTicks)
    (v.up = true → v.budgetPending = false → s.svTakes v = some (lvl, src) → Runs (.interruptTaken q lat) s fun t =>
      (t.svAt p).icClaim = BitVec.ofNat 32 (256 * lvl + src) ∧ (t.svAt p).icEdge = v.icEdge.filter (fun e => e != src) ∧
      v.tookTrap (t.svAt p) (0x40 + lvl) (BitVec.ofNat 32 src) v.pc ∧ MemSame s t ∧ t.fc = s.fc ∧ t.svAt (1 - p) = s.svAt (1 - p)) ∧
    (∀ x, s.svTakes v = some x → v.ie = true ∧ v.ten = true ∧ v.imask < x.1 ∧ s.irqPending v x.2 = true) ∧
    (s.svTakes v = none → Runs (.interruptTaken q lat) s fun t => t = s) ∧
    (v.budgetPending = true → Runs (.interruptTaken q lat) s fun t => t = s) ∧
    (v.up = true → v.ten = true → v.budgetPending = true → Runs (.budgetTrapTaken q) s fun t =>
      v.tookTrap (t.svAt p) 0x0B v.ptId v.pc ∧ SvOnly s t p) ∧
    (Runs (.partitionReload q) s fun t => (∀ k : Fin 15, vget (t.svAt p).ptLeft 0 k = (vget v.ptBud 0 k).toNat) ∧
      (t.svAt p).ptStat = (if 16 * (s.grid.2.2 * s.grid.1) < 5 * sum then v.ptStat ||| 1 else v.ptStat) ∧
      t.svAt p = { v with ptLeft := (t.svAt p).ptLeft, ptStat := (t.svAt p).ptStat } ∧ SvOnly s t p) ∧
    (v.up = true → v.pl < 2 → id < 15 → Runs (.partitionBudgetExhausted q) s fun t =>
      vget (t.svAt p).ptLeft 0 id = 0 ∧ (t.svAt p).ptOvr = v.ptOvr ∧ t.svAt p = { v with ptLeft := (t.svAt p).ptLeft } ∧ SvOnly s t p ∧
      Tbl.get 0 t.perf (256 * p) = min (Tbl.get 0 s.perf (256 * p) + left) (2 ^ 48 - 1)) ∧
    (v.up = true → recent = false → Runs (.svPairFault q) s fun t => idle t ∧ ContainedOnce s t svSrc ∧
      ExpiresAt t (.svRestart p) (s.clock + 15 * msTicks) ∧ RegsOutside s t 0x4001) ∧
    (v.up = true → recent = true → Runs (.svPairFault q) s fun t => idle t ∧ FatalOnce s t svSrc ∧ t.timerOn (.svRestart p) = s.timerOn (.svRestart p)) ∧
    (v.up = false → Runs (.svPairFault q) s fun t => t = s) ∧
    (s.timerOn (.svRestart p) = true → vget s.boot.slot none p = some o → s.imageHash o = s.hdrHash o → Runs (.svRestartDone q) s fun t =>
      (t.svAt p).up = true ∧ (t.svAt p).restartedAt = some s.clock ∧ t.timerOn (.svRestart p) = false ∧ t.fc = s.fc) ∧
    (s.timerOn (.svRestart p) = true → vget s.boot.slot none p = none → Runs (.svRestartDone q) s fun t =>
      FatalOnce s t hostSrc ∧ t.timerOn (.svRestart p) = false ∧ t.svAt p = { v with icEdge := (t.svAt p).icEdge })

/-- Supervisor cores: system instructions and events. -/
def Obligations.SupervisorControl : Prop :=
  SupervisorSystemRules ∧ SupervisorEventsRules

/-! ## Performance counters and acquisition -/

/-- Counters, tags, histograms (R408 to R413): PERF_CLR clears the counters of its unit and no other; a read of LO latches HI for its initiator; a tag record;
EMPTY; a histogram's bins clear at a write of its configuration; and who may read and write the block. -/
def PerformanceCountersRules : Prop :=
  ∀ (s : State) (i : Initiator) (p : Fin 2) (u : Fin 15) (e : Fin 256) (h : Fin 8) (w : Word) (stamps : BitVec 40) (flags : BitVec 5) (a : Nat),
    let may := i = .wharf ∨ i = .jtag ∨ (i = .sv0 ∨ i = .sv1) ∧ s.level i ≠ 0
    let cnt (t : State) := Tbl.get 0 t.perf a
    let unit := a / 256
    let cleared (c : Instr) (hit : Bool) :=
      (may → Runs c s fun t => cnt t = (if hit then 0 else cnt s) ∧ t.resp = .done ∧ RegsBut s t [] ∧ MemSame s t ∧ t.fc = s.fc) ∧
      (¬ may → Refused c s)
    let k := 256 * u.val + e.val
    let v := Tbl.get 0 s.perf k
    let lo := perfLoAddr u e
    let known := u.val < 2 ∨ u.val < 14 ∧ e.val < 128 ∨ e.val < 64
    let n := s.fld (TAG_STAT p) Fld.TAG_STAT_LEVEL
    let x := s.svAt p
    let l := s.fld (TAG_LFSR p) Fld.TAG_LFSR_STATE
    let lb := BitVec.ofNat 16 l
    let next (t : State) := (t.svAt p).tagCnt = max 1 (s.fld (TAG_CFG p) Fld.TAG_CFG_BASE) + l % 2 ^ s.fld (TAG_CFG p) Fld.TAG_CFG_J ∧
      BitVec.ofNat 16 (t.fld (TAG_LFSR p) Fld.TAG_LFSR_STATE) = BitVec.cons (lb.getLsbD 0 ^^ lb.getLsbD 2 ^^ lb.getLsbD 3 ^^ lb.getLsbD 5) (lb.extractLsb' 1 15) ∧
      t.svAt p = { x with tagCnt := (t.svAt p).tagCnt } ∧ t.svAt (1 - p) = s.svAt (1 - p) ∧ MemSame s t
    let r := TAG_REC p n
    (s.reachable PERF_CLR = true → cleared (.perfClrSv0 i) (unit == 0) ∧ cleared (.perfClrSv1 i) (unit == 1) ∧
      cleared (.perfClrLe i) (decide (2 ≤ unit ∧ unit < 14)) ∧ cleared (.perfClrTow i) (unit == 14)) ∧
    (known →
      (s.perfReadOk i lo = true → s.domOn domTP = true → s.domOn (cntDomain u) = true → Runs (.perfCounterLo i u e) s fun t =>
        t.resp = .data (BitVec.ofNat 32 v) ∧ Tbl.get 0 t.hiLatch (2 ^ 32 * initNo i + lo + 4) = cntHi v ∧ t.perf = s.perf ∧ RegsBut s t []) ∧
      (s.perfReadOk i lo = false → Runs (.perfCounterLo i u e) s fun t => t = { s with resp := .busError }) ∧
      (s.level i ≠ 0 → s.perfReadOk i lo = true)) ∧
    (s.tagOn p = true → x.tagCnt = 0 → x.up = true →
      (n < 16 → Runs (.instructionTag p stamps flags) s fun t =>
        t.reg r = x.pc ∧ t.reg (r + 4) = stamps.setWidth 32 ∧ t.reg (r + 12) = BitVec.ofNat 32 s.ticks ∧
        t.reg (r + 8) = BitVec.ofNat 32 (stamps.toNat / 2 ^ 32 + 2 ^ 8 * flags.toNat + 2 ^ 16 * x.pl + 2 ^ 20 * (x.ptId.toNat % 16)) ∧
        t.fld (TAG_STAT p) Fld.TAG_STAT_LEVEL = n + 1 ∧ next t ∧ RegsBut s t [r, r + 4, r + 8, r + 12, TAG_STAT p, TAG_LFSR p]) ∧
      (16 ≤ n → Runs (.instructionTag p stamps flags) s fun t =>
        Counted s t (TAG_STAT p) Fld.TAG_STAT_MISSED ∧ next t ∧ RegsBut s t [TAG_STAT p, TAG_LFSR p])) ∧
    (s.reachable (TAG_CLR p) = true → may → Runs (.tagEmpty i p) s fun t => t.fld (TAG_STAT p) Fld.TAG_STAT_LEVEL = 0 ∧
      (∀ j : Fin 16, t.reg (TAG_REC p j) = 0) ∧ t.fld (TAG_STAT p) Fld.TAG_STAT_MISSED = s.fld (TAG_STAT p) Fld.TAG_STAT_MISSED ∧
      RegsOutside s t 0x400B ∧ t.reg (TAG_CFG p) = s.reg (TAG_CFG p) ∧ t.resp = .done) ∧
    (s.reachable (TAG_CLR p) = true → ¬ may → Refused (.tagEmpty i p) s) ∧
    (s.reachable (HIST_CFG h) = true → may → Runs (.histCfgWrite i h w) s fun t => (∀ j : Fin 16, t.reg (HIST_BIN h j) = 0) ∧
      t.fld (HIST_CFG h) Fld.HIST_CFG_KIND = fget w Fld.HIST_CFG_KIND ∧ t.fld (HIST_CFG h) Fld.HIST_CFG_SHIFT = fget w Fld.HIST_CFG_SHIFT ∧
      t.fld (HIST_CFG h) Fld.HIST_CFG_SEL = fget w Fld.HIST_CFG_SEL ∧ RegsOutside s t 0x400B ∧ t.resp = .done) ∧
    (s.reachable (HIST_CFG h) = true → ¬ may → Refused (.histCfgWrite i h w) s)

/-- Acquisition (R415 to R422, R425 to R427): the latch takes the samples while the sequencer runs, and clears the valid bits; a flight that DECIM divides stores
one record in its ring slot and nothing else in memory; the states by PRE, the pattern and POST; START with its checks, STOP and FORCE. -/
def AcquisitionCaptureRules : Prop :=
  ∀ (s : State) (c : Fin 64) (k : Nat), s.domOn domAQ = true →
    let q := s.acq
    let f := s.tt.flightNo
    let st (t : State) := t.acqState
    let cause (t : State) := t.fld ACQ_STAT Fld.ACQ_STAT_CAUSE
    let busy := 1 ≤ st s ∧ st s ≤ 3
    let decim := s.fld ACQ_CFG Fld.ACQ_CFG_DECIM
    let l := s.probesOn
    let d := depthOf q.size
    let slot := 0x14000000 + 4 * (q.stored % d * q.size)
    let p := s.probe c
    let raw := if p.kind = 0 then (Tbl.get 0 q.slots p.slot).toNat else if p.kind = 1 then (s.reg FIO_DI).toNat else if p.kind = 2 then (s.reg FIO_DO).toNat else f
    let got := p.kind ≠ 0 ∨ q.valid.contains p.slot = true
    let field := raw / 2 ^ p.pos % 2 ^ p.w
    let hist (c : Nat) := (s.sampleOf c :: vget q.hist [] c).take 256
    let cond (c : Nat) := s.acqCond c (s.sampleOf c)
    let fires := s.patternHolds cond = true ∧ (s.flag ACQ_CFG Fld.ACQ_CFG_TMODE = true → q.held = false)
    let noMask := ∀ m : Fin 4, s.flag (ACQ_M_CFG m) Fld.ACQ_M_CFG_EN = false
    let records := s.fld ACQ_PRE Fld.ACQ_PRE_RECORDS + s.fld ACQ_POST Fld.ACQ_POST_RECORDS + 1
    let done (t : State) (n : Nat) := st t = 4 ∧ cause t = n ∧ t.reg ACQ_COUNT = BitVec.ofNat 32 (min q.stored d) ∧
      t.reg ACQ_OLDEST = BitVec.ofNat 32 (if q.stored ≤ d then 0 else q.stored % d) ∧
      t.reg ACQ_TRIGREC = (match q.trig with | some j => BitVec.ofNat 32 j | none => 0xFFFFFFFF)
    (Runs .acqLatch s fun t => t.acq.valid = [] ∧ t.acq.slots = q.slots ∧ RegsOutside s t 0x400A ∧ t.fc = s.fc ∧
      (s.running = false → RegsBut s t [] ∧ MemSame s t ∧ t.acq = { q with valid := [], hist := Vector.replicate 64 [] }) ∧
      (s.running = true →
        (p.on = true → f < 2 ^ 64 → (got → p.signed = false → t.reg (ACQ_P_LAST c) = BitVec.ofNat 32 field) ∧
          (got → p.signed = true → t.reg (ACQ_P_LAST c) = BitVec.ofInt 32 (sxt p.w field)) ∧ (¬ got → t.reg (ACQ_P_LAST c) = 0x80000000)) ∧
        vget t.acq.hist [] c = hist c ∧ t.acq.held = s.patternHolds cond ∧
        (¬ busy → st t = st s ∧ MemSame s t) ∧
        (busy → f % decim ≠ 0 → MemSame s t ∧ t.acq.stored = q.stored) ∧
        (busy → f % decim = 0 → q.size = l.length + 1 → d ≠ 0 →
          t.acq.stored = q.stored + 1 ∧ t.acq.last = some f ∧
          (t.cellWord slot).toNat % 2 ^ 24 = f % 2 ^ 24 ∧ (t.cellWord slot).toNat / 2 ^ 28 = 0 ∧
          (t.cellWord slot).getLsbD 27 = q.last.any (fun x => f != x + decim) ∧
          (∀ x, l[k]? = some x → t.cellWord (slot + 4 * (k + 1)) = recordWord (averaged (s.probe x).avg (hist x))) ∧
          (∀ x : Nat, x < slot ∨ slot + 4 * q.size ≤ x → t.cell x = s.cell x) ∧
          (st s = 1 → q.force = false → st t = if s.fld ACQ_PRE Fld.ACQ_PRE_RECORDS ≤ q.stored + 1 then 2 else 1)) ∧
        (st s = 2 → fires → t.reg ACQ_TFLIGHT_LO = BitVec.ofNat 32 f ∧ t.reg ACQ_TFLIGHT_HI = BitVec.ofNat 32 (f / 2 ^ 32) ∧
          cause t = 1 ∧ (st t = 3 ∨ st t = 4)) ∧
        (st s = 2 → ¬ fires → noMask → q.force = false → st t = 2) ∧
        (st s = 1 ∨ st s = 2 → q.force = true → ¬ (st s = 2 ∧ fires) → noMask → cause t = 3 ∧ (st t = 3 ∨ st t = 4)))) ∧
    (s.reachable ACQ_CTRL = true →
      (¬ busy → s.acqStartOk = true → Runs .acqStart s fun t => st t = 1 ∧ t.reg ACQ_COUNT = 0 ∧ t.reg ACQ_DEPTH = BitVec.ofNat 32 (depthOf (l.length + 1)) ∧
        t.acq.stored = 0 ∧ t.acq.size = l.length + 1 ∧ t.acq.trig = none ∧ t.resp = .done ∧ MemSame s t ∧ RegsOutside s t 0x400A) ∧
      (¬ busy → l = [] ∨ decim = 0 ∨ s.running = false ∨ depthOf (l.length + 1) < records ∨
          (∃ x ∈ l, decim < 2 ^ (s.probe x).avg ∨ (s.probe x).w = 0 ∨ 24 < (s.probe x).w ∨ 64 < (s.probe x).pos + (s.probe x).w) →
        Runs .acqStart s fun t => t.flag ACQ_STAT Fld.ACQ_STAT_CFG_ERR = true ∧ st t = st s ∧ t.acq = s.acq ∧ RegsBut s t [ACQ_STAT]) ∧
      (busy → Runs .acqStart s fun t => t = { s with resp := .done }) ∧
      (busy → Runs .acqStop s fun t => done t 4 ∧ t.resp = .done ∧ MemSame s t ∧ t.acq.stored = q.stored ∧
        RegsBut s t [ACQ_STAT, ACQ_COUNT, ACQ_OLDEST, ACQ_TRIGREC]) ∧
      (¬ busy → Runs .acqStop s fun t => t = { s with resp := .done }) ∧
      (st s = 1 ∨ st s = 2 → Runs .acqForce s fun t => t.acq = { q with force := true } ∧ RegsBut s t [] ∧ t.resp = .done) ∧
      (st s ≠ 1 → st s ≠ 2 → Runs .acqForce s fun t => t = { s with resp := .done }))

/-- Performance counters and the acquisition unit. -/
def Obligations.CountersAndCapture : Prop :=
  PerformanceCountersRules ∧ AcquisitionCaptureRules

/-! ## Line time and Ethernet -/

/-- A read of TIME_NOW_LO returns line time bits 31:0 and latches bits 63:32 into TIME_NOW_HI for the same initiator (R429); no other
latch, no register, no byte of memory and no part of line time changes. -/
def Obligations.TimeReads : Prop :=
  ∀ (s : State) (i : Initiator) (j : Nat), s.domOn domNW = true → Runs (.timeNowLo i) s fun t =>
    t.resp = .data (s.time.line.extractLsb' 0 32) ∧
    Tbl.get 0 t.hiLatch (2 ^ 32 * initNo i + TIME_NOW_HI) = s.time.line.extractLsb' 32 32 ∧
    (j ≠ 2 ^ 32 * initNo i + TIME_NOW_HI → Tbl.get 0 t.hiLatch j = Tbl.get 0 s.hiLatch j) ∧ RegsBut s t [] ∧ MemSame s t ∧ t.time = s.time

/-- A read of line time without NW, compare units, steps (R431, R433, R552). -/
def LineTimeCommandsRules : Prop :=
  ∀ (s : State) (i : Initiator) (k : Fin 8) (w : Word) (j : Nat),
    let stat := s.reg TIME_CMPSTAT
    let since := BitVec.ofNat 32 s.ticks - s.reg (TIME_CMP k)
    let bit (t : State) (b : Nat) := (t.reg TIME_CMPSTAT).getLsbD b
    let still := s.mode ≠ .run ∧ s.mode ≠ .degraded ∧ s.mode ≠ .safeStop ∧ ∀ n, n < axisCount s.part → s.en n = false
    let delta : Int := if fget w Fld.TIME_CTRL_STEP_MEAS = 1 then -(s.time.ofs.getD 0) else
      (s.reg TIME_STEP_HI ++ s.reg TIME_STEP_LO).toInt
    (s.domOn domNW = false → Runs (.timeNowLo i) s fun t => t = { s with resp := .data 0 }) ∧
    (s.reachable (TIME_CMP k) = true → Runs (.timeCmpArm k w) s fun t => t.reg (TIME_CMP k) = w ∧ bit t k = true ∧ t.resp = .done ∧
      (j ≠ k → bit t j = stat.getLsbD j) ∧ RegsBut s t [TIME_CMP k, TIME_CMPSTAT] ∧ t.time = s.time ∧ MemSame s t) ∧
    (s.domOn domNW = true → bit s k = true → since.msb = false → Runs (.timeCmpFire k) s fun t => bit t k = false ∧ bit t (8 + k) = true ∧
      (j ≠ k → j ≠ 8 + k → bit t j = stat.getLsbD j) ∧ RegsBut s t [TIME_CMPSTAT] ∧ t.time = s.time ∧ MemSame s t) ∧
    (s.domOn domNW = false ∨ bit s k = false ∨ since.msb = true → Runs (.timeCmpFire k) s fun t => t = s) ∧
    (s.reachable TIME_CTRL = true →
      (still → (fget w Fld.TIME_CTRL_STEP_MEAS = 1 → s.time.ofs ≠ none) → Runs (.timeStep w) s fun t =>
        t.time = { s.time with step := some delta } ∧ t.resp = .done ∧ t.fld TIME_CTRL Fld.TIME_CTRL_SERVO_EN = fget w Fld.TIME_CTRL_SERVO_EN ∧
        t.fld TIME_CTRL Fld.TIME_CTRL_STEP_OK = fget w Fld.TIME_CTRL_STEP_OK ∧ MemSame s t ∧ RegsBut s t [TIME_CTRL, TIME_RATE] ∧
        t.reg TIME_RATE = (if fget w Fld.TIME_CTRL_SERVO_EN = 1 then s.reg TIME_RATE else
          BitVec.ofInt 32 (max (-549755813) (min 549755813 (s.reg TIME_RATE_MAN).toInt)))) ∧
      (¬ still ∨ fget w Fld.TIME_CTRL_STEP_MEAS = 1 ∧ s.time.ofs = none → Refused (.timeStep w) s ∧
        Runs (.timeStep w) s fun t => t.time = s.time))

/-- A Sync (R430, R432, R433, R436, R437, R445): it is relayed with its corrections; one of another domain or grandmaster, or out of
the epoch's range, is not measured; else its offset is shown, and by the state table the servo takes it, the counter locks, the
reference qualifies, or a switch is abandoned. -/
def Obligations.PtpSyncs : Prop :=
  ∀ (s : State) (p : Fin 2) (f : PtpSync), s.portUp p = true →
    let q : Nat := 1 - p
    let x := s.refAt p
    let mine := f.domain.toNat = s.fld TIME_PTP_CFG Fld.TIME_PTP_CFG_DOMAIN ∧ s.eth.gm = some f.gm
    let ref : Int := 16 * (f.origin : Int) + f.corr.toInt / 4096 + (s.reg (ETH_P_DELAY p)).toInt + (s.reg (ETH_P_ASYM p)).toInt -
      16 * 1000000000 * 268435456 * s.fld TIME_EPOCH Fld.TIME_EPOCH_E
    let inside := 0 ≤ ref ∧ ref ≤ 2 ^ 64
    let o : Int := f.stamp.toNat - ref
    let lock := s.fld TIME_THR Fld.TIME_THR_LOCK_THR
    let on := s.flag TIME_CTRL Fld.TIME_CTRL_SERVO_EN = true
    let prio (k : Nat) := s.fld TIME_REF_CFG (if k = 2 then Fld.TIME_REF_CFG_PRIO_CAN else Fld.TIME_REF_CFG_PRIO_PTP)
    let st := s.timeState
    let cur := s.timeRef
    let valid := mine ∧ inside ∧ prio p ≠ 15 ∧ ¬ (st = 2 ∧ 16 * lock < o.natAbs)
    let interval := 250000000 / 2 ^ ((16 - s.fld TIME_PTP_CFG Fld.TIME_PTP_CFG_LOG_SYNC) % 16)
    let near := x.last.any (fun l => decide (2 * (s.clock - l) ≤ 3 * interval)) = true
    let qualifies := valid ∧ on ∧ x.qual = false ∧ near ∧ 15 ≤ x.run
    let thr := 10 * s.fld TIME_THR Fld.TIME_THR_STEP_THR
    let stepOk := s.flag TIME_CTRL Fld.TIME_CTRL_STEP_OK = true
    let lim (v : Int) := max (-549755813) (min 549755813 v)
    let acc := lim (s.time.acc + o * 2 ^ s.fld TIME_SERVO Fld.TIME_SERVO_KI_SH)
    let rate := lim (s.time.rate0 - o * 2 ^ s.fld TIME_SERVO Fld.TIME_SERVO_KP_SH - acc)
    let better := prio p < prio cur ∨ prio p = prio cur ∧ cur < 2 ∧ (s.fld (ETH_P_STAT p) Fld.ETH_P_STAT_STEPS_REM < s.fld (ETH_P_STAT cur) Fld.ETH_P_STAT_STEPS_REM ∨
      s.fld (ETH_P_STAT p) Fld.ETH_P_STAT_STEPS_REM = s.fld (ETH_P_STAT cur) Fld.ETH_P_STAT_STEPS_REM ∧ p.val < cur)
    let src (t : State) := t.timeRef
    let counts (t : State) (g : Fld) := Counted s t TIME_CNT g
    let window (t : State) := t.timeState = 4 ∧ t.time.cand = some p.val ∧ ExpiresAt t .switchWindow (s.clock + 4 * interval)
    Runs (.ptpSync p f) s fun t =>
      Counted s t (ETH_P_CNT_RX p) ⟨31, 0⟩ ∧ MemSame s t ∧
      RegsBut s t [ETH_P_CNT_RX p, ETH_P_CNT_TX q, TIME_STAT, TIME_OFS, TIME_RATE, TIME_CNT] ∧
      (s.portUp q = true → Counted s t (ETH_P_CNT_TX q) ⟨31, 0⟩ ∧
        (t.ethPort q).sync = some (f.origin, f.corr.toInt +
          ((f.egress - f.stamp).toInt + (s.reg (ETH_P_DELAY p)).toInt) * 4096 * (2 ^ 41 + f.csro.toInt + (s.ethPort p).nrr) / 2 ^ 41,
          f.csro.toInt + (s.ethPort p).nrr)) ∧
      (s.portUp q = false → t.eth = s.eth ∧ t.reg (ETH_P_CNT_TX q) = s.reg (ETH_P_CNT_TX q)) ∧
      (¬ mine → t.time = s.time ∧ t.reg TIME_STAT = s.reg TIME_STAT ∧ t.reg TIME_OFS = s.reg TIME_OFS) ∧
      (mine → ¬ inside → t.time = s.time ∧ t.flag TIME_STAT Fld.TIME_STAT_EPOCH_ERR = true ∧ t.timeState = st ∧ t.reg TIME_OFS = s.reg TIME_OFS) ∧
      (mine → inside → t.time.ofs = some o ∧ t.reg TIME_OFS = BitVec.ofInt 32 (max (-2147483648) (min 2147483647 o)) ∧ t.time.line = s.time.line) ∧
      (¬ valid → t.timeState = st ∧ src t = cur ∧ t.reg TIME_RATE = s.reg TIME_RATE) ∧
      (¬ on → t.timeState = st ∧ src t = cur ∧ t.reg TIME_RATE = s.reg TIME_RATE) ∧
      (valid → (t.refAt p).last = some s.clock ∧ (t.refAt p).run = (if near then x.run + 1 else 1) ∧ ((t.refAt p).qual = true ↔ x.qual = true ∨ qualifies)) ∧
      (valid → on → st = 1 ∨ st = 2 → cur = p → t.reg TIME_RATE = BitVec.ofInt 32 rate ∧ t.time.acc = acc ∧ t.time.step = s.time.step ∧
        (st = 1 → lock < o.natAbs → t.timeState = 1 ∧ t.time.good = 0) ∧ (st = 2 → t.timeState = 2) ∧
        (st = 1 → o.natAbs ≤ lock → s.time.good < 15 → t.timeState = 1 ∧ t.time.good = s.time.good + 1) ∧
        (st = 1 → o.natAbs ≤ lock → 15 ≤ s.time.good → t.timeState = 2 ∧ t.time.rate0 = (t.reg TIME_RATE).toInt)) ∧
      (qualifies → st = 0 → src t = p ∧ t.timeState = 1 ∧ t.reg TIME_CNT = s.reg TIME_CNT ∧
        (thr < o.natAbs → stepOk → s.stepAllowed = true → t.time.step = some (-o) ∧ t.reg TIME_RATE = s.reg TIME_RATE) ∧
        (thr < o.natAbs → stepOk → s.stepAllowed = false → t.flag TIME_STAT Fld.TIME_STAT_STEP_BLK = true ∧ t.time.step = s.time.step ∧ t.reg TIME_RATE = BitVec.ofInt 32 rate) ∧
        (o.natAbs ≤ thr ∨ ¬ stepOk → t.time.step = s.time.step ∧ t.reg TIME_RATE = BitVec.ofInt 32 rate)) ∧
      (qualifies → st = 3 → window t ∧ t.reg TIME_RATE = s.reg TIME_RATE) ∧
      (qualifies → st = 1 ∨ st = 2 → cur < 3 → cur ≠ p → better → src t = p ∧ counts t Fld.TIME_CNT_SWITCHES ∧ t.timeState = 1 ∧ t.time.step = s.time.step ∧
        t.reg TIME_RATE = BitVec.ofInt 32 rate) ∧
      (qualifies → st = 1 ∨ st = 2 → cur ≠ p → cur < 3 → ¬ better → src t = cur ∧ t.timeState = st ∧ t.reg TIME_RATE = s.reg TIME_RATE) ∧
      (qualifies → st = 4 → cur ≠ p → s.time.cand.any (fun c => s.refBetter p c) = true → window t ∧ src t = cur) ∧
      (valid → on → st = 4 → cur = p → s.time.cand ≠ some p.val → s.due .switchWindow = false → s.time.prev ≠ 4 → ¬ qualifies → s.time.prev ≠ 1 ∨ lock < o.natAbs →
        t.timeState = s.time.prev % 8 ∧ src t = p ∧ counts t Fld.TIME_CNT_ABANDONS ∧ t.time.cand = none ∧ t.timerOn .switchWindow = false)

/-- Losses, windows, holdover and the best master clock algorithm (R436 to R438, R443) with SERVO_EN = 1 outside the continuation
window. -/
def ReferenceStatesRules : Prop :=
  ∀ (s : State) (r : Fin 3) (p : Fin 2) (f : Announce) (b : Nat × BitVec 64) (k : Nat), s.flag TIME_CTRL Fld.TIME_CTRL_SERVO_EN = true → s.fc.window = false →
    let x := s.refAt r
    let lossN := s.fld TIME_REF_CFG Fld.TIME_REF_CFG_LOSS_N
    let lost := x.last.any (fun l => decide (lossN * s.syncInterval r ≤ s.clock - l)) = true
    let st := s.timeState
    let used := s.timeRef = r ∧ (st = 1 ∨ st = 2)
    let frozen (t : State) := t.reg TIME_RATE = s.reg TIME_RATE
    let window (t : State) (k : Nat) := t.timeState = 4 ∧ t.time.cand = some k ∧ ExpiresAt t .switchWindow (s.clock + 4 * s.syncInterval k)
    let held := 250000000 * max 1 (s.fld TIME_HOLD Fld.TIME_HOLD_LIMIT)
    let past := st = 3 ∧ s.time.holdAt.any (fun c => decide (held < s.clock - c)) = true ∧ s.flag TIME_STAT Fld.TIME_STAT_HOLD_LIM = false
    let key := prioKey f.prio1.toNat f.quality.toNat f.prio2.toNat f.gm.toNat f.steps.toNat f.sender.toNat
    let other := (s.ethPort (1 - p)).ann
    let cap := s.flag TIME_PTP_CFG Fld.TIME_PTP_CFG_GM_CAP = true
    let role (t : State) (q : Nat) := t.fld (ETH_P_STAT q) Fld.ETH_P_STAT_PTP_STATE
    let link (q : Nat) := s.flag (ETH_P_STAT q) Fld.ETH_P_STAT_LINK = true
    let elects (t : State) := t.timeState = 5 ∧ t.timeRef = 3 ∧ t.eth.gm = some s.ownClock ∧ (∀ q : Fin 2, role t q = if link q then 1 else 0) ∧ frozen t
    let follows (t : State) (q : Nat) (g : BitVec 64) := t.eth.gm = some g ∧ role t q = (if link q then 2 else 0) ∧ frozen t ∧
      (st = 5 → window t q) ∧ (st ≠ 5 → t.timeState = st ∧ t.timeRef = s.timeRef)
    let near (t : State) := RegsBut s t [TIME_STAT, ETH_P_STAT 0, ETH_P_STAT 1, ETH_P_CNT_RX p] ∧ MemSame s t ∧ t.fc = s.fc
    (¬ lost → Runs (.referenceLoss r) s fun t => t = s) ∧
    (lost → ¬ used → Runs (.referenceLoss r) s fun t => (t.refAt r).qual = false ∧ (t.refAt r).run = 0 ∧ RegsBut s t [] ∧ t.timers = s.timers) ∧
    (lost → used → (∀ q : Fin 3, q ≠ r → (s.refAt q).qual = false) → Runs (.referenceLoss r) s fun t =>
      t.timeState = 3 ∧ t.timeRef = r ∧ t.time.holdAt = some s.clock ∧ frozen t ∧ CorrectedOnce s t ∧ RegsFcBut s t [TIME_STAT] ∧ (t.refAt r).qual = false) ∧
    (lost → used → k < 3 → s.bestOther r = some k → (s.refAt k).qual = true ∧ k ≠ r ∧ Runs (.referenceLoss r) s fun t =>
      window t k ∧ t.timeRef = r ∧ t.time.prev = st ∧ RegsBut s t [TIME_STAT] ∧ t.fc = s.fc) ∧
    (s.time.cand = some k → st = 4 → s.due .switchWindow = true → Runs .switchWindowEnd s fun t => t.timeState = 1 ∧ t.timeRef = k % 4 ∧
      Counted s t TIME_CNT Fld.TIME_CNT_SWITCHES ∧ t.time.line = s.time.line ∧ t.time.step = s.time.step ∧ frozen t ∧ RegsBut s t [TIME_STAT, TIME_CNT] ∧
      t.timerOn .switchWindow = false ∧ t.time.cand = none) ∧
    (s.time.cand = none ∨ st ≠ 4 ∨ s.due .switchWindow = false → Runs .switchWindowEnd s fun t => t = s) ∧
    (past → Runs .holdoverLimit s fun t => t.flag TIME_STAT Fld.TIME_STAT_HOLD_LIM = true ∧ t.timeState = 3 ∧ ContainedOnce s t 0x0D00 ∧ RegsFcBut s t [TIME_STAT] ∧
      t.time = s.time ∧ t.mode = s.mode) ∧
    (¬ past → Runs .holdoverLimit s fun t => t = s) ∧
    (s.portUp p = true → f.domain.toNat ≠ s.fld TIME_PTP_CFG Fld.TIME_PTP_CFG_DOMAIN ∨ f.gm = s.ownClock → Runs (.ptpAnnounce p f) s fun t =>
      t.eth = s.eth ∧ t.time = s.time ∧ RegsBut s t [ETH_P_CNT_RX p]) ∧
    (s.portUp p = true → f.domain.toNat = s.fld TIME_PTP_CFG Fld.TIME_PTP_CFG_DOMAIN → f.gm ≠ s.ownClock → Runs (.ptpAnnounce p f) s fun t =>
      Counted s t (ETH_P_CNT_RX p) ⟨31, 0⟩ ∧ t.fld (ETH_P_STAT p) Fld.ETH_P_STAT_STEPS_REM = f.steps.toNat ∧ (t.ethPort p).ann = some (key, f.gm) ∧ near t ∧
      (cap → s.ownKey < key → other.all (fun b => decide (s.ownKey < b.1)) = true → elects t) ∧
      (¬ cap ∨ key ≤ s.ownKey → other.all (fun b => decide (key < b.1)) = true → follows t p f.gm ∧
        (other.isSome = true → role t (1 - p) = if link (1 - p) then (if other.any (fun b => decide (b.1 < key + 2 ^ 80)) = true then 3 else 1) else 0)) ∧
      (other = some b → b.1 < key → ¬ cap ∨ b.1 ≤ s.ownKey → follows t (1 - p) b.2)) ∧
    (s.domOn domNW = true → Runs (.announceReceiptTimeout p) s fun t => (t.ethPort p).ann = none ∧ near t ∧
      (cap → other.all (fun b => decide (s.ownKey < b.1)) = true → elects t) ∧
      (¬ cap → other = none → t.eth.gm = none ∧ t.timeState = st ∧ (∀ q : Fin 2, role t q = if link q then 1 else 0)) ∧
      (other = some b → ¬ cap ∨ b.1 ≤ s.ownKey → follows t (1 - p) b.2))

/-- Line time and its reference. -/
def Obligations.LineTime : Prop :=
  LineTimeCommandsRules ∧ ReferenceStatesRules

/-- Links, peer delay and the grandmaster's Sync (R439, R443 to R445). -/
def Obligations.PortsAndPeerDelay : Prop :=
  ∀ (s : State) (p : Fin 2) (a b : W64) (nrr : Word) (t1 : W64) (up full an : Bool),
    let on := s.domOn domNW = true ∧ s.fld (ETH_P_CFG p) Fld.ETH_P_CFG_MODE ≠ 0
    let link (t : State) := t.flag (ETH_P_STAT p) Fld.ETH_P_STAT_LINK
    let port (t : State) := t.ethPort p
    let tx := ETH_P_CNT_TX p
    let rx := ETH_P_CNT_RX p
    let rest (t : State) := t.ethPort (1 - p) = s.ethPort (1 - p) ∧ t.time = s.time ∧ MemSame s t
    let trip := (b - a).toInt
    let delay (x : W64) := ((a - x).toInt * (2 ^ 41 + nrr.toInt) / 2 ^ 41 - b.toInt / 4096) / 2
    (s.portUp p = true →
      (Runs (.pdelayReq p a b) s fun t => port t = { port s with resp := some trip } ∧ Counted s t tx ⟨31, 0⟩ ∧ Counted s t rx ⟨31, 0⟩ ∧
        RegsBut s t [tx, rx] ∧ rest t) ∧
      (Runs (.pdelayTx p a) s fun t => port t = { port s with t1 := some a } ∧ Counted s t tx ⟨31, 0⟩ ∧ RegsBut s t [tx] ∧ rest t) ∧
      ((port s).t1 = some t1 → Runs (.pdelayResp p a b nrr) s fun t => t.reg (ETH_P_DELAY p) = BitVec.ofInt 32 (delay t1) ∧
        port t = { port s with t1 := none, nrr := nrr.toInt } ∧ Counted s t rx ⟨31, 0⟩ ∧ RegsBut s t [ETH_P_DELAY p, rx] ∧ rest t) ∧
      ((port s).t1 = none → Runs (.pdelayResp p a b nrr) s fun t => t.eth = s.eth ∧ RegsBut s t [rx]) ∧
      (s.timeState = 5 → Runs (.gmSyncTx p a) s fun t => Counted s t tx ⟨31, 0⟩ ∧ RegsBut s t [tx] ∧ rest t ∧
        port t = { port s with sync := some (s.fld TIME_EPOCH Fld.TIME_EPOCH_E * 2 ^ 28 * 1000000000 + a.toNat / 16, 0, 0) })) ∧
    (s.portUp p = false → (Runs (.pdelayReq p a b) s fun t => t = s) ∧ (Runs (.pdelayTx p a) s fun t => t = s) ∧ (Runs (.pdelayResp p a b nrr) s fun t => t = s)) ∧
    (s.portUp p = false ∨ s.timeState ≠ 5 → Runs (.gmSyncTx p a) s fun t => t = s) ∧
    (on → Runs (.ethLinkChange p up full an) s fun t => link t = (up && full) ∧
      t.flag (ETH_P_STAT p) Fld.ETH_P_STAT_AN_DONE = (an && s.flag (ETH_P_CFG p) Fld.ETH_P_CFG_AN_EN) ∧
      t.flag (ETH_P_STAT p) Fld.ETH_P_STAT_SPEED_ERR = (s.flag (ETH_P_STAT p) Fld.ETH_P_STAT_SPEED_ERR || up && !full) ∧
      RegsBut s t [ETH_P_STAT 0, ETH_P_STAT 1, TIME_STAT] ∧ MemSame s t ∧ t.time.line = s.time.line ∧ t.fc = s.fc ∧
      (link s = true → (up && full) = false → (port t).ann = none ∧ (port t).t1 = none ∧ t.fld (ETH_P_STAT p) Fld.ETH_P_STAT_PTP_STATE = 0) ∧
      (link s = (up && full) → t.eth = s.eth ∧ t.sv = s.sv ∧ t.reg TIME_STAT = s.reg TIME_STAT)) ∧
    (¬ on → Runs (.ethLinkChange p up full an) s fun t => t = s)

/-- The switch and HSR (R439 to R442, R449): forwarding, discarding and counting, the module's own frames, the duplicate table with 512
entries and its ageing, supervision frames and the open ring. -/
def SwitchAndHsrRules : Prop :=
  ∀ (s : State) (p : Fin 2) (f : EthFrame) (n : BitVec 16) (mac : BitVec 48) (e : Nat × Nat × Nat),
    let q : Nat := 1 - p
    let rx := ETH_P_CNT_RX p
    let tx := ETH_P_CNT_TX q
    let err (k : Nat) := ETH_P_CNT_ERR k
    let own := s.ownMac
    let size := 18 + (if f.hsr.isSome then 6 else 0) + f.data.length
    let fits := 64 ≤ size ∧ size ≤ 9216
    let hsr := s.flag ETH_CTRL Fld.ETH_CTRL_HSR_EN = true
    let kept (t : State) (k : Nat) := t.reg k = s.reg k
    let out (t : State) := if s.portUp q = true ∧ f.dst ≠ own then
        Counted s t tx ⟨31, 0⟩ ∧ (f.fcsOk = false → Counted s t (err q) ⟨31, 0⟩) ∧ (f.fcsOk = true → kept t (err q))
      else kept t tx ∧ kept t (err q)
    let word (k : Nat) := (f.data.getD k 0).toNat * 256 + (f.data.getD (k + 1) 0).toNat
    let me := word 6 = 0x8000 ∨ s.flag SYS_ADDR Fld.SYS_ADDR_VALID = true ∧ word 6 = s.fld SYS_ADDR ⟨13, 0⟩ ∨
      s.flag SYS_ADDR Fld.SYS_ADDR_VALID = false ∧ word 6 = 0xC000 ∧ f.data.getD 1 0 = 2 ∧ f.dst = own
    let badTl := f.etype.toNat = s.fld ETH_TL_CFG Fld.ETH_TL_CFG_ETYPE ∧ ((f.data.getD 0 0).toNat ≠ 1 ∨ f.data.length < 16 + word 10 ∨ ¬ me)
    let toNw (t : State) := if badTl then Counted s t ETH_TL_STAT Fld.ETH_TL_STAT_BAD ∧ t.eth.nw = s.eth.nw else t.eth.nw = some f ∧ kept t ETH_TL_STAT
    let near (t : State) := Counted s t rx ⟨31, 0⟩ ∧ MemSame s t ∧ t.time = s.time ∧ t.fc = s.fc ∧
      RegsBut s t [rx, tx, err p, err q, ETH_TL_STAT, ETH_HSR_STAT]
    let dup := s.eth.dup.any (fun d => d.1 == f.src.toNat && d.2.1 == n.toNat) = true
    let run (P : State → Prop) := Runs (.ethFrameRx p f) s P
    (s.portUp p = false → run fun t => t = s) ∧
    (s.portUp p = true → size < 64 → run fun t => near t ∧ kept t tx ∧ kept t (err p) ∧ t.eth = s.eth) ∧
    (s.portUp p = true → 9216 < size → run fun t => near t ∧ kept t tx ∧ Counted s t (err p) ⟨31, 0⟩ ∧ t.eth = s.eth) ∧
    (s.portUp p = true → fits → ¬ hsr → f.fcsOk = true → run fun t => near t ∧ out t ∧ kept t (err p) ∧ kept t ETH_HSR_STAT ∧ t.eth.dup = s.eth.dup ∧
      (f.dst = own ∨ f.dst.getLsbD 40 = true → toNw t) ∧ (f.dst ≠ own → f.dst.getLsbD 40 = false → t.eth = s.eth)) ∧
    (s.portUp p = true → fits → ¬ (hsr ∧ f.src = own) → f.fcsOk = false → run fun t => near t ∧ out t ∧ Counted s t (err p) ⟨31, 0⟩ ∧ t.eth = s.eth) ∧
    (s.portUp p = true → fits → hsr → f.src = own → run fun t => near t ∧ kept t tx ∧ kept t (err q) ∧ t.eth.nw = s.eth.nw ∧ t.eth.dup = s.eth.dup ∧
      (f.etype = 0x88FB → t.eth.sup = 0 ∧ t.flag ETH_HSR_STAT Fld.ETH_HSR_STAT_RING_OPEN = false) ∧ (f.etype ≠ 0x88FB → kept t ETH_HSR_STAT)) ∧
    (s.portUp p = true → fits → hsr → f.src ≠ own → f.fcsOk = true → f.hsr = none → run fun t => near t ∧ out t ∧ toNw t ∧ t.eth.dup = s.eth.dup) ∧
    (s.portUp p = true → fits → hsr → f.src ≠ own → f.fcsOk = true → f.hsr = some n →
      (dup → run fun t => near t ∧ out t ∧ t.eth = s.eth ∧ Counted s t ETH_HSR_STAT Fld.ETH_HSR_STAT_DUPDISC) ∧
      (¬ dup → run fun t => near t ∧ out t ∧ toNw t ∧ kept t ETH_HSR_STAT ∧ (f.src.toNat, n.toNat, s.clock) ∈ t.eth.dup ∧ t.eth.dup.length ≤ 512 ∧
        (s.eth.dup.length < 512 → t.eth.dup = s.eth.dup ++ [(f.src.toNat, n.toNat, s.clock)]) ∧
        (s.eth.dup.length = 512 → t.eth.dup = s.eth.dup.tail ++ [(f.src.toNat, n.toNat, s.clock)]))) ∧
    (s.hsrOn = true → Runs .hsrSupervisionTx s fun t => t.eth = { s.eth with seq := (s.eth.seq + 1) % 65536, sup := s.eth.sup + 1 } ∧
      (∀ k : Fin 2, if s.portUp k then Counted s t (ETH_P_CNT_TX k) ⟨31, 0⟩ else kept t (ETH_P_CNT_TX k)) ∧ RegsBut s t [ETH_P_CNT_TX 0, ETH_P_CNT_TX 1]) ∧
    (s.hsrOn = false → Runs .hsrSupervisionTx s fun t => t = s) ∧
    (s.hsrOn = true → 3 ≤ s.eth.sup → Runs .ringOpen s fun t => t.flag ETH_HSR_STAT Fld.ETH_HSR_STAT_RING_OPEN = true ∧ t.eth = s.eth ∧
      RegsBut s t [ETH_HSR_STAT]) ∧
    (s.hsrOn = false ∨ s.eth.sup < 3 → Runs .ringOpen s fun t => t = s) ∧
    Runs (.hsrEntryAge mac n) s fun t => RegsBut s t [] ∧ t.eth.nw = s.eth.nw ∧
      (e ∈ t.eth.dup ↔ e ∈ s.eth.dup ∧ ¬ (e.1 = mac.toNat ∧ e.2.1 = n.toNat ∧ e.2.2 + 100000000 ≤ s.clock))

/-- Gate control lists and launch queues (R447, R448). -/
def GatesAndLaunchesRules : Prop :=
  ∀ (s : State) (p : Fin 2) (w : Word) (e : LaunchEnt) (l : List LaunchEnt) (k : Nat),
    let x := s.ethPort p
    let lq (t : State) := (t.ethPort p).lq
    let now := s.time.line
    let bank := ETH_P_QBV_CTRL p
    let gcl (t : State) (j : Nat) := Tbl.get (0 : Word) (t.ethPort p).gcl j
    let begins (t : State) (j : Nat) (from_ : W64) := let y := t.ethPort p
      (y.len = 0 → y.gates = 255) ∧ (0 < y.len → j < y.len → y.idx = j ∧ y.gates = bits (gcl t j).toNat 31 24 ∧
        y.fin = from_ + 16 * ((gcl t j).setWidth 24).setWidth 64) ∧ (0 < y.len → y.len ≤ j → y.gates = 0 ∧ y.idx = y.len)
    let others (t : State) := t.ethPort (1 - p) = s.ethPort (1 - p) ∧ t.time = s.time ∧ MemSame s t ∧ t.fc = s.fc
    let change := x.change = true ∧ (BitVec.ofNat 32 s.ticks - s.reg (ETH_P_CHANGE_TIME p)).msb = false
    let cycles := s.domOn domNW = true ∧ s.reg (ETH_P_CYCLE p) ≠ 0
    let newEnt : LaunchEnt := { addr := (x.push[0]).toNat, len := ((x.push[1]).setWidth 14).toNat, cls := ((x.push[1]).extractLsb' 16 3).toNat, at_ := w ++ x.push[2] }
    let full := 64 ≤ x.lq.length ∨ x.lq.getLast?.any (fun y => decide (newEnt.at_ < y.at_)) = true
    let interval (j : Nat) := (gcl s j).toNat % 2 ^ 24
    let opens (j : Nat) := decide ((bits (gcl s j).toNat 31 24).testBit e.cls = true)
    let later := (List.range x.len).drop (x.idx + 1) ++
      (if ((List.range x.len).map interval).sum = (s.reg (ETH_P_CYCLE p)).toNat then (List.range x.len).take (x.idx + 1) else [])
    let ends (n : Nat) := now.toNat + 16 * 8 * (e.len + 12) ≤ x.fin.toNat + 16 * ((later.take n).map interval).sum
    let open_ := x.gates.testBit e.cls = true ∧ (x.len = 0 ∨ (later.length = x.len ∧ later.all opens = true) ∨ ∃ n, (later.take n).all opens = true ∧ ends n)
    (s.domOn domNW = true → x.idx < x.len → x.fin ≤ now → Runs (.gclEntryExpiry p) s fun t => begins t (x.idx + 1) x.fin ∧
      (t.ethPort p).len = x.len ∧ (t.ethPort p).gcl = x.gcl ∧ lq t = x.lq ∧ RegsBut s t [] ∧ others t) ∧
    (s.domOn domNW = false ∨ x.len ≤ x.idx ∨ now < x.fin → Runs (.gclEntryExpiry p) s fun t => t = s) ∧
    (cycles → ¬ change → Runs (.gateCycleStart p) s fun t => begins t 0 now ∧ (t.ethPort p).len = x.len ∧ (t.ethPort p).gcl = x.gcl ∧
      (t.ethPort p).change = x.change ∧ lq t = x.lq ∧ RegsBut s t [] ∧ others t) ∧
    (cycles → change → Runs (.gateCycleStart p) s fun t => begins t 0 now ∧ (t.ethPort p).len = min 256 (s.fld bank Fld.ETH_P_QBV_CTRL_LEN) ∧
      (k < 256 → gcl t k = s.reg (ETH_P_GCL p k) ∧ t.reg (ETH_P_GCL p k) = gcl s k) ∧ t.flag bank Fld.ETH_P_QBV_CTRL_BANK = !s.flag bank Fld.ETH_P_QBV_CTRL_BANK ∧
      (t.ethPort p).change = false ∧ lq t = x.lq ∧ others t ∧ RegsBut s t (bank :: (List.range 256).map (ETH_P_GCL p))) ∧
    (¬ cycles → Runs (.gateCycleStart p) s fun t => t = s) ∧
    (s.reachable bank = true → Runs (.qbvChange p w) s fun t => t.ethPort p = { x with change := true } ∧ t.fld bank Fld.ETH_P_QBV_CTRL_LEN = fget w Fld.ETH_P_QBV_CTRL_LEN ∧
      t.fld bank Fld.ETH_P_QBV_CTRL_BANK = s.fld bank Fld.ETH_P_QBV_CTRL_BANK ∧ RegsBut s t [bank] ∧ others t ∧ t.resp = .done) ∧
    (s.reachable (ETH_P_LQ_PUSH p + 12) = true →
      (full → Runs (.lqPush p w) s fun t => t = { s with resp := .busError }) ∧
      (¬ full → Runs (.lqPush p w) s fun t => t.ethPort p = { x with lq := x.lq ++ [newEnt] } ∧ t.fld (ETH_P_LQ p) Fld.ETH_P_LQ_LEVEL = x.lq.length + 1 ∧
        RegsBut s t [ETH_P_LQ p] ∧ others t ∧ t.resp = .done)) ∧
    (x.lq = e :: l →
      (s.portUp p = true → e.at_ ≤ now → open_ → Runs (.launch p) s fun t => t.ethPort p = { x with lq := l } ∧ Counted s t (ETH_P_CNT_TX p) ⟨31, 0⟩ ∧
        t.fld (ETH_P_LQ p) Fld.ETH_P_LQ_LEVEL = l.length % 128 ∧ RegsBut s t [ETH_P_LQ p, ETH_P_CNT_TX p] ∧ others t) ∧
      (s.portUp p = false ∨ now < e.at_ ∨ ¬ open_ → Runs (.launch p) s fun t => t = s) ∧
      (s.domOn domNW = true → e.at_.toNat + 64 * s.fld (ETH_P_LQ p) Fld.ETH_P_LQ_LATE_NS < now.toNat → Runs (.launchLateDrop p) s fun t =>
        t.ethPort p = { x with lq := l } ∧ Counted s t (ETH_P_CNT_LATE p) ⟨31, 0⟩ ∧ RegsBut s t [ETH_P_LQ p, ETH_P_CNT_LATE p] ∧ others t) ∧
      (now.toNat ≤ e.at_.toNat + 64 * s.fld (ETH_P_LQ p) Fld.ETH_P_LQ_LATE_NS → Runs (.launchLateDrop p) s fun t => t = s)) ∧
    (x.lq = [] → (Runs (.launch p) s fun t => t = s) ∧ Runs (.launchLateDrop p) s fun t => t = s)

/-- The Ethernet switch, HSR, gates and timed launches. -/
def Obligations.SwitchAndGates : Prop :=
  SwitchAndHsrRules ∧ GatesAndLaunchesRules

/-! ## Towline -/

/-- Cyclic frames and messages (R449 to R453, R456): publication takes the enabled objects whose values came and queues one launch frame on
each port; a received object updates a subscription when it is newer; messages fill the FIFO of 32; the status word removes the head
after its payload was read. -/
def TowlineCyclicRules : Prop :=
  ∀ (s : State) (h : TlHdr) (fx : Word) (o : TlObj) (objs : List TlObj) (k : Fin 64) (data : List Byte) (routes : List (Fin 8 × Nat)) (p : Fin 2)
    (m : TlMsg) (l : List TlMsg),
    let on := s.domOn domNW = true ∧ s.flag ETH_CTRL Fld.ETH_CTRL_EN = true
    let dst := h.dst.toNat
    let addr := if s.flag SYS_ADDR Fld.SYS_ADDR_VALID = true then some (s.fld SYS_ADDR ⟨13, 0⟩) else none
    let me := dst = 0x8000 ∨ addr = some dst
    let cfg := s.reg (ETH_TL_SUB k)
    let mine := fget cfg Fld.ETH_TL_SUB_EN = 1 ∧ fget cfg Fld.ETH_TL_SUB_AXIS = o.axis.toNat ∧ o.kind = 0
    let had := vget s.eth.subs none k
    let newer := had.all (fun x => decide (0 < (fx - x.fx).toInt)) = true
    let sub (t : State) := vget t.eth.subs none k
    let bad (c : Instr) := Runs c s fun t => Counted s t ETH_TL_STAT Fld.ETH_TL_STAT_BAD ∧ t.eth = s.eth ∧ RegsBut s t [ETH_TL_STAT]
    let none_ (c : Instr) := Runs c s fun t => t = s
    let subs := (List.range 64).map ETH_TL_SUB
    let cyc := s.fld ETH_TL_CFG Fld.ETH_TL_CFG_CYC_F
    let instant := cyc ≠ 0 ∧ s.tt.flightNo % cyc = s.fld ETH_TL_CFG Fld.ETH_TL_CFG_CYC_PH
    let sent := (routes.take 8).filterMap (fun (r : Fin 8 × Nat) => s.pubObject r.1 r.2)
    let launch : LaunchEnt := { addr := 0, len := 40 + 20 * sent.length, cls := 6,
                                at_ := BitVec.ofInt 64 (s.boundaryOf s.tt.flightNo + 64 * s.fld ETH_TL_LAUNCH Fld.ETH_TL_LAUNCH_LAUNCH) }
    let lq (t : State) := (t.ethPort p).lq
    (on → me → addr ≠ none → Runs (.tlCyclic h fx [o]) s fun t => RegsBut s t subs ∧ MemSame s t ∧ t.eth.msgs = s.eth.msgs ∧
      (mine → newer → sub t = some { p := o.p, v := o.v, a := o.a, fx := fx } ∧ t.flag (ETH_TL_SUB k) Fld.ETH_TL_SUB_HELD = (had.isNone || fget cfg Fld.ETH_TL_SUB_HELD == 1)) ∧
      (¬ mine ∨ ¬ newer → sub t = had ∧ t.reg (ETH_TL_SUB k) = cfg)) ∧
    (on → me → addr ≠ none → objs.length ≤ 8 → (∀ x ∈ objs, x.axis.toNat ≠ fget cfg Fld.ETH_TL_SUB_AXIS) → Runs (.tlCyclic h fx objs) s fun t =>
      sub t = had ∧ t.reg (ETH_TL_SUB k) = cfg ∧ RegsBut s t subs) ∧
    (on → me → 8 < objs.length → bad (.tlCyclic h fx objs)) ∧
    (on → me → addr = none → objs.length ≤ 8 → none_ (.tlCyclic h fx objs)) ∧
    (on → ¬ me → bad (.tlCyclic h fx objs) ∧ bad (.tlMessage h data)) ∧
    (¬ on → none_ (.tlCyclic h fx objs) ∧ none_ (.tlMessage h data) ∧ none_ (.tlPublish routes)) ∧
    (on → me → 1 ≤ data.length → data.length ≤ 40 → s.eth.msgs.length < 32 → Runs (.tlMessage h data) s fun t =>
      t.eth = { s.eth with msgs := s.eth.msgs ++ [{ src := h.src.toNat % 2 ^ 14, data := data }] } ∧
      t.fld ETH_TL_STAT Fld.ETH_TL_STAT_MSGLEVEL = s.eth.msgs.length + 1 ∧ RegsBut s t [ETH_TL_STAT]) ∧
    (on → me → 1 ≤ data.length → data.length ≤ 40 → 32 ≤ s.eth.msgs.length → Runs (.tlMessage h data) s fun t =>
      t.eth = s.eth ∧ Counted s t ETH_TL_STAT Fld.ETH_TL_STAT_MSGLOST ∧ RegsBut s t [ETH_TL_STAT]) ∧
    (on → me → data.length = 0 ∨ 40 < data.length → bad (.tlMessage h data)) ∧
    (s.domOn domNW = true → s.eth.msgs = m :: l → m.src < 2 ^ 16 → m.data.length < 64 → Runs .tlMsgRead s fun t =>
      t.resp = .data (BitVec.ofNat 32 (2 ^ 31 + 2 ^ 16 * m.data.length + m.src)) ∧
      (s.eth.seen = 0x3FF → t.eth = { s.eth with msgs := l, seen := 0 } ∧ t.fld ETH_TL_STAT Fld.ETH_TL_STAT_MSGLEVEL = l.length % 64 ∧ RegsBut s t [ETH_TL_STAT]) ∧
      (s.eth.seen ≠ 0x3FF → t.eth = s.eth ∧ RegsBut s t [])) ∧
    (s.domOn domNW = false ∨ s.eth.msgs = [] → Runs .tlMsgRead s fun t => t = { s with resp := .data 0 }) ∧
    (on → instant → addr ≠ none → Runs (.tlPublish routes) s fun t => t.eth.cyc = some (s.tt.flightNo % 2 ^ 32, sent) ∧
      (64 ≤ (lq s).length → lq t = lq s) ∧ ((lq s).length < 64 → launch ∈ lq t ∧ (lq t).length = (lq s).length + 1 ∧ (lq t).filter (· != launch) = (lq s).filter (· != launch)) ∧
      t.fld (ETH_P_LQ p) Fld.ETH_P_LQ_LEVEL = (lq t).length % 128 ∧ RegsBut s t (ETH_P_LQ 0 :: ETH_P_LQ 1 :: subs) ∧ MemSame s t) ∧
    (on → ¬ instant ∨ addr = none → none_ (.tlPublish routes))

/-- Requests and barge frames (R10, R454, R455): a kept answer goes out again without a second execution; the gates; a read, a write and
a pair write as Towline, word by word up to the first bus error; an answer per frame; no entry after the first refused one is
submitted. -/
def TowlineRequestsRules : Prop :=
  ∀ (s : State) (h : TlHdr) (a : Word) (n : Nat) (words : List Word) (x : TlAnswer) (entries : List (Byte × Desc)) (q : Byte) (d : Desc) (k : Nat),
    s.domOn domNW = true → s.flag ETH_CTRL Fld.ETH_CTRL_EN = true →
    let kept := s.eth.kept.find? (fun y => y.src == h.src.toNat && y.seq == h.seq.toNat)
    let acc := s.reg ETH_TL_ACC
    let rd := acc.getLsbD 0 = true
    let wr := acc.getLsbD 1 = true ∧ (s.mode = .run ∨ s.mode = .degraded ∨ s.mode = .safeStop → acc.getLsbD 2 = true)
    let fmt (n : Nat) := 1 ≤ n ∧ n ≤ 64 ∧ a.toNat % 4 = 0
    let tx := [ETH_P_CNT_TX 0, ETH_P_CNT_TX 1]
    let be (n v : Nat) := (leBytes n v).reverse
    let head (st n : Nat) := be 1 st ++ be 1 0 ++ be 2 n ++ be 4 a.toNat
    let answers (u t : State) (l : List Byte) := t.eth.answer = some { src := h.src.toNat, seq := h.seq.toNat, data := l } ∧
      t.eth.kept.head? = t.eth.answer ∧ t.eth.kept.length ≤ 8 ∧ t.resp = u.resp ∧ MemSame u t ∧ RegsBut u t tx
    let me (f : Nat) := h.dst.toNat = 0x8000 ∨ s.ownAddr = some h.dst.toNat ∨ f = 2 ∧ s.ownAddr = none ∧ h.dst.toNat = 0xC000 ∧ h.unicast = true
    let r := s.tlReadWords a.toNat n
    let w := s.tlWriteWords a.toNat words
    let pair := words.length % 2 = 0
    let one := s.busRead .towline a.toNat 4
    let oneW := s.busWrite .towline a.toNat 4 (words.headD 0)
    let does (c : Instr) := (w.2 = none → Runs c s fun t => answers w.1 t (head 0 words.length)) ∧ (w.2 = some k → Runs c s fun t => answers w.1 t (head 1 k))
    let both (P : Instr → Prop) := P (.tlRead h a n) ∧ P (.tlWrite h a words) ∧ P (.tlCpWrite h a words)
    let sub := s.submit .towline q.toNat d
    (¬ me 2 → both fun c => Runs c s fun t => Counted s t ETH_TL_STAT Fld.ETH_TL_STAT_BAD ∧ t.eth = s.eth ∧ RegsBut s t [ETH_TL_STAT]) ∧
    (me 2 → kept = some x → both fun c => Runs c s fun t => t.eth = { s.eth with answer := some x } ∧ RegsBut s t tx ∧ MemSame s t) ∧
    (me 2 → kept = none →
      (¬ fmt n → Runs (.tlRead h a n) s fun t => answers s t (head 3 n)) ∧
      (fmt n → ¬ rd → Runs (.tlRead h a n) s fun t => answers s t (head 2 n)) ∧
      (fmt n → rd → (r.2.2 = none → r.2.1.length = 4 * n ∧ Runs (.tlRead h a n) s fun t => answers r.1 t (head 0 n ++ r.2.1)) ∧
        (r.2.2 = some k → k < n ∧ Runs (.tlRead h a n) s fun t => answers r.1 t (head 1 k))) ∧
      (n = 1 → r = (match one.resp with | .data v => (one, be 4 v.toNat, none) | _ => (one, [], some 0))) ∧
      (¬ fmt words.length → (Runs (.tlWrite h a words) s fun t => answers s t (head 3 words.length))) ∧
      (¬ fmt words.length ∨ ¬ pair → (Runs (.tlCpWrite h a words) s fun t => answers s t (head 3 words.length))) ∧
      (fmt words.length → ¬ wr → (Runs (.tlWrite h a words) s fun t => answers s t (head 2 words.length)) ∧
        (pair → Runs (.tlCpWrite h a words) s fun t => answers s t (head 2 words.length))) ∧
      (fmt words.length → wr → does (.tlWrite h a words) ∧ (pair → does (.tlCpWrite h a words)) ∧
        (words.length = 1 → w = (oneW, if oneW.resp = .busError then some 0 else none))) ∧
      (0x09000000 ≤ a.toNat → a.toNat + 4 * words.length ≤ 0x09080000 → s.domOn (domSv 0) = true → fmt words.length → wr →
        Runs (.tlWrite h a words) s fun t => t.eth.answer.map TlAnswer.data = some (head 0 words.length) ∧
          (k < words.length → t.cellWord (tcmBase 0 + a.toNat % 0x80000 + 4 * k) = words.getD k 0))) ∧
    (me 4 → (Runs (.tlBarges h [(q, d)]) s fun t => t.eth.answer = some { src := h.src.toNat, seq := h.seq.toNat, data := [BitVec.ofNat 8 (s.submitCode q.toNat d)] } ∧
        t.basin = sub.1.basin ∧ RegsBut sub.1 t tx ∧ t.eth.kept = s.eth.kept) ∧
      (1 ≤ entries.length → entries.length ≤ 8 → Runs (.tlBarges h entries) s fun t => let l := (t.eth.answer.map TlAnswer.data).getD []
        l.length = entries.length ∧ (k + 1 < l.length → l.getD k 0 ≠ 0 → l.getD (k + 1) 0 = 0x0A) ∧
        (l.getD 0 0 ≠ 0 → t.basin = s.basin ∧ RegsBut s t tx)) ∧
      (entries.length = 0 ∨ 8 < entries.length → Runs (.tlBarges h entries) s fun t => Counted s t ETH_TL_STAT Fld.ETH_TL_STAT_BAD ∧ t.eth = s.eth)) ∧
    (¬ me 4 → Runs (.tlBarges h entries) s fun t => Counted s t ETH_TL_STAT Fld.ETH_TL_STAT_BAD ∧ t.eth = s.eth ∧ RegsBut s t [ETH_TL_STAT])

/-- Towline: cyclic data and requests. -/
def Obligations.Towline : Prop :=
  TowlineCyclicRules ∧ TowlineRequestsRules

/-! ## The basin and the dispatcher -/

/-- Submission (R222 to R229): GO takes the staged descriptor to a check; the check ends with the first code of R227 that applies; code
0 links the descriptor at the tail of its queue. -/
def Obligations.Submission : Prop :=
  ∀ (s : State) (i : Initiator) (q : Fin 128) (d : Desc) (n : Nat) (k : Nat) (w : Fin 16),
    let check := s.basin.checks.find? (fun c => c.1 == initNo i)
    let stat (t : State) := Tbl.get (0 : Word) t.basin.substat (initNo i)
    let code (t : State) := fget (stat t) Fld.BASIN_SUBSTAT_CODE
    let c := if ¬ (n < 80 ∧ (s.part = .fa24 → n < 24 ∨ 48 ≤ n)) then 1 else if crc32c (leBytes 60 (d.toNat % 2 ^ 480)) ≠ dfld d 60 4 then 2
      else if bargeTypeOk (dfld d 0 1) n = false then 3 else if dfld d 2 2 ≠ s.fld (BASIN_Q_SEQ n) Fld.BASIN_Q_SEQ_NEXT then 4
      else if bargeFieldsOk d = false then 5 else if bargeTargetOk d = false then 6 else if (s.queueAt n).stopped = true then 7
      else if s.fld (BASIN_Q_CFG n) Fld.BASIN_Q_CFG_QRES ≤ (s.queueAt n).fromRes.length ∧
        (s.fld (BASIN_Q_CFG n) Fld.BASIN_Q_CFG_BORROW = 0 ∨ s.poolSize ≤ s.poolUsed) then 8 else 0
    let x := freeIndex s.heldAll
    let queue (t : State) := t.queueAt n
    (s.reachable BASIN_SUBMIT = true →
      (i = .sc → Runs (.basinSubmit i q) s fun t => t = { s with resp := .busError }) ∧
      (i ≠ .sc → check = none → Runs (.basinSubmit i q) s fun t => code t = 0xFF ∧ t.resp = .done ∧ t.basin.queues = s.basin.queues ∧
        t.basin.stage = s.basin.stage ∧ t.basin.checks.map (fun e => (e.1, e.2.1)) = s.basin.checks.map (fun e => (e.1, e.2.1)) ++ [(initNo i, q.val)] ∧
        t.basin.checks.getLast?.any (fun e => e.2.2.extractLsb' (32 * w) 32 == s.stageWord i w) = true ∧ RegsBut s t [] ∧ MemSame s t) ∧
      (i ≠ .sc → check.isSome = true → Runs (.basinSubmit i q) s fun t => code t = 9 ∧ t.basin.checks = s.basin.checks ∧
        t.basin.queues = s.basin.queues ∧ RegsBut s t [] ∧ t.resp = .done)) ∧
    (check = none → Runs (.submitCheckDone i) s fun t => t = s) ∧
    (check = some (initNo i, n, d) → Runs (.submitCheckDone i) s fun t => code t = c ∧ t.basin.stage = s.basin.stage ∧ MemSame s t ∧
      t.basin.checks = s.basin.checks.filter (fun e => e.1 != initNo i) ∧ (k ≠ n → t.queueAt k = s.queueAt k) ∧
      (i = .sv0 ∨ i = .sv1 → Tbl.get 0 t.perf (256 * initNo i + if c = 0 then 36 else 37) =
        min (2 ^ 48 - 1) (Tbl.get 0 s.perf (256 * initNo i + if c = 0 then 36 else 37) + 1)) ∧
      (c ≠ 0 → queue t = queue s ∧ t.basin.desc = s.basin.desc ∧ RegsBut s t [] ∧ fget (stat t) Fld.BASIN_SUBSTAT_SEQ = fget (stat s) Fld.BASIN_SUBSTAT_SEQ) ∧
      (c = 0 → x ∉ s.heldAll ∧ t.desc x = d ∧ (queue t).queued = (queue s).queued ++ [x] ∧ (queue t).exec = (queue s).exec ∧
        (k ≠ x → t.desc k = s.desc k) ∧ t.fld (BASIN_Q_SEQ n) Fld.BASIN_Q_SEQ_NEXT = (dfld d 2 2 + 1) % 65536 ∧
        t.fld (BASIN_Q_SEQ n) Fld.BASIN_Q_SEQ_DONE = s.fld (BASIN_Q_SEQ n) Fld.BASIN_Q_SEQ_DONE ∧ RegsBut s t [BASIN_Q_SEQ n] ∧
        fget (stat t) Fld.BASIN_SUBSTAT_SEQ = dfld d 2 2 ∧
        (queue t).fromRes = (if (queue s).fromRes.length < s.fld (BASIN_Q_CFG n) Fld.BASIN_Q_CFG_QRES then (queue s).fromRes ++ [x] else (queue s).fromRes)))

/-- Reports, notifications, stops (R229, R232, R233, R252, R253, R256): what a report says of the law and the stop causes; it retires
the barges up to DONE_SEQ and makes CUR_SEQ the executing one; the oldest notification is read; firmware stops and resumes a queue. -/
def Obligations.ReportsAndStops : Prop :=
  ∀ (s : State) (q : Fin 64) (r : W64) (z : Fin 80) (k x : Nat) (l : List Nat) (n : Note) (ns : List Note),
    let v := r.toNat
    let y := s.queueAt q
    let dn := bits v 31 16
    let done (t : State) := t.fld (BASIN_Q_SEQ q) Fld.BASIN_Q_SEQ_DONE
    let st := BASIN_Q_STAT q
    let on := s.domOn domTP = true ∧ queuePresent s.part q = true
    let covers (i : Nat) := seqAfter (dSeq (s.desc i)) (done s) && (dSeq (s.desc i) == dn || seqAfter dn (dSeq (s.desc i)))
    let quiet := y.held.all (fun i => !covers i) = true
    let note (result : Nat) : Note := { queue := q, seq := dn, tag := dTag (s.desc x), result := result }
    let src (t : State) := t.queueAt z
    let other (t : State) := k ≠ z → t.queueAt k = s.queueAt k
    let resumes := (s.groupOf z).all (fun j => s.fld (BASIN_Q_STAT j) Fld.BASIN_Q_STAT_LAW == 7 && bits (s.queueAt j).stopSrc 3 0 == 0) = true
    let ctl := s.reachable (BASIN_Q_CTRL z) = true
    (¬ on → Runs (.basinReport q r) s fun t => t = s) ∧
    (on → Runs (.basinReport q r) s fun t => t.fld st Fld.BASIN_Q_STAT_LAW = bits v 39 36 ∧ MemSame s t ∧
      t.flag st Fld.BASIN_Q_STAT_UNDR = (s.flag st Fld.BASIN_Q_STAT_UNDR || r.getLsbD 41) ∧
      t.flag st Fld.BASIN_Q_STAT_MLOST = (s.flag st Fld.BASIN_Q_STAT_MLOST || r.getLsbD 42) ∧
      t.flag st Fld.BASIN_Q_STAT_STALE = (s.flag st Fld.BASIN_Q_STAT_STALE || r.getLsbD 45) ∧
      (t.queueAt q).stopKer = (y.stopKer || r.getLsbD 41 || r.getLsbD 42 || r.getLsbD 43 || r.getLsbD 44) ∧
      (t.queueAt q).stopped = y.stopped ∧ RegsOutside2 s t 0x4004 0x400B ∧ t.basin.desc = s.basin.desc ∧
      t.fld (BASIN_Q_SEQ q) Fld.BASIN_Q_SEQ_NEXT = s.fld (BASIN_Q_SEQ q) Fld.BASIN_Q_SEQ_NEXT ∧ (k ≠ q → t.queueAt k = s.queueAt k) ∧
      (quiet → done t = done s ∧ t.basin.notes = s.basin.notes ∧ (y.exec ≠ none ∨ r.getLsbD 40 = false → (t.queueAt q).exec = y.exec ∧ (t.queueAt q).queued = y.queued)) ∧
      (quiet → y.exec = none → y.queued = x :: l → x ∉ l → r.getLsbD 40 = true → dSeq (s.desc x) = bits v 15 0 →
        (t.queueAt q).exec = some x ∧ (t.queueAt q).queued = l) ∧
      (y.exec = some x → y.queued = l → x ∉ l → covers x = true → dSeq (s.desc x) = dn → l.all (fun i => !covers i) = true → done t = dn ∧
        (t.queueAt q).exec ≠ some x ∧ x ∉ (t.queueAt q).queued ∧ x ∉ (t.queueAt q).fromRes ∧
        ((dFlags (s.desc x)).testBit 0 = false → t.basin.notes = s.basin.notes) ∧
        ((dFlags (s.desc x)).testBit 0 = true → s.basin.notes.length < 256 → t.basin.notes = s.basin.notes ++ [note (bits v 35 32)]) ∧
        ((dFlags (s.desc x)).testBit 0 = true → 256 ≤ s.basin.notes.length → t.basin.notes = s.basin.notes ∧
          t.flag BASIN_NOTESTAT Fld.BASIN_NOTESTAT_OVF = true ∧ Counted s t BASIN_NOTESTAT Fld.BASIN_NOTESTAT_LOST))) ∧
    (s.domOn domTP = true → s.basin.notes = n :: ns → Runs .notePop s fun t => t.basin = { s.basin with notes := ns } ∧ RegsBut s t [] ∧
      t.resp = .data (BitVec.ofNat 32 (2 ^ 31 + 2 ^ 16 * n.queue + n.result))) ∧
    (s.domOn domTP = false ∨ s.basin.notes = [] → Runs .notePop s fun t => t = { s with resp := .data 0 }) ∧
    (ctl → (Runs (.queueStop z) s fun t => src t = { src s with stopFw := true, rose := (src t).rose } ∧
        ((src s).srcs.contains (0, 0) = false → (src t).rose.contains (0, 0) = true) ∧ other t ∧ RegsBut s t [] ∧ t.resp = .done ∧ (src t).stopSrc.testBit 0 = true) ∧
      (Runs (.stopClr z) s fun t => src t = { src s with stopFw := false } ∧ other t ∧ RegsBut s t [] ∧ t.resp = .done ∧ (src t).stopSrc.testBit 0 = false) ∧
      (¬ resumes → Refused (.queueResume z) s ∧ Runs (.queueResume z) s fun t => t.basin = s.basin) ∧
      (resumes → Runs (.queueResume z) s fun t => RegsBut s t [] ∧ t.resp = .done ∧ (k ∈ s.groupOf z → k < 80 → t.queueAt k = { s.queueAt k with resume := true }) ∧
        (k ∉ s.groupOf z → t.queueAt k = s.queueAt k))) ∧
    (ctl = false → (Runs (.queueStop z) s fun t => t = { s with resp := .busError }) ∧ (Runs (.stopClr z) s fun t => t = { s with resp := .busError }) ∧
      Runs (.queueResume z) s fun t => t = { s with resp := .busError })

/-- The dispatcher (R257, R341): the head of a shared queue that is not stopped and has nothing executing begins at its START, after the head
of every lower shared queue that became due no later; MARK and MSG retire there, IO changes the outputs; REGW and DMA act when they complete. A
barge whose CRC does not match does not begin: its queue stops. -/
def Obligations.Dispatcher : Prop :=
  ∀ (s : State) (k : Fin 16) (x : Nat) (l : List Nat) (b : Nat),
    let q : Nat := 64 + k
    let y := s.queueAt q
    let d := s.desc x
    let type := dfld d 0 1
    let start := dfld d 6 8
    let now := s.time.line.toNat
    let late := decide (start ≠ 0 ∧ start + 16000 < now)
    let ok (t : Bool) := if t then 1 else 0
    let queue (t : State) := t.queueAt q
    let notes (t : State) (result : Nat) := (t.fld (BASIN_Q_SEQ q) Fld.BASIN_Q_SEQ_DONE = dfld d 2 2) ∧ (queue t).exec = none ∧
      ((dFlags d).testBit 0 = true → s.basin.notes.length < 256 → t.basin.notes = s.basin.notes ++ [{ queue := q, seq := dfld d 2 2, tag := dfld d 4 2, result := result }]) ∧
      ((dFlags d).testBit 0 = false → t.basin.notes = s.basin.notes)
    let begins := y.exec = none ∧ y.queued = x :: l ∧ x ∉ l
    let ready := s.domOn domTP = true ∧ y.stopped = false ∧ start ≤ now ∧ s.behind q = false
    let go := ready ∧ dCrcOk d = true
    let msg := leBytes (dfld d 15 1) (dfld d 18 40)
    let a := dfld d 14 4
    let value := BitVec.ofNat 32 (dfld d 18 4)
    let mask := BitVec.ofNat 32 (dfld d 22 4)
    let cp := (dFlags d).testBit 3
    let src := dfld d 14 4
    let dst := dfld d 18 4
    let len := dfld d 22 4
    (begins → ¬ ready → Runs (.dispatchBegin k) s fun t => t = s) ∧
    (begins → ready → dCrcOk d = false → s.fc.window = false → Runs (.dispatchBegin k) s fun t => ContainedOnce s t (basinSrc q) ∧
      (queue t).exec = none ∧ (queue t).queued = y.queued ∧ (queue t).stopCol.contains (basinSrc q) = true ∧ RegsOutside s t 0x4001 ∧ MemSame s t) ∧
    (y.exec ≠ none ∨ y.queued = [] → Runs (.dispatchBegin k) s fun t => t = s) ∧
    (begins → go → type = 0x07 → Runs (.dispatchBegin k) s fun t => notes t (ok late) ∧ (queue t).queued = l ∧ RegsOutside2 s t 0x4004 0x400B ∧ MemSame s t) ∧
    (begins → go → type = 0x10 → s.fiOn = true → Runs (.dispatchBegin k) s fun t => (queue t).exec = some x ∧ (queue t).queued = l ∧ (queue t).late = late ∧
      t.fld FIO_DO Fld.FIO_DO_CMD = (s.fld FIO_DO Fld.FIO_DO_CMD ||| dfld d 14 2) &&& (0xFFFF ^^^ dfld d 16 2) ∧ t.basin.notes = s.basin.notes) ∧
    (begins → go → type = 0x11 → dfld d 14 1 = 0 →
      (s.eth.sendq.length < 32 → Runs (.dispatchBegin k) s fun t => notes t (ok late) ∧ t.eth.sendq = s.eth.sendq ++ [(dfld d 16 2, msg)] ∧ (queue t).queued = l) ∧
      (32 ≤ s.eth.sendq.length → Runs (.dispatchBegin k) s fun t => notes t 7 ∧ t.eth = s.eth ∧ (queue t).queued = l)) ∧
    (begins → go → type = 0x11 → dfld d 14 1 = 1 ∨ dfld d 14 1 = 2 → dfld d 16 2 < 128 → dfld d 15 1 ≤ 40 →
      let c := dfld d 14 1 - 1
      let m := dfld d 16 2
      let busy := s.domOn domCN = false ∨ s.obj c m objOwn = 1 ∨ s.obj c m objDir = 0
      (busy → Runs (.dispatchBegin k) s fun t => notes t 7 ∧ t.can = s.can) ∧
      (¬ busy → Runs (.dispatchBegin k) s fun t => notes t (ok late) ∧ t.obj c m objOwn = 1 ∧ msg.length ≤ dlcLen (t.obj c m objDlc) ∧
        (t.objData c m).take msg.length = msg)) ∧
    (begins → go → type = 0x12 ∨ type = 0x13 → Runs (.dispatchBegin k) s fun t => (queue t).exec = some x ∧ (queue t).queued = l ∧ (queue t).late = late ∧
      RegsOutside2 s t 0x4004 0x400B ∧ MemSame s t) ∧
    (y.exec = none ∨ s.domOn domTP = false → Runs (.dispatchComplete k) s fun t => t = s) ∧
    (y.exec = some x → s.domOn domTP = true →
      (type ≠ 0x12 → type ≠ 0x13 → Runs (.dispatchComplete k) s fun t => notes t (ok y.late) ∧ RegsOutside s t 0x4004 ∧ MemSame s t) ∧
      (type = 0x12 → cp = false → s.absent .sc a = true ∨ a % 4 ≠ 0 → Runs (.dispatchComplete k) s fun t => notes t 5 ∧ RegsOutside s t 0x4004) ∧
      (type = 0x12 → cp = false → a % 4 = 0 → a / 0x10000 = 0x4005 → TIME_SERVO ≤ a → a ≤ TIME_THR → s.domOn domNW = true → Runs (.dispatchComplete k) s fun t =>
        notes t (ok y.late) ∧ RegsBut s t ([a, BASIN_Q_SEQ q, BASIN_NOTESTAT]) ∧ (a = TIME_THR → t.reg a = (s.reg a &&& ~~~mask) ||| (value &&& mask))) ∧
      (type = 0x12 → cp = true → a = TIME_EPOCH → s.domOn domNW = true → s.epochOk = true → Runs (.dispatchComplete k) s fun t =>
        notes t (ok y.late) ∧ t.fld TIME_EPOCH Fld.TIME_EPOCH_E = (((s.reg a &&& ~~~mask) ||| (value &&& mask)).toNat % 65536) ∧ Tbl.get 0 t.cpDiff TIME_EPOCH = 0) ∧
      (type = 0x12 → cp = true → isCp a = false → Runs (.dispatchComplete k) s fun t => notes t 5 ∧ RegsOutside s t 0x4004) ∧
      (type = 0x13 → 0x14000000 ≤ src → src + len ≤ 0x14800000 → src % 8 = 0 → 0x09000000 ≤ dst → dst + len ≤ 0x09080000 →
        s.domOn domAQ = true → s.domOn (domSv 0) = true → Runs (.dispatchComplete k) s fun t => notes t (ok y.late) ∧ RegsOutside s t 0x4004 ∧
          (b < len → t.cell (tcmBase 0 + dst % 0x80000 + b) = s.cell (src + b)) ∧
          (b < tcmBase 0 + dst % 0x80000 ∨ tcmBase 0 + dst % 0x80000 + len ≤ b → t.cell b = s.cell b)) ∧
      (type = 0x13 → s.bytesAt .sc src len = none ∨ memTarget s.part .sc dst len = none → Runs (.dispatchComplete k) s fun t => notes t 5 ∧ MemSame s t))

/-! ## CAN FD -/

/-- Message objects (R460 to R464): hand-over and abort; the frame on the bus ends with success or failure; a frame received goes to the
lowest armed object it matches; the counters, the error states and bus-off follow. -/
def CanObjectsRules : Prop :=
  ∀ (s : State) (c : Fin 2) (m : Fin 128) (w : Word) (sof : W64) (lost : Bool) (f : CanFrame) (j : Fin 128),
    let x := s.canAt c
    let ow (t : State) (j : Nat) := t.obj c j objOwn
    let ctl := CAN_OBJ c m + 8
    let stat := CAN_STAT c
    let irq (t : State) (b : Nat) := (t.reg (CAN_IF c)).getLsbD b
    let sends (t : State) := s.canEn c = true ∧ s.flag stat Fld.CAN_STAT_SYNCED = true ∧ t.fld stat Fld.CAN_STAT_STATE ≠ 2 ∧ s.fld (CAN_CTRL c) Fld.CAN_CTRL_MODE ≠ 1
    let asks (t : State) (j : Nat) := ow t j = 1 ∧ t.obj c j objDir = 1
    let key (t : State) (j : Nat) := arbKey (t.reg (CAN_OBJ c j)).toNat (t.obj c j objFdf = 1)
    let selects (t : State) := (sends t → asks t j → (t.canAt c).onBus.any (fun k => decide (asks t k ∧ (key t k < key t j ∨ key t k = key t j ∧ k ≤ j))) = true)
    let near (t : State) := RegsFcOutside s t (0x4007 + c) ∧ MemSame s t ∧ t.canAt (1 - c) = s.canAt (1 - c)
    let object (t : State) (j : Nat) := ∀ k : Fin 20, t.reg (CAN_OBJ c j + 4 * k) = s.reg (CAN_OBJ c j + 4 * k)
    let tec := x.tec
    let rec_ := s.fld stat Fld.CAN_STAT_REC
    let errs (t : State) (tec rec_ : Nat) :=
      let ew := decide (s.fld (CAN_CTRL c) Fld.CAN_CTRL_EWL ≤ tec) || decide (s.fld (CAN_CTRL c) Fld.CAN_CTRL_EWL ≤ rec_)
      (t.canAt c).tec = tec ∧ t.fld stat Fld.CAN_STAT_TEC = min tec 255 ∧ t.fld stat Fld.CAN_STAT_REC = min rec_ 255 ∧ t.flag stat Fld.CAN_STAT_EW = ew ∧
      irq t 3 = (irq s 3 || ew && !s.flag stat Fld.CAN_STAT_EW) ∧
      (s.fld stat Fld.CAN_STAT_STATE < 2 → t.fld stat Fld.CAN_STAT_STATE = (if 255 < tec then 2 else if 127 < tec ∨ 127 < rec_ then 1 else 0) ∧
        (255 < tec → irq t 5 = true ∧ Counted s t (CAN_ERRCNT c) Fld.CAN_ERRCNT_BUSOFF ∧ CorrectedOnce s t ∧ (t.canAt c).onBus = none ∧
          t.fld stat Fld.CAN_STAT_RECOVERING = s.fld (CAN_CTRL c) Fld.CAN_CTRL_AUTO_REC) ∧
        (tec ≤ 255 → t.fc = s.fc ∧ irq t 5 = irq s 5) ∧
        irq t 4 = (irq s 4 || decide (s.fld stat Fld.CAN_STAT_STATE = 0 ∧ t.fld stat Fld.CAN_STAT_STATE = 1)))
    let onBus := x.onBus = some m.val ∧ s.canSynced c = true ∧ s.fld stat Fld.CAN_STAT_STATE < 2
    let ends := s.obj c m objOneshot = 1 ∨ x.rel.contains m.val = true
    let takes := s.canSynced c = true ∧ s.fld stat Fld.CAN_STAT_STATE < 2 ∧ s.fld (CAN_CTRL c) Fld.CAN_CTRL_MODE ≠ 2
    let matches_ (j : Nat) := s.objMatches c j f = true
    let first (P : Nat → Prop) := P m ∧ ∀ j : Fin 128, P j → m ≤ j
    let ref := s.isTimeRef c f = true
    let recs (t : State) := (127 < rec_ → 119 ≤ (t.fld stat Fld.CAN_STAT_REC) ∧ t.fld stat Fld.CAN_STAT_REC ≤ 127) ∧ (rec_ ≤ 127 → errs t tec (rec_ - 1))
    (s.reachable ctl = true →
      (ow s m = 1 → Refused (.canObjOwn c m (w &&& 0xFDFFFFFF)) s) ∧
      (ow s m = 0 → Runs (.canObjOwn c m w) s fun t => ow t m = 1 ∧ t.obj c m objDir = fget w objDir ∧ t.obj c m objFdf = fget w objFdf ∧ t.obj c m objBrs = fget w objBrs ∧ t.obj c m objOneshot = fget w objOneshot ∧ t.obj c m objDlc = fget w objDlc ∧
        t.obj c m objNew = (if w.getLsbD 24 then 0 else s.obj c m objNew) ∧ t.resp = .done ∧ RegsBut s t [ctl] ∧ MemSame s t ∧
        (x.onBus = none → selects t) ∧ (x.onBus ≠ none → (t.canAt c).onBus = x.onBus)) ∧
      (ow s m = 1 → x.rel.contains m.val = false → s.obj c m objDir = 0 ∨ x.onBus ≠ some m.val → Runs (.canAbort c m) s fun t =>
        ow t m = 0 ∧ t.reg ctl = s.reg ctl &&& 0x7FFFFFFF ∧ RegsBut s t [ctl, stat] ∧ t.resp = .done ∧ MemSame s t) ∧
      (ow s m = 1 → x.rel.contains m.val = false → s.obj c m objDir = 1 → x.onBus = some m.val → Runs (.canAbort c m) s fun t =>
        ow t m = 1 ∧ (t.canAt c).rel.contains m.val = true ∧ t.flag stat Fld.CAN_STAT_RELEASING = true ∧ (t.canAt c).onBus = x.onBus ∧ RegsBut s t [stat] ∧ t.resp = .done)) ∧
    (onBus → Runs (.canTxDone c sof) s fun t =>
      ow t m = 0 ∧ t.reg (CAN_OBJ c m + 76) = BitVec.ofNat 32 (sof.toNat / 64) ∧ irq t 0 = true ∧ errs t (tec - 1) rec_ ∧ selects t ∧ near t ∧
      (t.canAt c).rel.contains m.val = false ∧ (s.fld (CAN_CTRL c) Fld.CAN_CTRL_MODE ≠ 2 → j ≠ m → object t j) ∧
      (s.fld (CAN_CTRL c) Fld.CAN_CTRL_MODE = 2 → s.obj c m objDir = 1 → f.id = (s.reg (CAN_OBJ c m)).setWidth 29 → f.ide = (s.reg (CAN_OBJ c m)).getLsbD 29 →
        f.rtr = (s.reg (CAN_OBJ c m)).getLsbD 30 → matches_ j → ow s j = 1 → (∀ i : Fin 128, matches_ i → ow s i = 1 → j ≤ i) →
        ow t j = 0 ∧ t.obj c j objNew = 1 ∧ t.reg (CAN_OBJ c j + 76) = BitVec.ofNat 32 (sof.toNat / 64) ∧ irq t 1 = true)) ∧
    (onBus → Runs (.canTxError c lost) s fun t => near t ∧ selects t ∧ (j ≠ m → object t j) ∧
      (ends → ow t m = 0 ∧ t.obj c m objTxerr = 1 ∧ irq t 7 = true) ∧ (¬ ends → ow t m = ow s m ∧ t.obj c m objTxerr = s.obj c m objTxerr) ∧
      (lost = true → t.fc = s.fc ∧ (t.canAt c).tec = tec ∧ t.reg (CAN_ERRCNT c) = s.reg (CAN_ERRCNT c)) ∧
      (lost = false → errs t (tec + 8) rec_ ∧ Counted s t (CAN_ERRCNT c) Fld.CAN_ERRCNT_ERRFRM)) ∧
    (x.onBus = none ∨ s.canSynced c = false ∨ s.fld stat Fld.CAN_STAT_STATE = 2 → (Runs (.canTxDone c sof) s fun t => t = s) ∧ Runs (.canTxError c lost) s fun t => t = s) ∧
    (takes → ref → Runs (.canFrameRx c f sof) s fun t => recs t ∧ near t ∧ object t j ∧ t.reg (CAN_CNT c) = s.reg (CAN_CNT c)) ∧
    (takes → ¬ ref → first (fun j => matches_ j ∧ ow s j = 1) → Runs (.canFrameRx c f sof) s fun t => recs t ∧ near t ∧ (j ≠ m → object t j) ∧ irq t 1 = true ∧
      ow t m = 0 ∧ t.obj c m objNew = 1 ∧ t.obj c m objDlc = f.dlc ∧ t.obj c m objFdf = b2n f.fdf ∧ t.obj c m objBrs = b2n f.brs ∧ t.obj c m objEsi = b2n f.esi ∧
      t.reg (CAN_OBJ c m + 76) = BitVec.ofNat 32 (sof.toNat / 64) ∧ t.reg (CAN_CNT c) = s.reg (CAN_CNT c) ∧
      (f.data.length = dlcLen f.dlc → t.objData c m = f.data)) ∧
    (takes → ¬ ref → (∀ j : Fin 128, matches_ j → ow s j = 0) → first matches_ → Runs (.canFrameRx c f sof) s fun t => recs t ∧ near t ∧ t.obj c m objOvr = 1 ∧
      irq t 2 = true ∧ Counted s t (CAN_CNT c) Fld.CAN_CNT_RXLOST ∧ (j ≠ m → object t j) ∧ ow t m = 0) ∧
    (takes → ¬ ref → (∀ j : Fin 128, ¬ matches_ j) → Runs (.canFrameRx c f sof) s fun t => recs t ∧ near t ∧ object t j ∧ Counted s t (CAN_CNT c) Fld.CAN_CNT_NOMATCH) ∧
    (s.canSynced c = false ∨ s.fld stat Fld.CAN_STAT_STATE = 2 ∨ s.fld (CAN_CTRL c) Fld.CAN_CTRL_MODE = 2 → Runs (.canFrameRx c f sof) s fun t => t = s)

/-- The controller and its line time (R458, R459, R465 to R467): EN and MODE, joining the bus, recovery from bus-off; the reference
message of a master, and the Sync that a follower completes with it. -/
def CanStatesRules : Prop :=
  ∀ (s : State) (c : Fin 2) (w : Word) (stamp sof : W64) (out : Option W64) (seq flags : Byte) (epoch : BitVec 16) (prev : Nat × W64) (j : Fin 128),
    let x := s.canAt c
    let ctrl := CAN_CTRL c
    let stat := CAN_STAT c
    let tm := CAN_TM_STAT c
    let en := s.flag ctrl Fld.CAN_CTRL_EN = true
    let mode := fget w Fld.CAN_CTRL_MODE
    let st (t : State) := t.fld stat Fld.CAN_STAT_STATE
    let sync (t : State) := t.flag stat Fld.CAN_STAT_SYNCED
    let irq (t : State) (b : Nat) := (t.reg (CAN_IF c)).getLsbD b
    let takes (t : State) (v : Nat) := t.flag ctrl Fld.CAN_CTRL_EN = decide (v = 1) ∧ t.fld ctrl Fld.CAN_CTRL_MODE = mode ∧
      t.fld ctrl Fld.CAN_CTRL_EWL = fget w Fld.CAN_CTRL_EWL ∧ t.fld ctrl Fld.CAN_CTRL_AUTO_REC = fget w Fld.CAN_CTRL_AUTO_REC ∧ t.resp = .done
    let keep := mode = s.fld ctrl Fld.CAN_CTRL_MODE
    let near (t : State) := RegsOutside s t (0x4007 + c) ∧ MemSame s t ∧ t.canAt (1 - c) = s.canAt (1 - c)
    let recovering := s.canEn c = true ∧ st s = 2 ∧ s.flag stat Fld.CAN_STAT_RECOVERING = true
    let may := s.canSynced c = true ∧ st s ≠ 2
    let master := may ∧ s.fld ctrl Fld.CAN_CTRL_MODE ≠ 1 ∧ s.fld (CAN_TM_CFG c) Fld.CAN_TM_CFG_MODE = 1 ∧ s.fld (CAN_TM_CFG c) Fld.CAN_TM_CFG_CYC_F ≠ 0 ∧
      s.tt.flightNo % s.fld (CAN_TM_CFG c) Fld.CAN_TM_CFG_CYC_F = 0
    let next := (s.fld tm Fld.CAN_TM_STAT_SEQ + 1) % 256
    let lock := s.timeState = 2 ∨ s.timeState = 5
    let msg := leBytes 1 next ++ leBytes 1 ((if x.tmSof.isSome then 1 else 0) + (if lock then 2 else 0)) ++ leBytes 2 (s.fld TIME_EPOCH Fld.TIME_EPOCH_E) ++
      leBytes 8 (x.tmSof.getD 0).toNat
    let follows := may ∧ s.fld (CAN_TM_CFG c) Fld.CAN_TM_CFG_MODE = 2
    let good := epoch.toNat = s.fld TIME_EPOCH Fld.TIME_EPOCH_E
    let whole := flags.getLsbD 0 = true ∧ flags.getLsbD 1 = true ∧ seq.toNat = (prev.1 + 1) % 256
    let o : Int := prev.2.toNat - (stamp.toNat + (s.reg (CAN_TM_DELAY c)).toNat)
    (s.reachable ctrl = true →
      (mode = 3 → (Runs (.canEnSet c w) s fun t => t = { s with resp := .busError }) ∧ Runs (.canEnClear c w) s fun t => t = { s with resp := .busError }) ∧
      (mode ≠ 3 → en → ¬ keep → Refused (.canEnSet c w) s ∧ Refused (.canEnClear c w) s) ∧
      (mode ≠ 3 → ¬ en → Runs (.canEnSet c w) s fun t => takes t 1 ∧ st t = 0 ∧ sync t = false ∧ RegsBut s t [ctrl, stat] ∧ t.can = s.can ∧ MemSame s t) ∧
      (en → keep → mode ≠ 3 → fget w Fld.CAN_CTRL_REC_REQ = 0 → Runs (.canEnSet c w) s fun t => takes t 1 ∧ (t.canAt c).tec = x.tec ∧ MemSame s t) ∧
      (mode ≠ 3 → ¬ en → Runs (.canEnClear c w) s fun t => takes t 0 ∧ RegsBut s t [ctrl] ∧ t.can = s.can) ∧
      (mode ≠ 3 → en → keep → Runs (.canEnClear c w) s fun t => takes t 0 ∧ st t = 3 ∧ sync t = false ∧ t.fld stat Fld.CAN_STAT_TEC = 0 ∧ t.fld stat Fld.CAN_STAT_REC = 0 ∧
        t.obj c j objOwn = 0 ∧ (t.canAt c).onBus = none ∧ (t.canAt c).rel = [] ∧ (t.canAt c).tec = 0 ∧ near t ∧
        (x.onBus = some j.val → s.obj c j objOwn = 1 → t.obj c j objTxerr = 1) ∧ t.objData c j = s.objData c j) ∧
      (en → s.fld ctrl Fld.CAN_CTRL_MODE ≠ 3 → st s = 2 → s.fld stat Fld.CAN_STAT_TEC ≤ 255 → Runs (.recReq c) s fun t =>
        t.flag stat Fld.CAN_STAT_RECOVERING = true ∧ st t = 2 ∧ t.resp = .done ∧ RegsOutside s t (0x4007 + c) ∧ (t.canAt c).tec = x.tec)) ∧
    (s.canEn c = true → sync s = false → Runs (.canSynced c) s fun t => sync t = true ∧ RegsBut s t [stat] ∧ near t ∧
      (∀ f : Fin 3, t.fld stat [Fld.CAN_STAT_STATE, Fld.CAN_STAT_TEC, Fld.CAN_STAT_REC][f] = s.fld stat [Fld.CAN_STAT_STATE, Fld.CAN_STAT_TEC, Fld.CAN_STAT_REC][f])) ∧
    (s.canEn c = false ∨ sync s = true → Runs (.canSynced c) s fun t => t = s) ∧
    (recovering → Runs (.busOffRecovered c) s fun t => st t = 0 ∧ t.flag stat Fld.CAN_STAT_RECOVERING = false ∧ (t.canAt c).tec = 0 ∧
      t.fld stat Fld.CAN_STAT_TEC = 0 ∧ t.fld stat Fld.CAN_STAT_REC = 0 ∧ irq t 6 = true ∧ near t ∧ t.fc = s.fc ∧ t.obj c j objOwn = s.obj c j objOwn ∧
      (s.canMode c ≠ 1 → x.onBus = none → s.canSynced c = true → s.obj c j objOwn = 1 → s.obj c j objDir = 1 → (t.canAt c).onBus ≠ none)) ∧
    (¬ recovering → Runs (.busOffRecovered c) s fun t => t = s) ∧
    (master → Runs (.canTmSend c out) s fun t => (t.canAt c).tmMsg = msg ∧ (t.canAt c).tmSof = out ∧ t.fld tm Fld.CAN_TM_STAT_SEQ = next ∧ near t ∧ t.time = s.time ∧
      RegsBut s t [tm, CAN_IF c] ∧ (out ≠ none → Counted s t tm Fld.CAN_TM_STAT_SYNCS ∧ irq t 8 = true) ∧
      (out = none → t.fld tm Fld.CAN_TM_STAT_SYNCS = s.fld tm Fld.CAN_TM_STAT_SYNCS)) ∧
    (¬ master → Runs (.canTmSend c out) s fun t => t = s) ∧
    (follows → ¬ good → Runs (.canTmRx c seq flags epoch stamp sof) s fun t => t.flag TIME_STAT Fld.TIME_STAT_EPOCH_ERR = true ∧ t.time = s.time ∧
      (t.canAt c).tmPrev = some (seq.toNat, sof) ∧ RegsBut s t [tm, TIME_STAT]) ∧
    (follows → good → x.tmPrev = some prev → whole → Runs (.canTmRx c seq flags epoch stamp sof) s fun t => (t.canAt c).tmPrev = some (seq.toNat, sof) ∧
      Counted s t tm Fld.CAN_TM_STAT_SYNCS ∧ t.fld tm Fld.CAN_TM_STAT_SEQ = seq.toNat ∧ irq t 8 = true ∧ t.time.line = s.time.line ∧
      (s.domOn domNW = true → t.time.ofs = some o ∧ t.reg TIME_OFS = BitVec.ofInt 32 (max (-2147483648) (min 2147483647 o)) ∧
        RegsOutside2 s t (0x4007 + c) 0x4005) ∧ (s.domOn domNW = false → t.time = s.time)) ∧
    (follows → good → x.tmPrev = none ∨ x.tmPrev = some prev ∧ ¬ whole → Runs (.canTmRx c seq flags epoch stamp sof) s fun t =>
      (t.canAt c).tmPrev = some (seq.toNat, sof) ∧ t.fld tm Fld.CAN_TM_STAT_SEQ = seq.toNat ∧ t.time = s.time ∧ RegsBut s t [tm]) ∧
    (¬ follows → Runs (.canTmRx c seq flags epoch stamp sof) s fun t => t = s)

/-- The CAN controllers. -/
def Obligations.CanControllers : Prop :=
  CanObjectsRules ∧ CanStatesRules

/-! ## Isolated field I/O -/

/-- The field link (R479, R480, R484, R486, R487, R490, R493, R494): what a downlink frame applies, what an uplink frame shows, what their
loss does. A frame is good where its CRC-16 (R19) and its number are right; that the number is its first byte, and that a frame that fails
uses its number up, is the model's choice (log entry 257). -/
def Obligations.FieldLink : Prop :=
  ∀ (s : State) (bytes : List Byte) (raw : Word) (lplus : BitVec 12) (vout : BitVec 4) (k : Fin 16) (i : Fin 8) (p : Fin 8), s.fiOn = true →
    let x := s.fio
    let n := bytes.length
    let at_ (j : Nat) := ((bytes[j]?).getD 0).toNat
    let good (q : Nat) := 3 ≤ n ∧ crc16 (bytes.take (n - 2)) = at_ (n - 2) * 256 + at_ (n - 1) ∧ at_ 0 = q
    let cmd := s.fld FIO_DO Fld.FIO_DO_CMD
    let bit (n k : Nat) := n.testBit k
    let so (h : SafeCh) (k : Nat) := vget h.so false k
    let near (t : State) := RegsFcOutside s t 0x400D ∧ MemSame s t
    let down (P : State → Prop) := good x.seqDn → Runs (.fieldLinkDownlink bytes) s P
    let up (P : State → Prop) := good x.seqUp → Runs (.fieldLinkUplink bytes raw lplus vout) s P
    let nextDn := (x.seqDn + 1) % 256
    let nextUp := (x.seqUp + 1) % 256
    let f (j : Nat) := (s.reg (FIO_DI_CFG j)).toNat &&& 0x17FFF
    let unequal := (pairCfg s.block p).mode ≠ 0 ∧ f (16 + 2 * p.val) ≠ f (17 + 2 * p.val)
    (s.hwSafeOn = false → down fun t => t.fio.cmd = cmd ∧ t.fio.fs = s.fld FIO_DO_FS Fld.FIO_DO_FS_FS ∧ t.fio.fsAct = false ∧ t.fio.downAt = s.clock ∧ t.fio.seqDn = nextDn ∧
      bit t.fio.held k = (bit x.held k && bit cmd k) ∧ bit t.fio.doOn k = (!x.ov && bit cmd k && !(bit x.held k && bit cmd k)) ∧
      (k.val < 4 → bit t.fio.soHs k = (!x.ov && so s.safe.a k) ∧ bit t.fio.soLs k = (!x.ov && so s.safe.b k)) ∧
      (bit x.held k = true → bit cmd k = false → t.timerOn (.doRetry k) = false ∧ t.fc.conds.contains (fioSrc (32 + k), 0) = false) ∧
      (x.held = 0 → t.fc = s.fc ∧ t.timers = s.timers) ∧ RegsBut s t [] ∧ MemSame s t) ∧
    (s.hwSafeOn = false → ¬ good x.seqDn → Runs (.fieldLinkDownlink bytes) s fun t => Counted s t FIO_LINKCNT Fld.FIO_LINKCNT_DOWN ∧ t.fio = { x with seqDn := nextDn } ∧ RegsBut s t [FIO_LINKCNT]) ∧
    (s.hwSafeOn = true → Runs (.fieldLinkDownlink bytes) s fun t => t = s) ∧
    (x.fsAct = false → x.downAt + 25000 ≤ s.clock → Runs .fsTimeout s fun t => t.fio.fsAct = true ∧ t.fio.fsNew = true ∧ RegsBut s t [] ∧
      bit t.fio.doOn k = (!x.ov && bit x.fs k && !bit x.held k) ∧ t.fio.soHs = 0 ∧ t.fio.soLs = 0 ∧ t.fio.cmd = x.cmd ∧ t.fio.held = x.held) ∧
    (x.fsAct = true ∨ s.clock < x.downAt + 25000 → Runs .fsTimeout s fun t => t = s) ∧
    (up fun t => t.reg FIO_DI = BitVec.ofNat 32 x.di ∧ t.reg FIO_DIRAW = raw ∧ t.reg FIO_LPLUS = lplus.setWidth 32 ∧ t.fio.lost = 0 ∧ t.fio.seqUp = nextUp ∧
      t.flag FIO_STAT Fld.FIO_STAT_LINK_OK = true ∧ t.flag FIO_STAT Fld.FIO_STAT_FPWR_OK = true ∧ t.flag FIO_STAT Fld.FIO_STAT_FS_ACT = x.fsAct ∧
      t.fld FIO_DO_ACT Fld.FIO_DO_ACT_ON = x.doOn % 65536 ∧ t.fld FIO_DO_ACT Fld.FIO_DO_ACT_HELD = x.held % 65536 ∧
      t.fld FIO_SO_STAT Fld.FIO_SO_STAT_VOUT = vout.toNat ∧ t.flag FIO_SO_STAT Fld.FIO_SO_STAT_VINV = x.uv ∧
      t.fld SAFE_SO Fld.SAFE_SO_HS = x.soHs % 16 ∧ t.fld SAFE_SO Fld.SAFE_SO_LS = x.soLs % 16 ∧
      t.reg (FIO_CNT i) = (if bit x.clr i then BitVec.ofNat 32 (vget x.edges 0 i) else vget x.cnt 0 i) ∧ vget t.fio.cnt 0 i = t.reg (FIO_CNT i) ∧
      t.reg (FIO_FREQ i) = vget x.freq 0 i ∧ t.fio.clr = 0 ∧ vget t.fio.edges 0 i = 0 ∧ t.fio.doOn = x.doOn ∧ t.fio.cmd = x.cmd ∧ MemSame s t ∧
      (unequal → (t.reg FIO_TPSTAT).getLsbD (16 + 2 * p.val) = true ∧ (t.reg FIO_TPSTAT).getLsbD (17 + 2 * p.val) = true) ∧
      (¬ unequal → (t.reg FIO_TPSTAT).getLsbD (16 + 2 * p.val) = (s.reg FIO_TPSTAT).getLsbD (16 + 2 * p.val)) ∧
      (x.fsNew = false → t.fc.pend = s.fc.pend ∧ t.reg FC_COUNT = s.reg FC_COUNT ∧ t.flag FIO_STAT Fld.FIO_STAT_FS_S = s.flag FIO_STAT Fld.FIO_STAT_FS_S)) ∧
    (x.fsNew = true → s.fc.window = false → up fun t => t.fio.fsNew = false ∧ t.flag FIO_STAT Fld.FIO_STAT_FS_S = true ∧ ContainedOnce s t 0x0FFF) ∧
    (¬ good x.seqUp → Runs (.fieldLinkUplink bytes raw lplus vout) s fun t => Counted s t FIO_LINKCNT Fld.FIO_LINKCNT_UP ∧
      t.fio = { x with lost := x.lost + 1, seqUp := nextUp } ∧ RegsBut s t [FIO_LINKCNT]) ∧
    (3 ≤ x.lost → s.flag FIO_STAT Fld.FIO_STAT_LINK_OK = true → s.fc.window = false → Runs .uplinkLoss s fun t => t.reg FIO_DI = 0 ∧ t.reg FIO_DIRAW = 0 ∧
      t.flag FIO_STAT Fld.FIO_STAT_LINK_OK = false ∧ ContainedOnce s t 0x0FFF ∧ t.fio = x ∧ near t ∧ RegsFcBut s t [FIO_DI, FIO_DIRAW, FIO_STAT]) ∧
    (x.lost < 3 ∨ s.flag FIO_STAT Fld.FIO_STAT_LINK_OK = false → Runs .uplinkLoss s fun t => t = s)

/-- Inputs, counters, frequencies and test pulses (R478, R482, R484, R485, R491, R492). -/
def FieldInputsRules : Prop :=
  ∀ (s : State) (i : Fin 32) (n : Fin 8) (level : Bool) (at_ : Nat) (w : Word) (win : FreqWin) (h : Fin 2) (off : BitVec 16) (j : Fin 16) (k : Nat),
    let x := s.fio
    let filt := s.fld (FIO_DI_CFG i) Fld.FIO_DI_CFG_FILT
    let run (t : State) := vget t.fio.diRun 0 i
    let m := s.fld (FIO_DI_CFG n) Fld.FIO_DI_CFG_CNT_MODE
    let e := s.fld (FIO_DI_CFG n) Fld.FIO_DI_CFG_EDGE
    let gate := 10000 * 10 ^ s.fld (FIO_DI_CFG n) Fld.FIO_DI_CFG_GATE
    let selected := e = 0 ∧ level = true ∨ e = 1 ∧ level = false ∨ 2 ≤ e
    let counts := m = 1 ∨ m = 3
    let times := m = 2 ∨ m = 3
    let near (t : State) := RegsBut s t [] ∧ MemSame s t ∧ t.fc = s.fc ∧ t.fio.cmd = x.cmd ∧ t.fio.held = x.held ∧ t.fio.doOn = x.doOn
    let edge (P : State → Prop) := Runs (.counterEdge n level at_) s P
    let cfg := pairCfg s.block (j.val / 2)
    let fed (k : Nat) := s.flag SAFE_STAT Fld.SAFE_STAT_ARMED = true ∧ cfg.mode ≠ 0 ∧ (cfg.test = k + 1 ∨ cfg.test = 3 ∧ j.val % 2 = k)
    let f (j : Nat) := (s.reg (FIO_DI_CFG j)).toNat &&& 0x17FFF
    let unequal := cfg.mode ≠ 0 ∧ f (16 + j.val / 2 * 2) ≠ f (17 + j.val / 2 * 2)
    let pulses := s.fiOn = true ∧ (s.reg FIO_TP).getLsbD h = true ∧ x.fsAct = false ∧ x.ov = false
    let ok (t : State) := (t.reg FIO_TPSTAT).getLsbD j
    let cross (t : State) := (t.reg FIO_TPSTAT).getLsbD (16 + j.val)
    (s.fiOn = true →
      (x.di < 2 ^ 32 → 0 < k → Runs (.diChange i (List.replicate k level)) s fun t =>
        t.fio.di.testBit i = (if x.di.testBit i ≠ level ∧ run s + k < max 1 filt then !level else level) ∧
        run t = (if x.di.testBit i ≠ level ∧ run s + k < max 1 filt then run s + k else 0) ∧
        (i ≠ 16 + j.val → t.fio.di.testBit (16 + j.val) = x.di.testBit (16 + j.val)) ∧
        t.fio.di < 2 ^ 32 ∧ t.fio.cnt = x.cnt ∧ near t) ∧
      (x.di < 2 ^ 32 → x.di.testBit i = level → run s + k < filt → Runs (.diChange i (List.replicate k (!level) ++ [level])) s fun t =>
        t.fio.di = x.di ∧ run t = 0 ∧ t.fio.cnt = x.cnt ∧ near t) ∧
      (¬ selected → edge fun t => t = s) ∧
      (selected → edge fun t => near t ∧ t.fio.di = x.di ∧
        vget t.fio.cnt 0 n = (if counts then vget x.cnt 0 n + 1 else vget x.cnt 0 n) ∧ vget t.fio.edges 0 n = (if counts then vget x.edges 0 n + 1 else vget x.edges 0 n) ∧
        (¬ times → vget t.fio.win none n = vget x.win none n ∧ t.fio.freq = x.freq) ∧
        (times → vget x.win none n = none → vget t.fio.win none n = some { t0 := at_, n := 1 } ∧ t.fio.freq = x.freq) ∧
        (times → vget x.win none n = some win → at_ - win.t0 ≤ 10 ^ 7 → at_ - win.t0 < gate → vget t.fio.win none n = some { t0 := win.t0, n := win.n + 1 } ∧ t.fio.freq = x.freq) ∧
        (times → vget x.win none n = some win → 10 ^ 7 < at_ - win.t0 → vget t.fio.win none n = some { t0 := at_, n := 1 } ∧ vget t.fio.freq 0 n = 0) ∧
        (times → vget x.win none n = some win → at_ - win.t0 ≤ 10 ^ 7 → gate ≤ at_ - win.t0 → vget t.fio.win none n = none ∧
          vget t.fio.freq 0 n = BitVec.ofNat 32 ((win.n + 1 - 1) * 10 ^ 10 / (at_ - win.t0)))) ∧
      (vget x.win none n ≠ none → Runs (.freqTimeout n) s fun t => vget t.fio.freq 0 n = 0 ∧ vget t.fio.win none n = none ∧ t.fio.cnt = x.cnt ∧ near t) ∧
      (vget x.win none n = none → Runs (.freqTimeout n) s fun t => t = s)) ∧
    (s.reachable FIO_CNT_CLR = true → Runs (.cntClr w) s fun t => (t.fio.clr.testBit n = (x.clr.testBit n || w.getLsbD n)) ∧ near t ∧ t.fio.cnt = x.cnt ∧ t.resp = .done) ∧
    (s.reachable FIO_CNT_CLR = false → Runs (.cntClr w) s fun t => t = { s with resp := .busError }) ∧
    (pulses → Runs (.testPulse h off) s fun t => ok t = (if fed h then off.getLsbD j else ok s) ∧
      cross t = (if fed (1 - h.val) then off.getLsbD j || decide unequal else cross s || decide unequal) ∧
      t.fio.tpSeen.testBit j = (x.tpSeen.testBit j || decide (fed h)) ∧ RegsBut s t [FIO_TPSTAT] ∧ t.fio.di = x.di ∧ MemSame s t) ∧
    (¬ pulses → Runs (.testPulse h off) s fun t => t = s)

/-- Outputs and the L+ monitor (R486 to R488, R494). -/
def FieldOutputsRules : Prop :=
  ∀ (s : State) (k : Fin 16) (w : Word) (b : Bool) (code : BitVec 12) (j : Fin 16),
    let x := s.fio
    let cmd (t : State) := t.fld FIO_DO Fld.FIO_DO_CMD
    let src := 0x0F00 + 32 + k.val
    let on (t : State) (k : Nat) := t.fio.doOn.testBit k
    let held (t : State) (k : Nat) := t.fio.held.testBit k
    let retry := (s.reg FIO_DO_CFG).getLsbD k
    let drives (k held : Nat) := !x.ov && (if x.fsAct then x.fs else x.cmd).testBit k && !held.testBit k
    let overload := s.fiOn = true ∧ on s k = true ∧ (b = true ∨ x.uv = false)
    let due := s.fiOn = true ∧ s.due (.doRetry k) = true ∧ x.uv = false
    let wants := retry = true ∧ held s k = true ∧ x.cmd.testBit k = true
    let open_ := s.fiOn = true ∧ x.uv = false ∧ (on s k = true ∨ (s.reg FIO_DO_CFG).getLsbD (16 + k.val) = true)
    let mV := code.toNat * 40000
    let st := FIO_STAT
    let uv (t : State) := t.fio.uv
    let ov (t : State) := t.fio.ov
    let off (c : Instr) := Runs c s fun t => t = { s with resp := .busError }
    let reg (t : State) (v : Nat) := cmd t = v % 65536 ∧ t.resp = .done ∧ t.fio = x ∧ RegsBut s t [FIO_DO] ∧ MemSame s t
    (s.reachable FIO_DO = true →
      (Runs (.doWrite w) s fun t => reg t w.toNat) ∧ (Runs (.doSet w) s fun t => reg t ((s.reg FIO_DO ||| w).toNat)) ∧
      (Runs (.doClr w) s fun t => reg t ((s.reg FIO_DO &&& ~~~w).toNat))) ∧
    (s.reachable FIO_DO = false → off (.doWrite w) ∧ off (.doSet w) ∧ off (.doClr w)) ∧
    (overload → s.fc.window = false → Runs (.doOverload k b) s fun t => held t k = true ∧ on t k = false ∧ t.fio.hot.testBit k = (x.hot.testBit k || b) ∧
      (t.reg (if b then FIO_DO_OT else FIO_DO_FLT)).getLsbD k = true ∧ ContainedOnce s t src ∧ RegsFcBut s t [if b then FIO_DO_OT else FIO_DO_FLT] ∧ cmd t = cmd s ∧
      (retry = true → ExpiresAt t (.doRetry k) (s.clock + 25000000)) ∧ (j ≠ k → held t j = held s j ∧ on t j = drives j x.held)) ∧
    (¬ overload → Runs (.doOverload k b) s fun t => t = s) ∧
    (due → wants → x.hot.testBit k = false ∨ b = true → Runs (.doRetry k b) s fun t => held t k = false ∧ on t k = drives k 0 ∧ t.fio.hot.testBit k = false ∧
      t.timerOn (.doRetry k) = false ∧ t.fc.conds.contains (src, 0) = false ∧ RegsBut s t [] ∧ (j ≠ k → held t j = held s j)) ∧
    (due → wants → x.hot.testBit k = true → b = false → Runs (.doRetry k b) s fun t => t.fio = x ∧ ExpiresAt t (.doRetry k) (s.clock + 25000000) ∧ RegsBut s t []) ∧
    (due → ¬ wants → Runs (.doRetry k b) s fun t => t.fio = x ∧ t.timerOn (.doRetry k) = false ∧ RegsBut s t []) ∧
    (¬ due → Runs (.doRetry k b) s fun t => t = s) ∧
    (open_ → Runs (.doOpenWire k) s fun t => (t.reg FIO_DO_FLT).getLsbD (16 + k.val) = true ∧ CorrectedOnce s t ∧ t.fio = x ∧ RegsFcBut s t [FIO_DO_FLT]) ∧
    (¬ open_ → Runs (.doOpenWire k) s fun t => t = s) ∧
    (s.fiOn = true → uv s = false → mV < 4096 * 17500 → Runs (.lpUv code) s fun t => uv t = true ∧ t.flag st Fld.FIO_STAT_LP_UV = true ∧
      t.flag st Fld.FIO_STAT_LP_UV_S = true ∧ CorrectedOnce s t ∧ t.fio = { x with uv := true } ∧ RegsFcBut s t [st]) ∧
    (s.fiOn = true → uv s = true → 4096 * 18500 < mV → Runs (.lpUv code) s fun t => t.fio = { x with uv := false } ∧ t.flag st Fld.FIO_STAT_LP_UV = false ∧ RegsBut s t [st]) ∧
    (s.fiOn = false ∨ uv s = false ∧ 4096 * 17500 ≤ mV ∨ uv s = true ∧ mV ≤ 4096 * 18500 → Runs (.lpUv code) s fun t => t = s) ∧
    (s.fiOn = true → ov s = false → 4096 * 31000 < mV → s.fc.window = false → Runs (.lpOv code) s fun t => ov t = true ∧ on t k = false ∧ t.fio.soHs = 0 ∧ t.fio.soLs = 0 ∧
      t.flag st Fld.FIO_STAT_LP_OV = true ∧ t.flag st Fld.FIO_STAT_LP_OV_S = true ∧ ContainedOnce s t 0x0FFF ∧ RegsFcBut s t [st] ∧ t.fio.cmd = x.cmd) ∧
    (s.fiOn = true → ov s = true → mV < 4096 * 30500 → Runs (.lpOv code) s fun t => ov t = false ∧ t.flag st Fld.FIO_STAT_LP_OV = false ∧ RegsBut s t [st] ∧
      on t k = ((if x.fsAct then x.fs else x.cmd).testBit k && !held s k) ∧ t.fc.conds.contains (0x0FFF, 1) = false) ∧
    (s.fiOn = false ∨ ov s = false ∧ mV ≤ 4096 * 31000 ∨ ov s = true ∧ 4096 * 30500 ≤ mV → Runs (.lpOv code) s fun t => t = s)

/-- Field inputs and outputs. -/
def Obligations.FieldPorts : Prop :=
  FieldInputsRules ∧ FieldOutputsRules

/-! ## Supplies, domains, modes, Wake -/

/-- Supply events (R497, R499, R515 to R518, R521, R522): the thresholds of VIN, the early warning, the power-downs with their log, the
cell and the backup supply. -/
def Obligations.SupplyEvents : Prop :=
  ∀ (s : State) (mv : BitVec 16) (r : Fin 6) (deep : Bool) (n : Fin 48) (k : Nat) (d : PowerDown), s.fc.window = false →
    let v := mv.toNat
    let st := SYS_VIN_STAT
    let warn := 100 * s.fld SYS_VIN_CFG Fld.SYS_VIN_CFG_WARN
    let asleep := s.mode = .dormant ∧ s.pwr.inReset = false
    let shown (t : State) := t.fld st Fld.SYS_VIN_STAT_MV = v / 10 % 2 ^ (Fld.SYS_VIN_STAT_MV.hi + 1 - Fld.SYS_VIN_STAT_MV.lo)
    let ok (t : State) := t.pwr.vinOk = (if 4300 ≤ v then true else if v < 4200 then false else s.pwr.vinOk)
    let on := s.domOn domTP = true
    let byte (t : State) (k : Nat) := (t.ret k).toNat
    let log (t : State) (evt step rail : Nat) := byte t 0 = evt ∧ byte t 1 = step ∧ byte t 2 = rail ∧ byte t 3 = modeCode s.mode ∧
      leNat ((List.range 8).map (fun k => t.ret (4 + k))) = s.time.line.toNat ∧ leNat ((List.range 4).map (fun k => t.ret (12 + k))) = s.pwr.rtc / 32768 % 2 ^ 32
    let sealed (t : State) := byte t 62 + 256 * byte t 63 = crc16 (retBytes t.pwr.ret)
    let off (t : State) := (∀ i : Fin 78, 2 ≤ i.val → t.domOn i = false) ∧ (∀ n : Fin 48, t.en n = false)
    let low (t : State) := s.pwr.wakeLand = false ∨ t.pwr.vinOk = false → t.mode = .dormant
    let counts (t : State) := let m := (s.reg SYS_BK_RETAIN_LO).toNat + 2 ^ 32 * ((s.reg SYS_BK_RETAIN_HI).toNat % 65536)
      leNat ((List.range 4).map (fun k => t.ret (64 + 4 * n.val + k))) = (if m.testBit n then (s.fbAt n).count.toNat % 2 ^ 32 else 0)
    (s.pwr.vinOk = false → 4300 ≤ v → Runs (.vinOkRise mv) s fun t => t.pwr.vinOk = true ∧ shown t ∧ t.fld SYS_BK_STAT Fld.SYS_BK_STAT_SRC = 0 ∧
      (asleep → s.flag SYS_BK_CFG Fld.SYS_BK_CFG_AUTO = true ∨ s.pwr.wakeLand = true ∨ s.pwr.alarmWaits = true →
        (t.mode = if s.pwr.straps.getLsbD 3 then .test else .wake) ∧ t.pwr.wakeAt = s.clock ∧ t.pwr.wakeStep = 0 ∧
        (t.reg SYS_WAKE).getLsbD 27 = s.flag SYS_BK_CFG Fld.SYS_BK_CFG_AUTO ∧ (t.reg SYS_WAKE).getLsbD 24 = s.pwr.wakeLand ∧ (t.reg SYS_WAKE).getLsbD 25 = s.pwr.alarmWaits) ∧
      (asleep → s.flag SYS_BK_CFG Fld.SYS_BK_CFG_AUTO = false → s.pwr.wakeLand = false → s.pwr.alarmWaits = false → RegsBut s t [st, SYS_BK_STAT])) ∧
    (s.pwr.vinOk = true ∨ v < 4300 → Runs (.vinOkRise mv) s fun t => t = s) ∧
    (s.vinWarn = false → v < warn → ¬ asleep → Runs (.vinWarn mv) s fun t => t.vinWarn = true ∧ shown t ∧ ok t ∧ t.flag st Fld.SYS_VIN_STAT_WARN_S = true ∧
      t.pwr.storeBlocked = true ∧ MemSame s t ∧
      (on → s.flag SYS_VIN_CFG Fld.SYS_VIN_CFG_WARN_ACT = true → ContainedOnce s t 0x11FE ∧
        (s.mode = .run ∨ s.mode = .degraded ∨ s.mode = .commission → s.flag SYS_MODE Fld.SYS_MODE_FROZEN = false → t.mode = .safeStop)) ∧
      (on → s.flag SYS_VIN_CFG Fld.SYS_VIN_CFG_WARN_ACT = false → CorrectedOnce s t ∧ t.mode = s.mode ∧ RegsFcBut s t [st, HOST_PS_STAT])) ∧
    (s.vinWarn = true ∨ warn ≤ v ∨ asleep → Runs (.vinWarn mv) s fun t => t = s) ∧
    (s.vinWarn = true → warn + 100 < v → Runs (.vinWarnClear mv) s fun t => t.vinWarn = false ∧ shown t ∧ ok t ∧ t.pwr.storeBlocked = false ∧ RegsBut s t [st] ∧ t.mode = s.mode) ∧
    (s.vinWarn = false ∨ v ≤ warn + 100 → Runs (.vinWarnClear mv) s fun t => t = s) ∧
    (v < 3900 → ¬ asleep → Runs (.vinUv mv) s fun t => t.mode = .dormant ∧ off t ∧ t.pwr.vinOk = false ∧ t.fld SYS_BK_STAT Fld.SYS_BK_STAT_SRC = 1 ∧
      (s.downReached 3 = false → log t 2 3 0xFF ∧ counts t ∧ sealed t) ∧ (s.downReached 3 = true → t.ret k = s.ret k) ∧
      (0x30000000 ≤ k → k < 0x40000000 → t.cell k = s.cell k) ∧ (0x08000000 ≤ k → k < 0x18000000 → t.cell k = 0) ∧ t.perf = s.perf ∧ t.pending = s.pending) ∧
    (v < 3900 → asleep → Runs (.vinUv mv) s fun t => shown t ∧ t.pwr.vinOk = false ∧ t.fld SYS_BK_STAT Fld.SYS_BK_STAT_SRC = 1 ∧ RegsBut s t [st, SYS_BK_STAT] ∧ MemSame s t) ∧
    (3900 ≤ v → Runs (.vinUv mv) s fun t => t = s) ∧
    (s.flag st Fld.SYS_VIN_STAT_OV = false → 30000 < v → ¬ asleep → Runs (.vinOv mv) s fun t => t.flag st Fld.SYS_VIN_STAT_OV = true ∧ shown t ∧ ok t ∧
      t.flag st Fld.SYS_VIN_STAT_OV_S = true ∧ (on → ContainedOnce s t 0x11FE ∧ (s.mode = .run → s.flag SYS_MODE Fld.SYS_MODE_FROZEN = false → t.mode = .safeStop))) ∧
    (s.flag st Fld.SYS_VIN_STAT_OV = true ∨ v ≤ 30000 ∨ asleep → Runs (.vinOv mv) s fun t => t = s) ∧
    (s.flag st Fld.SYS_VIN_STAT_OV = true → v < 29500 → Runs (.vinOvClear mv) s fun t => t.flag st Fld.SYS_VIN_STAT_OV = false ∧ shown t ∧ RegsBut s t [st]) ∧
    (s.flag st Fld.SYS_VIN_STAT_OV = false ∨ 29500 ≤ v → Runs (.vinOvClear mv) s fun t => t = s) ∧
    (¬ asleep → Runs (.railFail r) s fun t => off t ∧ low t ∧ t.fld SYS_RAIL_STAT Fld.SYS_RAIL_STAT_OK = 0 ∧ (t.reg SYS_RAIL_STAT).getLsbD (16 + r.val) = true ∧
      (s.pwr.down = none → log t 4 0 r.val) ∧ (s.pwr.down = some d → log t 3 d.step r.val) ∧ sealed t ∧
      (24 ≤ k → k < 62 ∨ 64 ≤ k → t.ret k = s.ret k) ∧ t.perf = s.perf) ∧
    (asleep → Runs (.railFail r) s fun t => t = s) ∧
    (v < 2200 → s.pwr.vbakLow = false → s.pwr.vinOk = true → Runs (.vbakLow mv) s fun t => t.pwr.vbakLow = true ∧ t.flag SYS_BK_STAT Fld.SYS_BK_STAT_VBAK_LOW = true ∧
      (on → CorrectedOnce s t ∧ RegsFcBut s t [SYS_BK_STAT]) ∧ (¬ on → RegsBut s t [SYS_BK_STAT])) ∧
    (2200 ≤ v → Runs (.vbakLow mv) s fun t => t.pwr = { s.pwr with vbakLow := false } ∧ RegsBut s t []) ∧
    (v < 2200 → s.pwr.vbakLow = true ∨ s.pwr.vinOk = false → Runs (.vbakLow mv) s fun t => t = s) ∧
    (Runs (.bkSupplyDip deep) s fun t => t.flag SYS_BK_STAT Fld.SYS_BK_STAT_RV = false ∧ RegsBut s t [SYS_BK_STAT] ∧ MemSame s t ∧ (deep = false → t.pwr = s.pwr))

/-- Domains and mode requests (R500 to R508, R511): which domain may change, what a refused request leaves, what becomes of a
domain that goes off, starts or is lost; the results of a mode request where no flights run. -/
def Obligations.DomainsAndModes : Prop :=
  ∀ (s : State) (i : Initiator) (g : Fin 3) (w : Word) (b : Fin 32) (d : Fin 78) (m : Fin 8) (a o : Nat), s.fc.window = false →
    let req := SYS_PWR_REQ g
    let dom (b : Fin 32) := 32 * g.val + b.val
    let was (b : Fin 32) := (s.reg req).getLsbD b
    let v := w &&& cpBits req
    let want (b : Fin 32) := v.getLsbD b
    let hold := s.mode = .hold
    let axis (k : Nat) := s.en k = true
    let armed := s.flag SAFE_STAT Fld.SAFE_STAT_ARMED = true ∨ s.flag SAFE_SDT_STAT Fld.SAFE_SDT_STAT_ARMED = true
    let may (b : Fin 32) := let j := dom b
      if want b then domPresent s.part j = true ∧ 2 ≤ j ∧ j ≠ 4 ∧ j ≠ 17 ∧ j ≠ 21
      else if j = 2 ∨ j = 3 then hold ∧ s.domOn (5 - j) = true ∧ v.getLsbD (5 - j) = true ∧ initNo i ≠ j - 2 ∧ (j = 3 → ¬ armed)
      else if 5 ≤ j ∧ j < 17 then s.engineNeeded (j - 5) = false
      else if j = 18 then ¬ (1 ≤ s.fld ACQ_STAT Fld.ACQ_STAT_STATE ∧ s.fld ACQ_STAT Fld.ACQ_STAT_STATE ≤ 3)
      else if j = 19 then hold
      else if j = 20 then s.flag SAFE_SDT_STAT Fld.SAFE_SDT_STAT_ARMED = false ∧ s.fld (CAN_TM_CFG 0) Fld.CAN_TM_CFG_MODE = 0 ∧ s.fld (CAN_TM_CFG 1) Fld.CAN_TM_CFG_MODE = 0
      else if j = 22 then s.psBusy = false
      else if 23 ≤ j ∧ j < 29 then (∀ k : Fin 8, 8 * (j - 23) + k.val < axisCount s.part → ¬ axis (8 * (j - 23) + k)) ∧ s.groupSafety (j - 23) = false
      else if 29 ≤ j ∧ j < 77 then ¬ axis (j - 29)
      else if j = 77 then hold ∧ ¬ armed
      else False
    let fine := (∀ b : Fin 32, want b ≠ was b → may b)
    let first := want b ≠ was b ∧ ¬ may b ∧ ∀ c : Fin 32, c < b → want c = was c ∨ may c
    let start := s.pwr.starting.contains d.val = true
    let lost := 2 ≤ d.val ∧ s.domReq d = true ∧ s.domOn d = true ∧ s.pwr.lost.contains d.val = false
    let plain := d.val = 2 ∨ d.val = 3 ∨ d.val = 18 ∨ 20 ≤ d.val ∧ d.val ≤ 21 ∨ 23 ≤ d.val ∧ d.val < 29 ∨ d.val = 77
    let src := 0x1100 + d.val
    let mode (P : State → Prop) := Runs (.modeReq i m) s P
    let code (t : State) := t.fld SYS_MODE Fld.SYS_MODE_REQ_CODE
    let free := s.pairFree i SYS_MODE_REQ = true ∧ s.domOn domSC = true
    let now := free ∧ s.running = false ∧ s.hwSafeOn = false ∧ s.pwr.down = none ∧ s.flag SYS_MODE Fld.SYS_MODE_FROZEN = false
    let answers (c : Nat) := mode fun t => code t = c ∧ t.mode = s.mode ∧ t.resp = .done
    let moves := s.mode = .run ∨ s.mode = .degraded ∨ s.mode = .commission
    (s.pairFree i req = true → fine → Runs (.pwrReq i g w) s fun t => (t.resp = .done) ∧ t.reg req = v ∧
      (want b = true → was b = false → t.pwr.starting.contains (dom b) = true ∧ t.domOn (dom b) = s.domOn (dom b)) ∧
      (want b = false → was b = true → t.domOn (dom b) = false ∧ t.pwr.starting.contains (dom b) = false ∧ t.pwr.lost.contains (dom b) = false) ∧
      (want b = was b → t.domOn (dom b) = s.domOn (dom b)) ∧ t.reg SYS_PWR_CODE = s.reg SYS_PWR_CODE ∧ t.mode = s.mode ∧
      (dom b = 18 → want b = false → was b = true → t.cell (0x14000000 + a % 0x800000) = 0 ∧ t.reg ACQ_CFG = regReset s.part ACQ_CFG) ∧ t.perf = s.perf) ∧
    (s.pairFree i req = true → first → Runs (.pwrReq i g w) s fun t => t.resp = .busError ∧ CorrectedOnce s t ∧
      t.flag SYS_PWR_CODE Fld.SYS_PWR_CODE_ERR = true ∧ t.fld SYS_PWR_CODE Fld.SYS_PWR_CODE_DOM = dom b ∧ t.pwr = s.pwr ∧ RegsFcBut s t [SYS_PWR_CODE] ∧ MemSame s t) ∧
    (¬ start → Runs (.domainReady d) s fun t => t = s) ∧
    (start → d.val = 4 ∨ 17 ≤ d.val → Runs (.domainReady d) s fun t => t.domOn d = true ∧ t.pwr.starting.contains d.val = false ∧ t.mode = s.mode ∧
      (d.val = 22 → t.flag PS_STAT Fld.PS_STAT_CAL_DONE = true) ∧ (23 ≤ d.val → d.val < 29 → t.flag (EN_GSTAT (8 * (d.val - 23))) Fld.EN_GSTAT_TDC_OK = true) ∧
      (d.val = 77 → t.flag FIO_STAT Fld.FIO_STAT_LINK_OK = true ∧ t.flag FIO_STAT Fld.FIO_STAT_FPWR_OK = true)) ∧
    (start → 5 ≤ d.val → d.val < 17 → (s.kernelLoad (d.val - 5)).2 = true → Runs (.domainReady d) s fun t => t.domOn d = true ∧ t.pwr.starting.contains d.val = false ∧
      (t.leAt (d.val - 5)).prog = ((s.kernelLoad (d.val - 5)).1.leAt (d.val - 5)).prog ∧ t.fc = s.fc) ∧
    (start → 5 ≤ d.val → d.val < 17 → (s.kernelLoad (d.val - 5)).2 = false → Runs (.domainReady d) s fun t => t.domOn d = s.domOn d ∧ ContainedOnce s t src) ∧
    (start → d.val = 2 ∨ d.val = 3 → vget s.boot.slot none (d.val - 2) = some o → s.imageHash o = s.hdrHash o → Runs (.domainReady d) s fun t => t.domOn d = true ∧
      (t.svAt (d.val - 2)).up = true ∧ t.fc = s.fc) ∧
    (start → d.val = 2 ∨ d.val = 3 → vget s.boot.slot none (d.val - 2) = none ∨ (vget s.boot.slot none (d.val - 2) = some o ∧ s.imageHash o ≠ s.hdrHash o) → Runs (.domainReady d) s fun t => t.domOn d = true ∧
      FatalOnce s t 0x1000 ∧ (t.svAt (d.val - 2)).up = (s.svAt (d.val - 2)).up) ∧
    (¬ lost → Runs (.domainLoss d) s fun t => t = s) ∧
    (lost → plain → Runs (.domainLoss d) s fun t => t.domOn d = false ∧ t.pwr.lost.contains d.val = true ∧ ContainedOnce s t src ∧ t.domReq d = true ∧ t.mode = s.mode) ∧
    (lost → 29 ≤ d.val → d.val < 77 → Runs (.domainLoss d) s fun t => t.domOn d = false ∧ t.pwr.lost.contains d.val = true ∧ ContainedOnce s t src ∧
      (s.queueAt (d.val - 29)).stopCol.length ≤ (t.queueAt (d.val - 29)).stopCol.length ∧ (t.queueAt (d.val - 29)).stopCol.contains src = true) ∧
    (lost → d.val = 17 → Runs (.domainLoss d) s fun t => t.hwSafeOn = true ∧ t.pwr.lost.contains 17 = true) ∧
    (lost → d.val = 4 ∨ d.val = 19 ∨ d.val = 22 → Runs (.domainLoss d) s fun t => t.domOn d = false ∧ FatalOnce s t src ∧ t.pwr.lost.contains d.val = true) ∧
    (lost → 5 ≤ d.val → d.val < 17 → Runs (.domainLoss d) s fun t => t.domOn d = false ∧ t.pwr.lost.contains d.val = true) ∧
    (s.pairFree i SYS_MODE_REQ = true → s.domOn domSC = false → Refused (.modeReq i m) s) ∧
    (free → s.running = true → mode fun t => code t = 0xFF ∧ t.pwr.modeReq = some m.val ∧ t.mode = s.mode ∧ RegsBut s t [SYS_MODE, SYS_MODE_REQ]) ∧
    (free → s.running = false → s.hwSafeOn = true → answers 4) ∧
    (free → s.running = false → s.hwSafeOn = false → s.pwr.down ≠ none → answers 1) ∧
    (now → s.mode = .safeStop → answers 3) ∧
    (now → s.mode ≠ .safeStop →
      (m = 1 ∨ m = 5 ∨ m = 6 ∨ m = 7 → answers 1) ∧
      (m = 2 → hold → s.vinWarn = false → mode fun t => code t = 0 ∧ t.mode = .commission ∧ RegsBut s t [SYS_MODE, SYS_MODE_REQ]) ∧
      (m = 2 → hold → s.vinWarn = true → answers 5) ∧ (m = 2 → s.mode = .commission → answers 0) ∧ (m = 2 → ¬ hold → s.mode ≠ .commission → answers 1) ∧
      (m = 3 → moves → mode fun t => code t = 0 ∧ t.mode = .safeStop ∧ (a < 80 → (t.queueAt a).stopSrc.testBit 3 = true)) ∧
      (m = 3 → hold → answers 0) ∧
      (m = 3 → s.mode = .wake → s.pwr.wakeStep < 11 → s.pwr.wakeFailed = false → answers 1) ∧
      (m = 3 → s.mode = .wake → 11 ≤ s.pwr.wakeStep ∨ s.pwr.wakeFailed = true → mode fun t => code t = 0 ∧ t.mode = .hold ∧ (∀ n : Fin 48, n.val < axisCount s.part → t.en n = false)) ∧
      (m = 4 → hold ∨ s.mode = .commission → s.runMissing ≠ 0 → mode fun t => code t = 2 ∧ t.fld SYS_MODE Fld.SYS_MODE_MISSING = s.runMissing ∧ t.mode = s.mode) ∧
      (m = 4 → s.mode = .run → answers 0) ∧ (m = 4 → ¬ hold → s.mode ≠ .commission → s.mode ≠ .run → answers 1) ∧
      (m = 0 → ¬ hold → answers 1) ∧
      (m = 0 → hold → mode fun t => code t = 0 ∧ t.mode = .hold ∧ (∀ n : Fin 48, t.en n = false) ∧
        t.pwr.down = some { step := 1, at_ := s.clock } ∧ t.stoGroups = 0xFFF))

/-- Wake, reset and the clock of the backup domain (R508 to R510, R513, R514, R520, R523). -/
def Obligations.WakeAndReset : Prop :=
  ∀ (s : State) (i : Initiator) (straps : BitVec 4) (level ok : Bool) (w : Word) (j : Nat) (rec blk : List Byte),
    let awake := ¬ (s.mode = .dormant ∧ s.pwr.inReset = false)
    let k := s.pwr.wakeStep + 1
    let steps := s.mode = .wake ∧ s.pwr.inReset = false ∧ s.pwr.wakeFailed = false ∧ k ≤ 12
    let code (t : State) := t.fld SYS_WAKE Fld.SYS_WAKE_CODE
    let fails := ok = false ∧ k ≠ 1 ∧ k ≠ 12
    let load (t : State) := t.fld SAFE_STAT Fld.SAFE_STAT_LOAD_CODE
    let sload (t : State) := t.fld SAFE_SDT_STAT Fld.SAFE_SDT_STAT_LOAD_CODE
    let on (t : State) (l : List Nat) := ∀ d ∈ l, domPresent s.part d = true → t.domOn d = true
    let names (c : Nat) (t : State) := (code s = 0 → code t = c ∧ t.fld SYS_WAKE Fld.SYS_WAKE_STEP = k) ∧ (code s ≠ 0 → code t = code s)
    let wakes (t : State) (st : BitVec 4) (cause : Nat) := (t.mode = if st.getLsbD 3 then .test else .wake) ∧ t.pwr.wakeAt = s.clock ∧ t.pwr.wakeStep = 0 ∧ t.pwr.inReset = false ∧
      (t.reg SYS_WAKE).toNat / 2 ^ 24 % 16 = cause
    let step (P : State → Prop) := Runs (.wakeStepComplete ok []) s P
    let limit := s.mode = .wake ∧ s.pwr.inReset = false ∧ s.pwr.wakeAt + 350 * 250000 ≤ s.clock
    let alarm := s.pwr.rtc / 32768 % 2 ^ 32 = (s.reg SYS_RTC_ALARM).toNat
    let sleeps := s.mode = .dormant ∧ s.pwr.inReset = false
    let held := Tbl.find? s.loHold (2 ^ 32 * initNo i + SYS_RTC_LO)
    let trusted := s.flag SYS_BK_STAT Fld.SYS_BK_STAT_RV = true ∧ (s.ret 62).toNat + 256 * (s.ret 63).toNat = crc16 (retBytes s.pwr.ret)
    (¬ steps → step fun t => t = s) ∧
    (steps → k = 1 ∨ k = 10 → step fun t => t.pwr.wakeStep = k ∧ t.mode = .wake ∧ (¬ fails → code t = code s) ∧ (fails → names 8 t) ∧ RegsBut s t [SYS_WAKE] ∧ MemSame s t) ∧
    (steps → k = 11 → step fun t => t.pwr.wakeStep = 11 ∧ t.mode = .wake ∧
      (s.record? 2 = none → load t = load s ∧ t.armed = s.armed) ∧
      (s.record? 2 = some rec → storedBlock s.part rec = none → load t = 6) ∧
      (s.record? 2 = some rec → storedBlock s.part rec = some blk → s.chanReady false = true → s.chanReady true = true →
        load t = 0 ∧ t.safe.a.val = blk ∧ t.safe.b.val = blk ∧ t.armed = true) ∧
      (s.record? 2 = some rec → storedBlock s.part rec = some blk → s.chanReady false = false ∨ s.chanReady true = false → load t = 4) ∧
      (ok = true → load t = 0 → sload t = 0 → code t = code s) ∧ (ok = false ∨ load t ≠ 0 ∨ sload t ≠ 0 → names 9 t)) ∧
    (steps → k = 2 → ok = true → step fun t => t.pwr.wakeStep = 2 ∧ t.fld SYS_RAIL_STAT Fld.SYS_RAIL_STAT_OK = 0x7F ∧ code t = code s ∧ RegsBut s t [SYS_WAKE, SYS_RAIL_STAT]) ∧
    (steps → k = 3 → ok = true → step fun t => t.pwr.wakeStep = 3 ∧ on t [17, 21] ∧ code t = code s) ∧
    (steps → k = 4 → ok = true → step fun t => t.pwr.wakeStep = 4 ∧ on t [4, 2, 3] ∧ code t = code s) ∧
    (steps → 2 ≤ k → k ≤ 4 → fails → step fun t => t.pwr.wakeFailed = true ∧ names (k - 1) t ∧ t.mode = .wake ∧ on t [4, 2, 17, 21] ∧
      (∀ d : Fin 78, 2 ≤ d.val → d.val ≠ 2 → d.val ≠ 4 → d.val ≠ 17 → d.val ≠ 21 → domPresent s.part d = true → t.domOn d = false)) ∧
    (steps → k = 5 → s.pwr.straps.toNat % 4 = 2 → step fun t => t.pwr.wakeStep = 5 ∧ t.flag HOST_BOOT_STAT Fld.HOST_BOOT_STAT_RECOVERY = true ∧ names 4 t ∧ t.pwr.wakeFailed = true) ∧
    (steps → k = 6 → step fun t => t.pwr.wakeStep = 6 ∧ on t [77] ∧ (ok = true → code t = code s)) ∧
    (steps → k = 7 → vget s.boot.slot none 2 = none → step fun t => t.pwr.wakeStep = 7 ∧ on t ((List.range 12).map (5 + ·)) ∧ code t = code s) ∧
    (steps → k = 8 → step fun t => t.pwr.wakeStep = 8 ∧ on t ((List.range 48).map (29 + ·) ++ (List.range 6).map (23 + ·) ++ [22]) ∧ (ok = true → code t = code s) ∧ (ok = false → names 6 t)) ∧
    (steps → k = 9 → step fun t => t.pwr.wakeStep = 9 ∧ on t [18, 19, 20] ∧ (ok = true → code t = code s)) ∧
    (steps → k = 12 → step fun t => t.pwr.wakeStep = 12 ∧ t.pwr.retDone = true ∧ t.mode = .wake ∧ code t = code s ∧
      (trusted → t.pwr.ret = s.pwr.ret ∧ t.reg SYS_BK_STAT = s.reg SYS_BK_STAT) ∧
      (¬ trusted → t.flag SYS_BK_STAT Fld.SYS_BK_STAT_RDATA_INV = true ∧ t.flag SYS_BK_STAT Fld.SYS_BK_STAT_HOME_REQ = true ∧ t.flag SYS_BK_STAT Fld.SYS_BK_STAT_RTC_INV = true ∧
        t.flag SYS_BK_STAT Fld.SYS_BK_STAT_RV = true ∧ (j ≠ 62 → j ≠ 63 → t.ret j = 0) ∧ (t.ret 62).toNat + 256 * (t.ret 63).toNat = crc16 (retBytes t.pwr.ret))) ∧
    (limit → s.flag SYS_MODE Fld.SYS_MODE_FROZEN = false → Runs .wakeTimeout s fun t => t.mode = .hold ∧ (code s = 0 → code t = 7) ∧ (code s ≠ 0 → code t = code s) ∧ (∀ n : Fin 48, n.val < axisCount s.part → t.en n = false) ∧
      t.fld SYS_WAKE Fld.SYS_WAKE_TIME = min ((s.clock - s.pwr.wakeAt) / 250000) 511) ∧
    (¬ limit → Runs .wakeTimeout s fun t => t = s) ∧
    (awake → s.pwr.inReset = false → Runs .resetNAssert s fun t => t.pwr.inReset = true ∧ t.pwr.resetLow = true ∧ (t.ret 0).toNat = 6 ∧ (t.ret 2).toNat = 0xFF ∧
      (∀ d : Fin 78, 2 ≤ d.val → t.domOn d = false) ∧ (∀ n : Fin 48, t.en n = false) ∧ t.perf = s.perf ∧ (24 ≤ j → j < 62 ∨ 64 ≤ j → t.ret j = s.ret j)) ∧
    (¬ awake ∨ s.pwr.inReset = true → Runs .resetNAssert s fun t => t = { s with pwr := { s.pwr with resetLow := true } }) ∧
    (s.pwr.resetLow = true → s.pwr.inReset = true ∨ sleeps → s.pwr.vinOk = true → Runs (.resetNRelease straps) s fun t =>
      wakes t straps (4 + (if s.pwr.wakeLand then 1 else 0) + (if s.pwr.alarmWaits then 2 else 0)) ∧ t.fld SYS_WAKE Fld.SYS_WAKE_STRAPS = straps.toNat ∧ t.pwr.resetLow = false) ∧
    (s.pwr.resetLow = true → ¬ (s.pwr.inReset = true ∨ sleeps) ∨ s.pwr.vinOk = false → Runs (.resetNRelease straps) s fun t =>
      t = { s with pwr := { s.pwr with straps := straps, resetLow := false } }) ∧
    (s.pwr.resetLow = false → Runs (.resetNRelease straps) s fun t => t = { s with pwr := { s.pwr with straps := straps } }) ∧
    (level = true → sleeps → s.pwr.vinOk = true → Runs (.wakeLand level) s fun t => wakes t s.pwr.straps (1 + if s.pwr.alarmWaits then 2 else 0) ∧ t.pwr.wakeLand = true) ∧
    (level = false ∨ ¬ sleeps ∨ s.pwr.vinOk = false → Runs (.wakeLand level) s fun t => t = { s with pwr := { s.pwr with wakeLand := level } }) ∧
    (alarm → Runs .rtcAlarm s fun t => t.flag SYS_BK_STAT Fld.SYS_BK_STAT_ALARM = true ∧ t.pwr.rtc = s.pwr.rtc ∧ MemSame s t ∧
      (sleeps → s.flag SYS_BK_CFG Fld.SYS_BK_CFG_ALARM_EN = true → s.pwr.vinOk = true → wakes t s.pwr.straps (2 + if s.pwr.wakeLand then 1 else 0)) ∧
      (sleeps → s.flag SYS_BK_CFG Fld.SYS_BK_CFG_ALARM_EN = true → s.pwr.vinOk = false → t.pwr = { s.pwr with alarmWaits := true } ∧ RegsBut s t [SYS_BK_STAT]) ∧
      (¬ sleeps ∨ s.flag SYS_BK_CFG Fld.SYS_BK_CFG_ALARM_EN = false → t.pwr = s.pwr ∧ RegsBut s t [SYS_BK_STAT])) ∧
    (¬ alarm → Runs .rtcAlarm s fun t => t = s) ∧
    (s.reachable SYS_RTC_HI = true → (Runs (.rtcHiWrite i w) s fun t => t.pwr = { s.pwr with rtc := (held.map BitVec.toNat).getD (s.pwr.rtc % 2 ^ 32) + 2 ^ 32 * (w.toNat % 65536) } ∧
        Tbl.find? t.loHold (2 ^ 32 * initNo i + SYS_RTC_LO) = none ∧ RegsBut s t [] ∧ t.resp = .done) ∧
      Runs (.sysRtcLo i) s fun t => t.resp = .data (BitVec.ofNat 32 s.pwr.rtc) ∧ Tbl.get 0 t.hiLatch (2 ^ 32 * initNo i + SYS_RTC_HI) = BitVec.ofNat 32 (s.pwr.rtc / 2 ^ 32) ∧
        t.pwr = s.pwr ∧ RegsBut s t []) ∧
    (s.reachable SYS_RTC_HI = false → (Runs (.rtcHiWrite i w) s fun t => t = { s with resp := .busError }) ∧ Runs (.sysRtcLo i) s fun t => t = { s with resp := .data 0 })

/-! ## Images, flash, keys, the parameter store, the wharf -/

/-- VERIFY, REBOOT and the NOR service (R535, R536, HOST_CTRL): where a request is accepted, the codes in the order of their checks
(the order of 0x01, 0x05, 0x03 and 0x02 is the model's choice, log entry 206), what an erase and a program leave in the flash. -/
def Obligations.FlashService : Prop :=
  ∀ (s : State) (i : Initiator) (w : Word) (err : Bool) (k o : Nat) (x : NorOp),
    let stat := HOST_NOR_STAT
    let up := s.reachable HOST_CTRL = true
    let calm := s.mode = .hold ∨ s.mode = .commission
    let boots (t : State) := (∀ d : Fin 78, 2 ≤ d.val → t.domOn d = false) ∧ (∀ n : Fin 48, t.en n = false) ∧ (t.ret 0).toNat = 6 ∧ (t.ret 3).toNat = modeCode s.mode ∧
      (0x30000000 ≤ k → k < 0x40000000 → t.cell k = s.cell k) ∧ (0x08000000 ≤ k → k < 0x18000000 → t.cell k = 0) ∧ t.perf = s.perf ∧
      (s.pwr.vinOk = true → t.mode = (if s.pwr.straps.getLsbD 3 then .test else .wake) ∧ t.pwr.wakeAt = s.clock ∧ t.pwr.wakeStep = 0 ∧ t.pwr.inReset = false) ∧
      (s.pwr.vinOk = false → t.pwr.inReset = true)
    let vcode (c : Nat) := Runs .verifyDone s fun t => t.fld stat Fld.HOST_NOR_STAT_VCODE = c ∧ t.flag stat Fld.HOST_NOR_STAT_VBUSY = false ∧ t.boot.verify = none ∧
      RegsBut s t [stat] ∧ MemSame s t ∧ t.fld stat Fld.HOST_NOR_STAT_CODE = s.fld stat Fld.HOST_NOR_STAT_CODE ∧
      ((Tbl.get (0 : Word) (s.svAt 0).icCfg 21).toNat.testBit 4 = true → (t.svAt 0).icEdge.contains 21 = true)
    let rec? := s.boot.verify.bind fun r => if (memTarget s.part r.1 r.2 64).isSome then s.bytesAt r.1 r.2 64 else none
    let a := (s.reg HOST_NOR_ADDR).toNat
    let len := (s.reg HOST_NOR_LEN).toNat
    let src (n : Nat) := memTarget s.part i (s.reg HOST_NOR_SRC).toNat n
    let nor := s.reachable HOST_NOR_CTRL = true
    let ready := nor ∧ s.boot.nor = none ∧ s.mode = .commission ∧ s.vinWarn = false
    let rangeE := a + 4096 ≤ 0x10000000 ∧ a % 4096 = 0
    let rangeP := a + len ≤ 0x10000000 ∧ 1 ≤ len ∧ len ≤ 65536 ∧ (src len).isSome = true
    let code (c : Instr) (x : Nat) := Runs c s fun t => t.fld stat Fld.HOST_NOR_STAT_CODE = x ∧ t.boot = s.boot ∧ t.resp = .done ∧ RegsBut s t [stat] ∧ MemSame s t
    let begins (c : Instr) (x : NorOp) := Runs c s fun t => t.fld stat Fld.HOST_NOR_STAT_CODE = 0xFF ∧ t.boot = { s.boot with nor := some x } ∧ t.resp = .done ∧ RegsBut s t [stat] ∧ MemSame s t
    let same (c : Instr) := Runs c s fun t => t = { s with resp := .busError }
    (¬ up ∨ ¬ calm → same (.verify i w) ∧ same (.reboot i w)) ∧
    (up → calm → Runs (.reboot i w) s boots ∧ (w.getLsbD 0 = true → Runs (.verify i w) s boots)) ∧
    (up → calm → w.getLsbD 0 = false → s.boot.verify = none → Runs (.verify i w) s fun t => t.flag stat Fld.HOST_NOR_STAT_VBUSY = true ∧ t.resp = .done ∧
      t.boot = { s.boot with verify := some (i, (s.reg HOST_NOR_SRC).toNat) } ∧ t.fld stat Fld.HOST_NOR_STAT_CODE = s.fld stat Fld.HOST_NOR_STAT_CODE ∧ RegsBut s t [stat] ∧ MemSame s t) ∧
    (up → calm → w.getLsbD 0 = false → s.boot.verify.isSome = true → same (.verify i w)) ∧
    (s.boot.verify = none → Runs .verifyDone s fun t => t = s) ∧
    (s.boot.verify.isSome = true → rec? = none ∨ (rec?.any recordOk) = false → vcode 1) ∧
    (s.boot.verify.isSome = true → (rec?.any recordOk) = true → vcode (s.setCode (rec?.getD []) (lf (rec?.getD []) 40 1) false).1) ∧
    (¬ nor ∨ s.boot.nor.isSome = true → same (.norErase i) ∧ same (.norProgram i)) ∧
    (nor → s.boot.nor = none → s.mode ≠ .commission → code (.norErase i) 1 ∧ code (.norProgram i) 1) ∧
    (nor → s.boot.nor = none → s.mode = .commission → s.vinWarn = true → code (.norErase i) 5 ∧ code (.norProgram i) 5) ∧
    (ready → (¬ rangeE → code (.norErase i) 3) ∧ (rangeE → s.norProtected a (a + 4096) = true → code (.norErase i) 2) ∧
      (rangeE → s.norProtected a (a + 4096) = false → begins (.norErase i) { op := 1, addr := a, src := (src 4096).getD 0, len := 4096 })) ∧
    (ready → (¬ rangeP → code (.norProgram i) 3) ∧ (rangeP → s.norProtected a (a + len) = true → code (.norProgram i) 2) ∧
      (rangeP → s.norProtected a (a + len) = false → begins (.norProgram i) { op := 2, addr := a, src := (src len).getD 0, len := len })) ∧
    (s.boot.record = some o → a ≤ o + 63 → o / 4096 * 4096 ≤ a → s.norProtected a (a + 4096) = true) ∧
    (s.boot.nor = none → Runs (.norOpDone err) s fun t => t = s) ∧
    (s.boot.nor = some x → Runs (.norOpDone err) s fun t => t.boot.nor = none ∧ t.fld stat Fld.HOST_NOR_STAT_CODE = (if err then 4 else 0) ∧ RegsBut s t [stat] ∧
      (o < 0x30000000 + x.addr ∨ 0x30000000 + x.addr + x.len ≤ o → t.cell o = s.cell o) ∧
      (err = false → k < x.len → x.op = 1 → t.cell (0x30000000 + x.addr + k) = 0xFF) ∧
      (err = false → k < x.len → x.op ≠ 1 → s.cell (0x30000000 + x.addr + k) = 0xFF → t.cell (0x30000000 + x.addr + k) = s.cell (x.src + k)))

/-- Key slots (R527, HOST_KEY_CTRL): a slot is programmed once, with the hash that stands at HOST_NOR_SRC, and a revocation is never
taken back; both only in Commission, and no slot of a booted image is revoked. -/
def Obligations.KeySlots : Prop :=
  ∀ (s : State) (i : Initiator) (k j : Fin 4) (c : Instr), s.fc.window = false → s.pairFree i HOST_KEY_CTRL = true →
    let hash := s.bytesAt i (s.reg HOST_NOR_SRC).toNat 32
    let inUse := ∃ y : Fin 4, (vget s.boot.slot none y).map (fun o => (s.cell (0x30000000 + o + 7)).toNat) = some k.val
    let mayP := s.mode = .commission ∧ vget s.boot.keys none k = none ∧ hash.isSome = true
    let mayR := s.mode = .commission ∧ ¬ inUse
    let keeps (t : State) := RegsBut s t [HOST_KEY_CTRL] ∧ MemSame s t ∧ t.resp = .done ∧ t.fc = s.fc
    (mayP → Runs (.keyProgram i k) s fun t => keeps t ∧ vget t.boot.keys none k = some (beNat (hash.getD [])) ∧ (j ≠ k → vget t.boot.keys none j = vget s.boot.keys none j) ∧
      t.boot = { s.boot with keys := t.boot.keys }) ∧
    (¬ mayP → Refused (.keyProgram i k) s ∧ Runs (.keyProgram i k) s fun t => t.boot = s.boot) ∧
    (mayR → Runs (.keyRevoke i k) s fun t => keeps t ∧ vget t.boot.revoked false k = true ∧ (j ≠ k → vget t.boot.revoked false j = vget s.boot.revoked false j) ∧
      t.boot = { s.boot with revoked := t.boot.revoked }) ∧
    (¬ mayR → Refused (.keyRevoke i k) s ∧ Runs (.keyRevoke i k) s fun t => t.boot = s.boot) ∧
    (Runs c s fun t => (vget s.boot.revoked false j = true → vget t.boot.revoked false j = true) ∧
      ((vget s.boot.keys none j).isSome = true → vget t.boot.keys none j = vget s.boot.keys none j))

/-- Requests to the record service (R541 to R543, HOST_PS_CTRL): the codes of a refusal, and what a request that is taken runs. The
clauses on a request speak of a word with no bit of another request; the commands' own bit is set in any case. -/
def StoreRequestsRules : Prop :=
  ∀ (s : State) (i : Initiator) (w : Word),
    let stat := HOST_PS_STAT
    let up := s.reachable HOST_PS_CTRL = true
    let lone (b : Nat) := w.toNat % 32 = 0 ∨ w.toNat % 32 = b
    let key := (s.reg HOST_PS_KEY).toNat % 65536
    let len := (s.reg HOST_PS_LEN).toNat
    let addr := (s.reg HOST_PS_ADDR).toNat
    let compacting := s.boot.ps.any (fun p => p.2 == .compact) = true
    let busy := (s.boot.ps.isSome = true ∧ ¬ compacting) ∨ s.boot.psWait.any (·.1) = true
    let blocked := s.pwr.storeBlocked = true
    let free := up ∧ ¬ busy ∧ ¬ blocked
    let same (c : Instr) := Runs c s fun t => t = { s with resp := .busError }
    let code (c : Instr) (x : Nat) := Runs c s fun t => t.fld stat Fld.HOST_PS_STAT_CODE = x ∧ t.boot = s.boot ∧ t.resp = .done ∧ RegsBut s t [stat] ∧ MemSame s t
    let takes (c : Instr) (op : PsOp) := Runs c s fun t => t.fld stat Fld.HOST_PS_STAT_CODE = 0xFF ∧ t.resp = .done ∧ RegsBut s t [stat] ∧ MemSame s t ∧
      (s.boot.ps = none → t.boot = { s.boot with ps := some (true, op) } ∧ t.flag stat Fld.HOST_PS_STAT_COMPACTING = (op == .compact)) ∧
      (compacting → t.boot = { s.boot with psWait := (true, op) :: s.boot.psWait } ∧ t.flag stat Fld.HOST_PS_STAT_COMPACTING = true)
    let comm := s.mode = .commission
    let all (f : Instr → Prop) := (lone 1 → f (.psWrite i w)) ∧ (lone 2 → f (.psRead i w)) ∧ (lone 4 → f (.psCompact i w)) ∧ (lone 8 → comm → f (.psIdent i w)) ∧ (lone 16 → comm → f (.psFiocfg i w))
    let own := key < 0x100 ∨ key = 0xFFFF
    let target := memTarget s.part i addr len
    let n := ((s.current key).map s.recLen).getD 0
    (¬ up → same (.psWrite i w) ∧ same (.psRead i w) ∧ same (.psCompact i w) ∧ same (.psIdent i w) ∧ same (.psFiocfg i w)) ∧
    (¬ comm → same (.psIdent i w) ∧ same (.psFiocfg i w) ∧ (8 ≤ w.toNat % 32 → same (.psWrite i w) ∧ same (.psRead i w) ∧ same (.psCompact i w))) ∧
    (up → busy → all fun c => code c 6) ∧
    (up → ¬ busy → blocked → all fun c => code c 5) ∧
    (free → lone 1 → (own → code (.psWrite i w) 1) ∧ (¬ own → 32720 < len → code (.psWrite i w) 2) ∧
      (¬ own → len ≤ 32720 → target = none ∨ s.bytesAt i addr len = none → code (.psWrite i w) 8) ∧
      (¬ own → len ≤ 32720 → target.isSome = true → (s.bytesAt i addr len).isSome = true → takes (.psWrite i w) (.write key ((s.bytesAt i addr len).getD [])))) ∧
    (free → lone 2 → (key = 0 ∨ key = 0xFFFF → code (.psRead i w) 1) ∧
      (key ≠ 0 → key ≠ 0xFFFF → s.payloadTarget i addr n = none → code (.psRead i w) 8) ∧
      (key ≠ 0 → key ≠ 0xFFFF → (s.payloadTarget i addr n).isSome = true → takes (.psRead i w) (.read key ((s.payloadTarget i addr n).getD 0)))) ∧
    (free → lone 4 → takes (.psCompact i w) .compact) ∧
    (free → lone 8 → comm → takes (.psIdent i w) (.write 1 (leBytes 4 (s.reg SYS_ADDR).toNat ++ leBytes 4 (s.reg ETH_MAC_LO).toNat ++ leBytes 2 (s.reg ETH_MAC_HI).toNat ++ [0, 0]))) ∧
    (free → lone 16 → comm → takes (.psFiocfg i w) (.write 4 (((List.range 32).map FIO_DI_CFG ++ [FIO_DO_CFG, FIO_DO_FS, FIO_TP]).flatMap fun a => leBytes 4 (s.reg a).toNat)))

/-- The record service at work (R540, R542, R543, R545): a record that was written is valid, current under its key and carries one
more than the newest version; a read serves the newest version that passes its checks; compaction releases its segment. -/
def StoreRecordsRules : Prop :=
  ∀ (s : State) (fw : Bool) (key a k r r2 g : Nat) (val : List Byte) (q : Bool × PsOp), s.fc.window = false → s.domOn domHB = true →
    let stat := HOST_PS_STAT
    let done (P : State → Prop) := Runs .psDone s P
    let code (t : State) (c : Nat) := t.fld stat Fld.HOST_PS_STAT_CODE = if fw then c else s.fld stat Fld.HOST_PS_STAT_CODE
    let write := s.boot.ps = some (fw, .write key val)
    let size := 32 + 2 * ((val.length + 7) / 8 * 8)
    let newest := s.newest ((s.boot.recs.filter s.recIndexed).filter fun x => s.recKey x == key)
    let quiet := s.boot.psWait = []
    let read := s.boot.ps = some (fw, .read key a)
    let older := ({ s with boot := { s.boot with bad := s.boot.bad ++ [r] } } : State).current key
    let gives (x c : Nat) (t : State) := code t c ∧ (t.reg HOST_PS_VER).toNat = s.recVer x % 2 ^ 32 ∧ (t.reg HOST_PS_LEN).toNat = s.recLen x % 2 ^ 32 ∧
      (k < s.recLen x → t.cell (a + k) = s.cell (x + 16 + k)) ∧ (k < a ∨ a + s.recLen x ≤ k → t.cell k = s.cell k) ∧ RegsFcBut s t [stat, HOST_PS_VER, HOST_PS_LEN]
    (s.boot.ps = none → quiet → done fun t => RegsBut s t [stat] ∧ MemSame s t ∧ t.boot = s.boot) ∧
    (s.boot.ps = none → s.boot.psWait.head? = some q → (s.pwr.storeBlocked = false → done fun t => t.boot = { s.boot with ps := some q, psWait := s.boot.psWait.tail } ∧ MemSame s t) ∧
      (s.pwr.storeBlocked = true → done fun t => t.boot = s.boot ∧ MemSame s t)) ∧
    (write → quiet → s.segFor size = some g → s.storeKeys.contains key = true ∨ s.storeKeys.length < 1024 → val.length ≤ 32720 → key < 65536 →
      let x := 0x1C000000 + 65536 * g + s.segFill g
      done fun t => code t 0 ∧ t.boot.recs = s.boot.recs ++ [x] ∧ t.recValid x = true ∧ t.recKey x = key ∧ t.recLen x = val.length ∧ t.storeBytes (x + 16) val.length = val ∧
        (t.reg HOST_PS_VER).toNat = t.recVer x ∧ (newest = some r → t.recVer x = (s.recVer r + 1) % 2 ^ 32) ∧ t.segFill g = s.segFill g + size ∧
        (k < x ∨ x + size ≤ k → t.cell k = s.cell k) ∧ RegsBut s t [stat, HOST_PS_VER]) ∧
    (write → s.storeKeys.contains key = false → 1024 ≤ s.storeKeys.length → done fun t => code t 4 ∧ MemSame s t ∧ t.boot.recs = s.boot.recs ∧ RegsBut s t [stat]) ∧
    (read → quiet → s.current key = none → done fun t => code t 3 ∧ MemSame s t ∧ RegsBut s t [stat]) ∧
    (read → quiet → s.current key = some r → s.recValid r = true → s.recLen r = 0 → done fun t => code t 3 ∧ MemSame s t ∧ RegsBut s t [stat]) ∧
    (read → quiet → s.current key = some r → s.recValid r = true → s.recLen r ≠ 0 → done (gives r 0)) ∧
    (read → quiet → s.current key = some r → s.recValid r = false → r ≠ r2 → older = some r2 → s.recValid r2 = true → s.recLen r2 ≠ 0 →
      done fun t => gives r2 7 t ∧ CorrectedOnce s t ∧ t.boot.bad = s.boot.bad ++ [r]) ∧
    (s.boot.ps = some (fw, .compact) → quiet → s.segVictim = none → done fun t => code t 0 ∧ MemSame s t ∧ t.flag stat Fld.HOST_PS_STAT_COMPACTING = false ∧ t.boot = { s.boot with ps := none }) ∧
    (s.boot.ps = some (fw, .compact) → quiet → s.segVictim = some g → (s.boot.recs.all fun x => segOf x != g || !s.isCurrent x) = true →
      done fun t => code t 0 ∧ MemSame s t ∧ t.segFill g = 16 ∧ (∀ x ∈ t.boot.recs, segOf x ≠ g) ∧ t.boot.ps = none)

/-- The parameter store. -/
def Obligations.ParameterStore : Prop :=
  StoreRequestsRules ∧ StoreRecordsRules

/-- The wharf (R537, R538): its status and identity, a READ word by word, a WRITE that waits to be accepted. -/
def Obligations.WharfCommands : Prop :=
  ∀ (s : State) (addr w : Word) (len : Nat) (late : List Nat) (ws : List Word),
    let on := s.domOn domHB = true
    let busy := s.boot.wr.2 ≠ []
    let acc := (s.reg HOST_WHARF_ACC).toNat
    let quiet := on ∧ s.boot.wr.2 = []
    let ff (t : State) := t.boot.wout = [0xFF, 0xFF, 0xFF, 0xFF]
    let irq := (s.hostRead HOST_WIRQ).toNat
    let open' := acc.testBit 1 = true ∧ (s.mode = .run ∨ s.mode = .degraded ∨ s.mode = .safeStop → acc.testBit 2 = true)
    let read (l : List Nat) (P : State → Prop) := Runs (.wharfRead addr 4 l) s P
    (¬ on → (Runs .rdsr s fun t => t = s) ∧ (Runs .rdid s fun t => t = s) ∧ (Runs (.wharfRead addr len late) s fun t => t = s) ∧ Runs (.wharfWrite addr ws) s fun t => t = s) ∧
    (on → (Runs .rdsr s fun t => t.boot = { s.boot with late := false, werr := false, ovr := false, wout := t.boot.wout } ∧ RegsBut s t [] ∧ MemSame s t ∧
        leNat t.boot.wout = (if s.boot.wr.2 = [] then 0 else 1) + (if s.boot.late then 2 else 0) + (if s.boot.werr then 4 else 0) + (if s.boot.ovr then 8 else 0) +
          (if irq % 8 &&& irq / 65536 % 8 = 0 then 0 else 16) ∧ t.boot.wout.length = 2) ∧
      Runs .rdid s fun t => t = { s with boot := { s.boot with wout := t.boot.wout } } ∧ leNat t.boot.wout = (s.reg SYS_ID).toNat ∧ t.boot.wout.length = 4) ∧
    (on → ws = [] ∨ 64 < ws.length → Runs (.wharfWrite addr ws) s fun t => t = s) ∧
    (on → ws ≠ [] → ws.length ≤ 64 → busy → Runs (.wharfWrite addr ws) s fun t => t = { s with boot := { s.boot with ovr := true } }) ∧
    (on → ws ≠ [] → ws.length ≤ 64 → ¬ busy → Runs (.wharfWrite addr ws) s fun t => t = { s with boot := { s.boot with wr := (addr.toNat, ws) } }) ∧
    (len < 4 ∨ 256 < len → Runs (.wharfRead addr len late) s fun t => t = s) ∧
    (quiet → 4 ≤ len → len ≤ 256 → acc.testBit 0 = true → 0x30000000 ≤ addr.toNat → addr.toNat + 256 ≤ 0x40000000 → addr.toNat % 4 = 0 →
      Runs (.wharfRead addr len []) s fun t => t.boot.wout = (List.range len).map (fun j => s.cell (addr.toNat + j)) ∧ RegsBut s t [] ∧ MemSame s t ∧ t.boot.werr = s.boot.werr ∧ t.boot.late = s.boot.late) ∧
    (quiet → acc.testBit 0 = false → read late fun t => ff t ∧ t.boot.werr = true ∧ t.boot.late = (s.boot.late || late.contains 0) ∧ RegsBut s t [] ∧ MemSame s t) ∧
    (quiet → acc.testBit 0 = true → s.absent .wharf addr.toNat = true → read late fun t => ff t ∧ t.boot.werr = true ∧ RegsBut s t [] ∧ MemSame s t) ∧
    (quiet → acc.testBit 0 = true → addr.toNat ∈ [HOST_DB_FW, HOST_DB_HOST, SYS_RTC_ALARM, HOST_NOR_ADDR] → s.reachable addr.toNat = true →
      (late.contains 0 = false → read late fun t => leNat t.boot.wout = (s.reg addr.toNat).toNat ∧ t.boot.wout.length = 4 ∧ RegsBut s t [] ∧ t.boot.werr = s.boot.werr) ∧
      (late.contains 0 = true → read late fun t => ff t ∧ t.boot.late = true ∧ RegsBut s t [] ∧ t.boot.werr = s.boot.werr)) ∧
    (on → s.boot.wr = (HOST_DB_FW, [w]) → addr.toNat = HOST_DB_FW → acc.testBit 0 = true →
      (open' → read [] fun t => t.reg HOST_DB_FW = w ∧ leNat t.boot.wout = w.toNat ∧ t.boot.wr.2 = [] ∧ RegsBut s t [HOST_DB_FW] ∧ t.boot.werr = s.boot.werr) ∧
      (¬ open' → read [] fun t => RegsBut s t [] ∧ t.boot.werr = true ∧ t.boot.wr.2 = []))
end

