-- ==== Sys2Proof/Laws/Bits.lean ====
section
/-! SUPPORT. Laws of bit fields. -/

namespace Sys2Proof.Machine

theorem bits_lt (w hi lo : Nat) : bits w hi lo < 2 ^ (hi + 1 - lo) := Nat.mod_lt _ (Nat.two_pow_pos _)

theorem fget_lt (w : Word) (f : Fld) : fget w f < 2 ^ (f.hi + 1 - f.lo) := bits_lt _ _ _

/-- A number cut at `lo`, at the top of a field of `n` bits. -/
theorem field_split (w lo n : Nat) :
    w = w % 2 ^ lo + 2 ^ lo * (w / 2 ^ lo % 2 ^ n) + 2 ^ (lo + n) * (w / 2 ^ (lo + n)) := by
  have h1 := Nat.mod_add_div w (2 ^ lo)
  have h2 := Nat.mod_add_div (w / 2 ^ lo) (2 ^ n)
  have h3 : w / 2 ^ lo / 2 ^ n = w / 2 ^ (lo + n) := by rw [Nat.div_div_eq_div_mul, ← Nat.pow_add]
  rw [h3] at h2
  calc w = w % 2 ^ lo + 2 ^ lo * (w / 2 ^ lo) := h1.symm
    _ = w % 2 ^ lo + 2 ^ lo * (w / 2 ^ lo % 2 ^ n + 2 ^ n * (w / 2 ^ (lo + n))) := by rw [h2]
    _ = _ := by rw [Nat.mul_add, Nat.pow_add, Nat.mul_assoc, Nat.add_assoc]

/-- The number of `fset`: the field replaced, the rest as it was. -/
theorem fset_split (w lo n v : Nat) :
    w - w / 2 ^ lo % 2 ^ n * 2 ^ lo + v % 2 ^ n * 2 ^ lo =
      w % 2 ^ lo + 2 ^ lo * (v % 2 ^ n) + 2 ^ (lo + n) * (w / 2 ^ (lo + n)) := by
  have h := field_split w lo n
  have e1 : w / 2 ^ lo % 2 ^ n * 2 ^ lo = 2 ^ lo * (w / 2 ^ lo % 2 ^ n) := Nat.mul_comm _ _
  have e2 : v % 2 ^ n * 2 ^ lo = 2 ^ lo * (v % 2 ^ n) := Nat.mul_comm _ _
  rw [e1, e2]
  omega

theorem fset_lt (w lo n v : Nat) (hw : w < 2 ^ 32) (hn : lo + n ≤ 32) :
    w % 2 ^ lo + 2 ^ lo * (v % 2 ^ n) + 2 ^ (lo + n) * (w / 2 ^ (lo + n)) < 2 ^ 32 := by
  have h1 : w % 2 ^ lo < 2 ^ lo := Nat.mod_lt _ (Nat.two_pow_pos _)
  have h2 : v % 2 ^ n < 2 ^ n := Nat.mod_lt _ (Nat.two_pow_pos _)
  have h3 : w / 2 ^ (lo + n) < 2 ^ (32 - (lo + n)) := by
    rw [Nat.div_lt_iff_lt_mul (Nat.two_pow_pos _), ← Nat.pow_add]
    have : 32 - (lo + n) + (lo + n) = 32 := by omega
    rw [this]; exact hw
  have h4 : w % 2 ^ lo + 2 ^ lo * (v % 2 ^ n) < 2 ^ (lo + n) := by
    rw [Nat.pow_add]
    calc w % 2 ^ lo + 2 ^ lo * (v % 2 ^ n) < 2 ^ lo + 2 ^ lo * (v % 2 ^ n) := by omega
      _ = 2 ^ lo * (v % 2 ^ n + 1) := by rw [Nat.mul_add, Nat.mul_one, Nat.add_comm]
      _ ≤ 2 ^ lo * 2 ^ n := Nat.mul_le_mul_left _ h2
  have h5 : (2 : Nat) ^ 32 = 2 ^ (lo + n) * 2 ^ (32 - (lo + n)) := by rw [← Nat.pow_add]; congr 1; omega
  rw [h5]
  calc w % 2 ^ lo + 2 ^ lo * (v % 2 ^ n) + 2 ^ (lo + n) * (w / 2 ^ (lo + n))
      < 2 ^ (lo + n) + 2 ^ (lo + n) * (w / 2 ^ (lo + n)) := by omega
    _ = 2 ^ (lo + n) * (w / 2 ^ (lo + n) + 1) := by rw [Nat.mul_add, Nat.mul_one, Nat.add_comm]
    _ ≤ 2 ^ (lo + n) * 2 ^ (32 - (lo + n)) := Nat.mul_le_mul_left _ h3

theorem fset_toNat (w : Word) (f : Fld) (v : Nat) (h1 : f.lo ≤ f.hi) (h2 : f.hi < 32) :
    (fset w f v).toNat = w.toNat % 2 ^ f.lo + 2 ^ f.lo * (v % 2 ^ (f.hi + 1 - f.lo)) +
      2 ^ (f.hi + 1) * (w.toNat / 2 ^ (f.hi + 1)) := by
  have e : f.lo + (f.hi + 1 - f.lo) = f.hi + 1 := by omega
  have hs := fset_split w.toNat f.lo (f.hi + 1 - f.lo) v
  have hl := fset_lt w.toNat f.lo (f.hi + 1 - f.lo) v w.isLt (by omega)
  rw [e] at hs hl
  unfold fset fget bits
  rw [Nat.shiftRight_eq_div_pow, hs, BitVec.toNat_ofNat, Nat.mod_eq_of_lt hl]

/-- A field just written reads back, cut to its width. -/
theorem fget_fset_same (w : Word) (f : Fld) (v : Nat) (h1 : f.lo ≤ f.hi) (h2 : f.hi < 32) :
    fget (fset w f v) f = v % 2 ^ (f.hi + 1 - f.lo) := by
  unfold fget bits
  rw [fset_toNat w f v h1 h2, Nat.shiftRight_eq_div_pow]
  have e : 2 ^ (f.hi + 1) = 2 ^ f.lo * 2 ^ (f.hi + 1 - f.lo) := by rw [← Nat.pow_add]; congr 1; omega
  rw [e, Nat.mul_assoc, Nat.add_assoc, ← Nat.mul_add, Nat.add_mul_div_left _ _ (Nat.two_pow_pos _),
    Nat.div_eq_of_lt (Nat.mod_lt _ (Nat.two_pow_pos _)), Nat.zero_add, Nat.add_mul_mod_self_left, Nat.mod_mod]

/-- Another field keeps its value. -/
theorem fget_fset_other (w : Word) (f g : Fld) (v : Nat) (h1 : f.lo ≤ f.hi) (h2 : f.hi < 32)
    (h : g.hi < f.lo ∨ f.hi < g.lo) : fget (fset w f v) g = fget w g := by
  unfold fget bits
  rw [fset_toNat w f v h1 h2, Nat.shiftRight_eq_div_pow, Nat.shiftRight_eq_div_pow]
  rcases h with h | h
  · -- the field lies below
    have key : ∀ x : Nat, x / 2 ^ g.lo % 2 ^ (g.hi + 1 - g.lo) = x % 2 ^ f.lo / 2 ^ g.lo % 2 ^ (g.hi + 1 - g.lo) := by
      intro x
      by_cases hg : g.lo ≤ g.hi
      · have e : 2 ^ f.lo = 2 ^ g.lo * 2 ^ (f.lo - g.lo) := by rw [← Nat.pow_add]; congr 1; omega
        rw [e, Nat.mod_mul_right_div_self, Nat.mod_mod_of_dvd]
        exact Nat.pow_dvd_pow 2 (by omega)
      · have : g.hi + 1 - g.lo = 0 := by omega
        simp [this, Nat.mod_one]
    rw [key, key w.toNat]
    congr 2
    have e : 2 ^ (f.hi + 1) = 2 ^ f.lo * 2 ^ (f.hi + 1 - f.lo) := by rw [← Nat.pow_add]; congr 1; omega
    rw [e, Nat.mul_assoc, Nat.add_assoc, ← Nat.mul_add, Nat.add_mul_mod_self_left, Nat.mod_mod]
  · -- the field lies above
    have e : g.lo = f.hi + 1 + (g.lo - (f.hi + 1)) := by omega
    have key : ∀ x : Nat, x / 2 ^ g.lo = x / 2 ^ (f.hi + 1) / 2 ^ (g.lo - (f.hi + 1)) := by
      intro x; rw [Nat.div_div_eq_div_mul, ← Nat.pow_add, ← e]
    rw [key, key w.toNat]
    congr 2
    rw [Nat.add_mul_div_left _ _ (Nat.two_pow_pos _)]
    have e2 : 2 ^ (f.hi + 1) = 2 ^ f.lo * 2 ^ (f.hi + 1 - f.lo) := by rw [← Nat.pow_add]; congr 1; omega
    have hlt : w.toNat % 2 ^ f.lo + 2 ^ f.lo * (v % 2 ^ (f.hi + 1 - f.lo)) < 2 ^ (f.hi + 1) := by
      rw [e2]
      have h3 : w.toNat % 2 ^ f.lo < 2 ^ f.lo := Nat.mod_lt _ (Nat.two_pow_pos _)
      have h4 : v % 2 ^ (f.hi + 1 - f.lo) < 2 ^ (f.hi + 1 - f.lo) := Nat.mod_lt _ (Nat.two_pow_pos _)
      calc _ < 2 ^ f.lo + 2 ^ f.lo * (v % 2 ^ (f.hi + 1 - f.lo)) := by omega
        _ = 2 ^ f.lo * (v % 2 ^ (f.hi + 1 - f.lo) + 1) := by rw [Nat.mul_add, Nat.mul_one, Nat.add_comm]
        _ ≤ _ := Nat.mul_le_mul_left _ h4
    rw [Nat.div_eq_of_lt hlt, Nat.zero_add]

end Sys2Proof.Machine
end

