-- ==== Sys2Proof/Laws/Tbl.lean ====
section
/-! SUPPORT. Laws of sparse tables: a read after a write, the canonical form. -/

namespace Sys2Proof.Machine

variable {α : Type}

@[simp] theorem Tbl.find?_erase_same (t : Tbl α) (k : Nat) : Tbl.find? (Tbl.erase t k) k = none := by
  induction t with
  | nil => rfl
  | cons e t ih =>
    obtain ⟨a, v⟩ := e
    by_cases h : a = k <;> simp [Tbl.erase, Tbl.find?, h, ih]

theorem Tbl.find?_erase_other (t : Tbl α) {j k : Nat} (h : j ≠ k) : Tbl.find? (Tbl.erase t k) j = Tbl.find? t j := by
  induction t with
  | nil => rfl
  | cons e t ih =>
    obtain ⟨a, v⟩ := e
    by_cases ha : a = k
    · subst ha; simp [Tbl.erase, Tbl.find?, ih, Ne.symm h]
    · by_cases hj : a = j <;> simp [Tbl.erase, Tbl.find?, ha, hj, ih]
      simp [hj ▸ ha, Tbl.find?]

@[simp] theorem Tbl.find?_insert_same (t : Tbl α) (k : Nat) (v : α) : Tbl.find? (Tbl.insert t k v) k = some v := by
  induction t with
  | nil => simp [Tbl.insert, Tbl.find?]
  | cons e t ih =>
    obtain ⟨a, w⟩ := e
    simp only [Tbl.insert]
    split
    · simp [Tbl.find?]
    · split
      · simp [Tbl.find?]
      · rename_i h _; simp [Tbl.find?, h, ih]

theorem Tbl.find?_insert_other (t : Tbl α) {j k : Nat} (v : α) (h : j ≠ k) :
    Tbl.find? (Tbl.insert t k v) j = Tbl.find? t j := by
  induction t with
  | nil => simp [Tbl.insert, Tbl.find?, Ne.symm h]
  | cons e t ih =>
    obtain ⟨a, w⟩ := e
    simp only [Tbl.insert]
    split
    · rename_i ha; subst ha; simp [Tbl.find?, Ne.symm h]
    · split
      · simp [Tbl.find?, Ne.symm h]
      · simp [Tbl.find?, ih]

/-- A table that keeps some keys reads as it did there. -/
theorem Tbl.find?_keep (t : Tbl α) (p : Nat → Bool) (k : Nat) :
    Tbl.find? (Tbl.keep t p) k = if p k then Tbl.find? t k else none := by
  induction t with
  | nil => simp [Tbl.keep, Tbl.find?]
  | cons e t ih =>
    obtain ⟨a, v⟩ := e
    unfold Tbl.keep at *
    by_cases ha : a = k
    · subst ha
      by_cases hp : p a <;> simp [List.filter, Tbl.find?, hp, ih]
    · by_cases hp : p a <;> simp [List.filter, Tbl.find?, hp, ha, ih]

variable [DecidableEq α]

/-- A read of the key just written. -/
@[simp] theorem Tbl.get_put_same (d : α) (t : Tbl α) (k : Nat) (v : α) : Tbl.get d (Tbl.put d t k v) k = v := by
  unfold Tbl.get Tbl.put
  split
  · rename_i h; simp [h]
  · simp

/-- A read of another key. -/
theorem Tbl.get_put_other (d d' : α) (t : Tbl α) {j k : Nat} (v : α) (h : j ≠ k) :
    Tbl.get d (Tbl.put d' t k v) j = Tbl.get d t j := by
  unfold Tbl.get Tbl.put
  split
  · rw [Tbl.find?_erase_other _ h]
  · rw [Tbl.find?_insert_other _ _ h]

theorem Tbl.get_put (d : α) (t : Tbl α) (j k : Nat) (v : α) :
    Tbl.get d (Tbl.put d t k v) j = if j = k then v else Tbl.get d t j := by
  split
  · rename_i h; subst h; simp
  · rename_i h; exact Tbl.get_put_other d d t v h

omit [DecidableEq α] in
theorem Tbl.get_keep (d : α) (t : Tbl α) (p : Nat → Bool) (k : Nat) :
    Tbl.get d (Tbl.keep t p) k = if p k then Tbl.get d t k else d := by
  unfold Tbl.get; rw [Tbl.find?_keep]; split <;> simp

/-! ### The canonical form -/

theorem Tbl.wfFrom_mono {d : Nat → α} {lo : Option Nat} {t : Tbl α} {a : Nat} (h : Tbl.wfFrom d (some a) t = true)
    (hl : lo.all (· ≤ a)) : Tbl.wfFrom d lo t = true := by
  cases t with
  | nil => rfl
  | cons e t =>
    obtain ⟨b, v⟩ := e
    simp only [Tbl.wfFrom, Option.all_some, Bool.and_eq_true, decide_eq_true_eq] at h ⊢
    refine ⟨⟨?_, h.1.2⟩, h.2⟩
    cases lo with
    | none => rfl
    | some l => simp at hl ⊢; omega

theorem Tbl.wfFrom_erase {d : Nat → α} {lo : Option Nat} {t : Tbl α} (k : Nat) (h : Tbl.wfFrom d lo t = true) :
    Tbl.wfFrom d lo (Tbl.erase t k) = true := by
  induction t generalizing lo with
  | nil => simpa [Tbl.erase] using h
  | cons e t ih =>
    obtain ⟨a, v⟩ := e
    simp only [Tbl.wfFrom, Bool.and_eq_true, decide_eq_true_eq] at h
    simp only [Tbl.erase]
    split
    · refine wfFrom_mono (ih h.2) ?_
      have := h.1.1
      cases lo <;> simp_all; omega
    · simp only [Tbl.wfFrom, Bool.and_eq_true, decide_eq_true_eq]
      exact ⟨h.1, ih h.2⟩

theorem Tbl.wfFrom_insert {d : Nat → α} {lo : Option Nat} {t : Tbl α} {k : Nat} {v : α} (h : Tbl.wfFrom d lo t = true)
    (hk : lo.all (· < k)) (hv : v ≠ d k) : Tbl.wfFrom d lo (Tbl.insert t k v) = true := by
  induction t generalizing lo with
  | nil => simp [Tbl.insert, Tbl.wfFrom, hk, hv]
  | cons e t ih =>
    obtain ⟨a, w⟩ := e
    simp only [Tbl.wfFrom, Bool.and_eq_true, decide_eq_true_eq] at h
    simp only [Tbl.insert]
    split
    · rename_i ha; subst ha
      simp [Tbl.wfFrom, hk, hv, h.2]
    · split
      · rename_i hlt
        simp [Tbl.wfFrom, hk, hv, hlt, h.1.2, h.2]
      · rename_i h1 h2
        simp only [Tbl.wfFrom, Bool.and_eq_true, decide_eq_true_eq]
        exact ⟨h.1, ih h.2 (by simp; omega)⟩

/-- A write keeps the canonical form. -/
theorem Tbl.wf_put {d : Nat → α} {t : Tbl α} (k : Nat) (v : α) (h : Tbl.wf d t = true) :
    Tbl.wf d (Tbl.put (d k) t k v) = true := by
  unfold Tbl.wf Tbl.put at *
  split
  · exact wfFrom_erase k h
  · rename_i hv; exact wfFrom_insert h rfl hv

/-- Leaving some keys keeps the canonical form. -/
theorem Tbl.wf_keep {d : Nat → α} {t : Tbl α} (p : Nat → Bool) (h : Tbl.wf d t = true) : Tbl.wf d (Tbl.keep t p) = true := by
  unfold Tbl.wf Tbl.keep at *
  revert h
  generalize (none : Option Nat) = lo
  intro h
  induction t generalizing lo with
  | nil => simpa using h
  | cons e t ih =>
    obtain ⟨a, v⟩ := e
    simp only [Tbl.wfFrom, Bool.and_eq_true, decide_eq_true_eq] at h
    by_cases hp : p a
    · simp [List.filter, hp, Tbl.wfFrom, h.1.1, h.1.2, ih (some a) h.2]
    · simp only [List.filter, hp]
      refine wfFrom_mono (ih (some a) h.2) ?_
      have := h.1.1
      cases lo <;> simp_all; omega

@[simp] theorem Tbl.wf_nil (d : Nat → α) : Tbl.wf d ([] : Tbl α) = true := rfl

end Sys2Proof.Machine
end

