-- ==== Sys2Proof/Laws/State.lean ====
section
/-! SUPPORT. What each update of the state leaves in each field, and how registers, fields and instances read after it. -/

namespace Sys2Proof.Machine

/-! ### setReg -/

@[simp] theorem State.setReg_part (s : State) (a : Nat) (w : Word) : (s.setReg a w).part = s.part := rfl
@[simp] theorem State.setReg_pending (s : State) (a : Nat) (w : Word) : (s.setReg a w).pending = s.pending := rfl
@[simp] theorem State.setReg_clock (s : State) (a : Nat) (w : Word) : (s.setReg a w).clock = s.clock := rfl
@[simp] theorem State.setReg_free (s : State) (a : Nat) (w : Word) : (s.setReg a w).free = s.free := rfl
@[simp] theorem State.setReg_cpDiff (s : State) (a : Nat) (w : Word) : (s.setReg a w).cpDiff = s.cpDiff := rfl
@[simp] theorem State.setReg_cpArmed (s : State) (a : Nat) (w : Word) : (s.setReg a w).cpArmed = s.cpArmed := rfl
@[simp] theorem State.setReg_hiLatch (s : State) (a : Nat) (w : Word) : (s.setReg a w).hiLatch = s.hiLatch := rfl
@[simp] theorem State.setReg_loHold (s : State) (a : Nat) (w : Word) : (s.setReg a w).loHold = s.loHold := rfl
@[simp] theorem State.setReg_resp (s : State) (a : Nat) (w : Word) : (s.setReg a w).resp = s.resp := rfl
@[simp] theorem State.setReg_mem (s : State) (a : Nat) (w : Word) : (s.setReg a w).mem = s.mem := rfl
@[simp] theorem State.setReg_timers (s : State) (a : Nat) (w : Word) : (s.setReg a w).timers = s.timers := rfl
@[simp] theorem State.setReg_perf (s : State) (a : Nat) (w : Word) : (s.setReg a w).perf = s.perf := rfl
@[simp] theorem State.setReg_time (s : State) (a : Nat) (w : Word) : (s.setReg a w).time = s.time := rfl
@[simp] theorem State.setReg_eth (s : State) (a : Nat) (w : Word) : (s.setReg a w).eth = s.eth := rfl
@[simp] theorem State.setReg_tt (s : State) (a : Nat) (w : Word) : (s.setReg a w).tt = s.tt := rfl
@[simp] theorem State.setReg_tow (s : State) (a : Nat) (w : Word) : (s.setReg a w).tow = s.tow := rfl
@[simp] theorem State.setReg_mirror (s : State) (a : Nat) (w : Word) : (s.setReg a w).mirror = s.mirror := rfl
@[simp] theorem State.setReg_le (s : State) (a : Nat) (w : Word) : (s.setReg a w).le = s.le := rfl
@[simp] theorem State.setReg_link (s : State) (a : Nat) (w : Word) : (s.setReg a w).link = s.link := rfl
@[simp] theorem State.setReg_ax (s : State) (a : Nat) (w : Word) : (s.setReg a w).ax = s.ax := rfl
@[simp] theorem State.setReg_sdd (s : State) (a : Nat) (w : Word) : (s.setReg a w).sdd = s.sdd := rfl
@[simp] theorem State.setReg_fb (s : State) (a : Nat) (w : Word) : (s.setReg a w).fb = s.fb := rfl
@[simp] theorem State.setReg_psync (s : State) (a : Nat) (w : Word) : (s.setReg a w).psync = s.psync := rfl
@[simp] theorem State.setReg_safe (s : State) (a : Nat) (w : Word) : (s.setReg a w).safe = s.safe := rfl
@[simp] theorem State.setReg_fio (s : State) (a : Nat) (w : Word) : (s.setReg a w).fio = s.fio := rfl
@[simp] theorem State.setReg_acq (s : State) (a : Nat) (w : Word) : (s.setReg a w).acq = s.acq := rfl
@[simp] theorem State.setReg_can (s : State) (a : Nat) (w : Word) : (s.setReg a w).can = s.can := rfl
@[simp] theorem State.setReg_basin (s : State) (a : Nat) (w : Word) : (s.setReg a w).basin = s.basin := rfl
@[simp] theorem State.setReg_fc (s : State) (a : Nat) (w : Word) : (s.setReg a w).fc = s.fc := rfl
@[simp] theorem State.setReg_pwr (s : State) (a : Nat) (w : Word) : (s.setReg a w).pwr = s.pwr := rfl
@[simp] theorem State.setReg_boot (s : State) (a : Nat) (w : Word) : (s.setReg a w).boot = s.boot := rfl
@[simp] theorem State.setReg_sv (s : State) (a : Nat) (w : Word) : (s.setReg a w).sv = s.sv := rfl

/-! ### setFld -/

@[simp] theorem State.setFld_part (s : State) (a : Nat) (f : Fld) (v : Nat) : (s.setFld a f v).part = s.part := rfl
@[simp] theorem State.setFld_pending (s : State) (a : Nat) (f : Fld) (v : Nat) : (s.setFld a f v).pending = s.pending := rfl
@[simp] theorem State.setFld_clock (s : State) (a : Nat) (f : Fld) (v : Nat) : (s.setFld a f v).clock = s.clock := rfl
@[simp] theorem State.setFld_free (s : State) (a : Nat) (f : Fld) (v : Nat) : (s.setFld a f v).free = s.free := rfl
@[simp] theorem State.setFld_cpDiff (s : State) (a : Nat) (f : Fld) (v : Nat) : (s.setFld a f v).cpDiff = s.cpDiff := rfl
@[simp] theorem State.setFld_cpArmed (s : State) (a : Nat) (f : Fld) (v : Nat) : (s.setFld a f v).cpArmed = s.cpArmed := rfl
@[simp] theorem State.setFld_hiLatch (s : State) (a : Nat) (f : Fld) (v : Nat) : (s.setFld a f v).hiLatch = s.hiLatch := rfl
@[simp] theorem State.setFld_loHold (s : State) (a : Nat) (f : Fld) (v : Nat) : (s.setFld a f v).loHold = s.loHold := rfl
@[simp] theorem State.setFld_resp (s : State) (a : Nat) (f : Fld) (v : Nat) : (s.setFld a f v).resp = s.resp := rfl
@[simp] theorem State.setFld_mem (s : State) (a : Nat) (f : Fld) (v : Nat) : (s.setFld a f v).mem = s.mem := rfl
@[simp] theorem State.setFld_timers (s : State) (a : Nat) (f : Fld) (v : Nat) : (s.setFld a f v).timers = s.timers := rfl
@[simp] theorem State.setFld_perf (s : State) (a : Nat) (f : Fld) (v : Nat) : (s.setFld a f v).perf = s.perf := rfl
@[simp] theorem State.setFld_time (s : State) (a : Nat) (f : Fld) (v : Nat) : (s.setFld a f v).time = s.time := rfl
@[simp] theorem State.setFld_eth (s : State) (a : Nat) (f : Fld) (v : Nat) : (s.setFld a f v).eth = s.eth := rfl
@[simp] theorem State.setFld_tt (s : State) (a : Nat) (f : Fld) (v : Nat) : (s.setFld a f v).tt = s.tt := rfl
@[simp] theorem State.setFld_tow (s : State) (a : Nat) (f : Fld) (v : Nat) : (s.setFld a f v).tow = s.tow := rfl
@[simp] theorem State.setFld_mirror (s : State) (a : Nat) (f : Fld) (v : Nat) : (s.setFld a f v).mirror = s.mirror := rfl
@[simp] theorem State.setFld_le (s : State) (a : Nat) (f : Fld) (v : Nat) : (s.setFld a f v).le = s.le := rfl
@[simp] theorem State.setFld_link (s : State) (a : Nat) (f : Fld) (v : Nat) : (s.setFld a f v).link = s.link := rfl
@[simp] theorem State.setFld_ax (s : State) (a : Nat) (f : Fld) (v : Nat) : (s.setFld a f v).ax = s.ax := rfl
@[simp] theorem State.setFld_sdd (s : State) (a : Nat) (f : Fld) (v : Nat) : (s.setFld a f v).sdd = s.sdd := rfl
@[simp] theorem State.setFld_fb (s : State) (a : Nat) (f : Fld) (v : Nat) : (s.setFld a f v).fb = s.fb := rfl
@[simp] theorem State.setFld_psync (s : State) (a : Nat) (f : Fld) (v : Nat) : (s.setFld a f v).psync = s.psync := rfl
@[simp] theorem State.setFld_safe (s : State) (a : Nat) (f : Fld) (v : Nat) : (s.setFld a f v).safe = s.safe := rfl
@[simp] theorem State.setFld_fio (s : State) (a : Nat) (f : Fld) (v : Nat) : (s.setFld a f v).fio = s.fio := rfl
@[simp] theorem State.setFld_acq (s : State) (a : Nat) (f : Fld) (v : Nat) : (s.setFld a f v).acq = s.acq := rfl
@[simp] theorem State.setFld_can (s : State) (a : Nat) (f : Fld) (v : Nat) : (s.setFld a f v).can = s.can := rfl
@[simp] theorem State.setFld_basin (s : State) (a : Nat) (f : Fld) (v : Nat) : (s.setFld a f v).basin = s.basin := rfl
@[simp] theorem State.setFld_fc (s : State) (a : Nat) (f : Fld) (v : Nat) : (s.setFld a f v).fc = s.fc := rfl
@[simp] theorem State.setFld_pwr (s : State) (a : Nat) (f : Fld) (v : Nat) : (s.setFld a f v).pwr = s.pwr := rfl
@[simp] theorem State.setFld_boot (s : State) (a : Nat) (f : Fld) (v : Nat) : (s.setFld a f v).boot = s.boot := rfl
@[simp] theorem State.setFld_sv (s : State) (a : Nat) (f : Fld) (v : Nat) : (s.setFld a f v).sv = s.sv := rfl

/-! ### incFld -/

@[simp] theorem State.incFld_part (s : State) (a : Nat) (f : Fld) : (s.incFld a f).part = s.part := rfl
@[simp] theorem State.incFld_pending (s : State) (a : Nat) (f : Fld) : (s.incFld a f).pending = s.pending := rfl
@[simp] theorem State.incFld_clock (s : State) (a : Nat) (f : Fld) : (s.incFld a f).clock = s.clock := rfl
@[simp] theorem State.incFld_free (s : State) (a : Nat) (f : Fld) : (s.incFld a f).free = s.free := rfl
@[simp] theorem State.incFld_cpDiff (s : State) (a : Nat) (f : Fld) : (s.incFld a f).cpDiff = s.cpDiff := rfl
@[simp] theorem State.incFld_cpArmed (s : State) (a : Nat) (f : Fld) : (s.incFld a f).cpArmed = s.cpArmed := rfl
@[simp] theorem State.incFld_hiLatch (s : State) (a : Nat) (f : Fld) : (s.incFld a f).hiLatch = s.hiLatch := rfl
@[simp] theorem State.incFld_loHold (s : State) (a : Nat) (f : Fld) : (s.incFld a f).loHold = s.loHold := rfl
@[simp] theorem State.incFld_resp (s : State) (a : Nat) (f : Fld) : (s.incFld a f).resp = s.resp := rfl
@[simp] theorem State.incFld_mem (s : State) (a : Nat) (f : Fld) : (s.incFld a f).mem = s.mem := rfl
@[simp] theorem State.incFld_timers (s : State) (a : Nat) (f : Fld) : (s.incFld a f).timers = s.timers := rfl
@[simp] theorem State.incFld_perf (s : State) (a : Nat) (f : Fld) : (s.incFld a f).perf = s.perf := rfl
@[simp] theorem State.incFld_time (s : State) (a : Nat) (f : Fld) : (s.incFld a f).time = s.time := rfl
@[simp] theorem State.incFld_eth (s : State) (a : Nat) (f : Fld) : (s.incFld a f).eth = s.eth := rfl
@[simp] theorem State.incFld_tt (s : State) (a : Nat) (f : Fld) : (s.incFld a f).tt = s.tt := rfl
@[simp] theorem State.incFld_tow (s : State) (a : Nat) (f : Fld) : (s.incFld a f).tow = s.tow := rfl
@[simp] theorem State.incFld_mirror (s : State) (a : Nat) (f : Fld) : (s.incFld a f).mirror = s.mirror := rfl
@[simp] theorem State.incFld_le (s : State) (a : Nat) (f : Fld) : (s.incFld a f).le = s.le := rfl
@[simp] theorem State.incFld_link (s : State) (a : Nat) (f : Fld) : (s.incFld a f).link = s.link := rfl
@[simp] theorem State.incFld_ax (s : State) (a : Nat) (f : Fld) : (s.incFld a f).ax = s.ax := rfl
@[simp] theorem State.incFld_sdd (s : State) (a : Nat) (f : Fld) : (s.incFld a f).sdd = s.sdd := rfl
@[simp] theorem State.incFld_fb (s : State) (a : Nat) (f : Fld) : (s.incFld a f).fb = s.fb := rfl
@[simp] theorem State.incFld_psync (s : State) (a : Nat) (f : Fld) : (s.incFld a f).psync = s.psync := rfl
@[simp] theorem State.incFld_safe (s : State) (a : Nat) (f : Fld) : (s.incFld a f).safe = s.safe := rfl
@[simp] theorem State.incFld_fio (s : State) (a : Nat) (f : Fld) : (s.incFld a f).fio = s.fio := rfl
@[simp] theorem State.incFld_acq (s : State) (a : Nat) (f : Fld) : (s.incFld a f).acq = s.acq := rfl
@[simp] theorem State.incFld_can (s : State) (a : Nat) (f : Fld) : (s.incFld a f).can = s.can := rfl
@[simp] theorem State.incFld_basin (s : State) (a : Nat) (f : Fld) : (s.incFld a f).basin = s.basin := rfl
@[simp] theorem State.incFld_fc (s : State) (a : Nat) (f : Fld) : (s.incFld a f).fc = s.fc := rfl
@[simp] theorem State.incFld_pwr (s : State) (a : Nat) (f : Fld) : (s.incFld a f).pwr = s.pwr := rfl
@[simp] theorem State.incFld_boot (s : State) (a : Nat) (f : Fld) : (s.incFld a f).boot = s.boot := rfl
@[simp] theorem State.incFld_sv (s : State) (a : Nat) (f : Fld) : (s.incFld a f).sv = s.sv := rfl

/-! ### answer -/

@[simp] theorem State.answer_part (s : State) (r : Resp) : (s.answer r).part = s.part := rfl
@[simp] theorem State.answer_pending (s : State) (r : Resp) : (s.answer r).pending = s.pending := rfl
@[simp] theorem State.answer_clock (s : State) (r : Resp) : (s.answer r).clock = s.clock := rfl
@[simp] theorem State.answer_free (s : State) (r : Resp) : (s.answer r).free = s.free := rfl
@[simp] theorem State.answer_regs (s : State) (r : Resp) : (s.answer r).regs = s.regs := rfl
@[simp] theorem State.answer_cpDiff (s : State) (r : Resp) : (s.answer r).cpDiff = s.cpDiff := rfl
@[simp] theorem State.answer_cpArmed (s : State) (r : Resp) : (s.answer r).cpArmed = s.cpArmed := rfl
@[simp] theorem State.answer_hiLatch (s : State) (r : Resp) : (s.answer r).hiLatch = s.hiLatch := rfl
@[simp] theorem State.answer_loHold (s : State) (r : Resp) : (s.answer r).loHold = s.loHold := rfl
@[simp] theorem State.answer_resp (s : State) (r : Resp) : (s.answer r).resp = r := rfl
@[simp] theorem State.answer_mem (s : State) (r : Resp) : (s.answer r).mem = s.mem := rfl
@[simp] theorem State.answer_timers (s : State) (r : Resp) : (s.answer r).timers = s.timers := rfl
@[simp] theorem State.answer_perf (s : State) (r : Resp) : (s.answer r).perf = s.perf := rfl
@[simp] theorem State.answer_time (s : State) (r : Resp) : (s.answer r).time = s.time := rfl
@[simp] theorem State.answer_eth (s : State) (r : Resp) : (s.answer r).eth = s.eth := rfl
@[simp] theorem State.answer_tt (s : State) (r : Resp) : (s.answer r).tt = s.tt := rfl
@[simp] theorem State.answer_tow (s : State) (r : Resp) : (s.answer r).tow = s.tow := rfl
@[simp] theorem State.answer_mirror (s : State) (r : Resp) : (s.answer r).mirror = s.mirror := rfl
@[simp] theorem State.answer_le (s : State) (r : Resp) : (s.answer r).le = s.le := rfl
@[simp] theorem State.answer_link (s : State) (r : Resp) : (s.answer r).link = s.link := rfl
@[simp] theorem State.answer_ax (s : State) (r : Resp) : (s.answer r).ax = s.ax := rfl
@[simp] theorem State.answer_sdd (s : State) (r : Resp) : (s.answer r).sdd = s.sdd := rfl
@[simp] theorem State.answer_fb (s : State) (r : Resp) : (s.answer r).fb = s.fb := rfl
@[simp] theorem State.answer_psync (s : State) (r : Resp) : (s.answer r).psync = s.psync := rfl
@[simp] theorem State.answer_safe (s : State) (r : Resp) : (s.answer r).safe = s.safe := rfl
@[simp] theorem State.answer_fio (s : State) (r : Resp) : (s.answer r).fio = s.fio := rfl
@[simp] theorem State.answer_acq (s : State) (r : Resp) : (s.answer r).acq = s.acq := rfl
@[simp] theorem State.answer_can (s : State) (r : Resp) : (s.answer r).can = s.can := rfl
@[simp] theorem State.answer_basin (s : State) (r : Resp) : (s.answer r).basin = s.basin := rfl
@[simp] theorem State.answer_fc (s : State) (r : Resp) : (s.answer r).fc = s.fc := rfl
@[simp] theorem State.answer_pwr (s : State) (r : Resp) : (s.answer r).pwr = s.pwr := rfl
@[simp] theorem State.answer_boot (s : State) (r : Resp) : (s.answer r).boot = s.boot := rfl
@[simp] theorem State.answer_sv (s : State) (r : Resp) : (s.answer r).sv = s.sv := rfl
@[simp] theorem State.answer_reg (s : State) (r : Resp) (k : Nat) : (s.answer r).reg k = s.reg k := rfl
@[simp] theorem State.answer_fld (s : State) (r : Resp) (k : Nat) (g : Fld) : (s.answer r).fld k g = s.fld k g := rfl
@[simp] theorem State.answer_flag (s : State) (r : Resp) (k : Nat) (g : Fld) : (s.answer r).flag k g = s.flag k g := rfl
@[simp] theorem State.answer_domOn (s : State) (r : Resp) (k : Nat) : (s.answer r).domOn k = s.domOn k := rfl
@[simp] theorem State.answer_mode (s : State) (r : Resp) : (s.answer r).mode = s.mode := rfl

/-! ### setAx -/

@[simp] theorem State.setAx_part (s : State) (n : Nat) (x : Ax) : (s.setAx n x).part = s.part := rfl
@[simp] theorem State.setAx_pending (s : State) (n : Nat) (x : Ax) : (s.setAx n x).pending = s.pending := rfl
@[simp] theorem State.setAx_clock (s : State) (n : Nat) (x : Ax) : (s.setAx n x).clock = s.clock := rfl
@[simp] theorem State.setAx_free (s : State) (n : Nat) (x : Ax) : (s.setAx n x).free = s.free := rfl
@[simp] theorem State.setAx_regs (s : State) (n : Nat) (x : Ax) : (s.setAx n x).regs = s.regs := rfl
@[simp] theorem State.setAx_cpDiff (s : State) (n : Nat) (x : Ax) : (s.setAx n x).cpDiff = s.cpDiff := rfl
@[simp] theorem State.setAx_cpArmed (s : State) (n : Nat) (x : Ax) : (s.setAx n x).cpArmed = s.cpArmed := rfl
@[simp] theorem State.setAx_hiLatch (s : State) (n : Nat) (x : Ax) : (s.setAx n x).hiLatch = s.hiLatch := rfl
@[simp] theorem State.setAx_loHold (s : State) (n : Nat) (x : Ax) : (s.setAx n x).loHold = s.loHold := rfl
@[simp] theorem State.setAx_resp (s : State) (n : Nat) (x : Ax) : (s.setAx n x).resp = s.resp := rfl
@[simp] theorem State.setAx_mem (s : State) (n : Nat) (x : Ax) : (s.setAx n x).mem = s.mem := rfl
@[simp] theorem State.setAx_timers (s : State) (n : Nat) (x : Ax) : (s.setAx n x).timers = s.timers := rfl
@[simp] theorem State.setAx_perf (s : State) (n : Nat) (x : Ax) : (s.setAx n x).perf = s.perf := rfl
@[simp] theorem State.setAx_time (s : State) (n : Nat) (x : Ax) : (s.setAx n x).time = s.time := rfl
@[simp] theorem State.setAx_eth (s : State) (n : Nat) (x : Ax) : (s.setAx n x).eth = s.eth := rfl
@[simp] theorem State.setAx_tt (s : State) (n : Nat) (x : Ax) : (s.setAx n x).tt = s.tt := rfl
@[simp] theorem State.setAx_tow (s : State) (n : Nat) (x : Ax) : (s.setAx n x).tow = s.tow := rfl
@[simp] theorem State.setAx_mirror (s : State) (n : Nat) (x : Ax) : (s.setAx n x).mirror = s.mirror := rfl
@[simp] theorem State.setAx_le (s : State) (n : Nat) (x : Ax) : (s.setAx n x).le = s.le := rfl
@[simp] theorem State.setAx_link (s : State) (n : Nat) (x : Ax) : (s.setAx n x).link = s.link := rfl
@[simp] theorem State.setAx_ax (s : State) (n : Nat) (x : Ax) : (s.setAx n x).ax = s.ax.setIfInBounds n x := rfl
@[simp] theorem State.setAx_sdd (s : State) (n : Nat) (x : Ax) : (s.setAx n x).sdd = s.sdd := rfl
@[simp] theorem State.setAx_fb (s : State) (n : Nat) (x : Ax) : (s.setAx n x).fb = s.fb := rfl
@[simp] theorem State.setAx_psync (s : State) (n : Nat) (x : Ax) : (s.setAx n x).psync = s.psync := rfl
@[simp] theorem State.setAx_safe (s : State) (n : Nat) (x : Ax) : (s.setAx n x).safe = s.safe := rfl
@[simp] theorem State.setAx_fio (s : State) (n : Nat) (x : Ax) : (s.setAx n x).fio = s.fio := rfl
@[simp] theorem State.setAx_acq (s : State) (n : Nat) (x : Ax) : (s.setAx n x).acq = s.acq := rfl
@[simp] theorem State.setAx_can (s : State) (n : Nat) (x : Ax) : (s.setAx n x).can = s.can := rfl
@[simp] theorem State.setAx_basin (s : State) (n : Nat) (x : Ax) : (s.setAx n x).basin = s.basin := rfl
@[simp] theorem State.setAx_fc (s : State) (n : Nat) (x : Ax) : (s.setAx n x).fc = s.fc := rfl
@[simp] theorem State.setAx_pwr (s : State) (n : Nat) (x : Ax) : (s.setAx n x).pwr = s.pwr := rfl
@[simp] theorem State.setAx_boot (s : State) (n : Nat) (x : Ax) : (s.setAx n x).boot = s.boot := rfl
@[simp] theorem State.setAx_sv (s : State) (n : Nat) (x : Ax) : (s.setAx n x).sv = s.sv := rfl
@[simp] theorem State.setAx_reg (s : State) (n : Nat) (x : Ax) (k : Nat) : (s.setAx n x).reg k = s.reg k := rfl
@[simp] theorem State.setAx_fld (s : State) (n : Nat) (x : Ax) (k : Nat) (g : Fld) : (s.setAx n x).fld k g = s.fld k g := rfl
@[simp] theorem State.setAx_flag (s : State) (n : Nat) (x : Ax) (k : Nat) (g : Fld) : (s.setAx n x).flag k g = s.flag k g := rfl
@[simp] theorem State.setAx_domOn (s : State) (n : Nat) (x : Ax) (k : Nat) : (s.setAx n x).domOn k = s.domOn k := rfl
@[simp] theorem State.setAx_mode (s : State) (n : Nat) (x : Ax) : (s.setAx n x).mode = s.mode := rfl

/-! ### setLe -/

@[simp] theorem State.setLe_part (s : State) (n : Nat) (x : Le) : (s.setLe n x).part = s.part := rfl
@[simp] theorem State.setLe_pending (s : State) (n : Nat) (x : Le) : (s.setLe n x).pending = s.pending := rfl
@[simp] theorem State.setLe_clock (s : State) (n : Nat) (x : Le) : (s.setLe n x).clock = s.clock := rfl
@[simp] theorem State.setLe_free (s : State) (n : Nat) (x : Le) : (s.setLe n x).free = s.free := rfl
@[simp] theorem State.setLe_regs (s : State) (n : Nat) (x : Le) : (s.setLe n x).regs = s.regs := rfl
@[simp] theorem State.setLe_cpDiff (s : State) (n : Nat) (x : Le) : (s.setLe n x).cpDiff = s.cpDiff := rfl
@[simp] theorem State.setLe_cpArmed (s : State) (n : Nat) (x : Le) : (s.setLe n x).cpArmed = s.cpArmed := rfl
@[simp] theorem State.setLe_hiLatch (s : State) (n : Nat) (x : Le) : (s.setLe n x).hiLatch = s.hiLatch := rfl
@[simp] theorem State.setLe_loHold (s : State) (n : Nat) (x : Le) : (s.setLe n x).loHold = s.loHold := rfl
@[simp] theorem State.setLe_resp (s : State) (n : Nat) (x : Le) : (s.setLe n x).resp = s.resp := rfl
@[simp] theorem State.setLe_mem (s : State) (n : Nat) (x : Le) : (s.setLe n x).mem = s.mem := rfl
@[simp] theorem State.setLe_timers (s : State) (n : Nat) (x : Le) : (s.setLe n x).timers = s.timers := rfl
@[simp] theorem State.setLe_perf (s : State) (n : Nat) (x : Le) : (s.setLe n x).perf = s.perf := rfl
@[simp] theorem State.setLe_time (s : State) (n : Nat) (x : Le) : (s.setLe n x).time = s.time := rfl
@[simp] theorem State.setLe_eth (s : State) (n : Nat) (x : Le) : (s.setLe n x).eth = s.eth := rfl
@[simp] theorem State.setLe_tt (s : State) (n : Nat) (x : Le) : (s.setLe n x).tt = s.tt := rfl
@[simp] theorem State.setLe_tow (s : State) (n : Nat) (x : Le) : (s.setLe n x).tow = s.tow := rfl
@[simp] theorem State.setLe_mirror (s : State) (n : Nat) (x : Le) : (s.setLe n x).mirror = s.mirror := rfl
@[simp] theorem State.setLe_le (s : State) (n : Nat) (x : Le) : (s.setLe n x).le = s.le.setIfInBounds n x := rfl
@[simp] theorem State.setLe_link (s : State) (n : Nat) (x : Le) : (s.setLe n x).link = s.link := rfl
@[simp] theorem State.setLe_ax (s : State) (n : Nat) (x : Le) : (s.setLe n x).ax = s.ax := rfl
@[simp] theorem State.setLe_sdd (s : State) (n : Nat) (x : Le) : (s.setLe n x).sdd = s.sdd := rfl
@[simp] theorem State.setLe_fb (s : State) (n : Nat) (x : Le) : (s.setLe n x).fb = s.fb := rfl
@[simp] theorem State.setLe_psync (s : State) (n : Nat) (x : Le) : (s.setLe n x).psync = s.psync := rfl
@[simp] theorem State.setLe_safe (s : State) (n : Nat) (x : Le) : (s.setLe n x).safe = s.safe := rfl
@[simp] theorem State.setLe_fio (s : State) (n : Nat) (x : Le) : (s.setLe n x).fio = s.fio := rfl
@[simp] theorem State.setLe_acq (s : State) (n : Nat) (x : Le) : (s.setLe n x).acq = s.acq := rfl
@[simp] theorem State.setLe_can (s : State) (n : Nat) (x : Le) : (s.setLe n x).can = s.can := rfl
@[simp] theorem State.setLe_basin (s : State) (n : Nat) (x : Le) : (s.setLe n x).basin = s.basin := rfl
@[simp] theorem State.setLe_fc (s : State) (n : Nat) (x : Le) : (s.setLe n x).fc = s.fc := rfl
@[simp] theorem State.setLe_pwr (s : State) (n : Nat) (x : Le) : (s.setLe n x).pwr = s.pwr := rfl
@[simp] theorem State.setLe_boot (s : State) (n : Nat) (x : Le) : (s.setLe n x).boot = s.boot := rfl
@[simp] theorem State.setLe_sv (s : State) (n : Nat) (x : Le) : (s.setLe n x).sv = s.sv := rfl
@[simp] theorem State.setLe_reg (s : State) (n : Nat) (x : Le) (k : Nat) : (s.setLe n x).reg k = s.reg k := rfl
@[simp] theorem State.setLe_fld (s : State) (n : Nat) (x : Le) (k : Nat) (g : Fld) : (s.setLe n x).fld k g = s.fld k g := rfl
@[simp] theorem State.setLe_flag (s : State) (n : Nat) (x : Le) (k : Nat) (g : Fld) : (s.setLe n x).flag k g = s.flag k g := rfl
@[simp] theorem State.setLe_domOn (s : State) (n : Nat) (x : Le) (k : Nat) : (s.setLe n x).domOn k = s.domOn k := rfl
@[simp] theorem State.setLe_mode (s : State) (n : Nat) (x : Le) : (s.setLe n x).mode = s.mode := rfl

/-! ### setSdd -/

@[simp] theorem State.setSdd_part (s : State) (n : Nat) (x : Sdd) : (s.setSdd n x).part = s.part := rfl
@[simp] theorem State.setSdd_pending (s : State) (n : Nat) (x : Sdd) : (s.setSdd n x).pending = s.pending := rfl
@[simp] theorem State.setSdd_clock (s : State) (n : Nat) (x : Sdd) : (s.setSdd n x).clock = s.clock := rfl
@[simp] theorem State.setSdd_free (s : State) (n : Nat) (x : Sdd) : (s.setSdd n x).free = s.free := rfl
@[simp] theorem State.setSdd_regs (s : State) (n : Nat) (x : Sdd) : (s.setSdd n x).regs = s.regs := rfl
@[simp] theorem State.setSdd_cpDiff (s : State) (n : Nat) (x : Sdd) : (s.setSdd n x).cpDiff = s.cpDiff := rfl
@[simp] theorem State.setSdd_cpArmed (s : State) (n : Nat) (x : Sdd) : (s.setSdd n x).cpArmed = s.cpArmed := rfl
@[simp] theorem State.setSdd_hiLatch (s : State) (n : Nat) (x : Sdd) : (s.setSdd n x).hiLatch = s.hiLatch := rfl
@[simp] theorem State.setSdd_loHold (s : State) (n : Nat) (x : Sdd) : (s.setSdd n x).loHold = s.loHold := rfl
@[simp] theorem State.setSdd_resp (s : State) (n : Nat) (x : Sdd) : (s.setSdd n x).resp = s.resp := rfl
@[simp] theorem State.setSdd_mem (s : State) (n : Nat) (x : Sdd) : (s.setSdd n x).mem = s.mem := rfl
@[simp] theorem State.setSdd_timers (s : State) (n : Nat) (x : Sdd) : (s.setSdd n x).timers = s.timers := rfl
@[simp] theorem State.setSdd_perf (s : State) (n : Nat) (x : Sdd) : (s.setSdd n x).perf = s.perf := rfl
@[simp] theorem State.setSdd_time (s : State) (n : Nat) (x : Sdd) : (s.setSdd n x).time = s.time := rfl
@[simp] theorem State.setSdd_eth (s : State) (n : Nat) (x : Sdd) : (s.setSdd n x).eth = s.eth := rfl
@[simp] theorem State.setSdd_tt (s : State) (n : Nat) (x : Sdd) : (s.setSdd n x).tt = s.tt := rfl
@[simp] theorem State.setSdd_tow (s : State) (n : Nat) (x : Sdd) : (s.setSdd n x).tow = s.tow := rfl
@[simp] theorem State.setSdd_mirror (s : State) (n : Nat) (x : Sdd) : (s.setSdd n x).mirror = s.mirror := rfl
@[simp] theorem State.setSdd_le (s : State) (n : Nat) (x : Sdd) : (s.setSdd n x).le = s.le := rfl
@[simp] theorem State.setSdd_link (s : State) (n : Nat) (x : Sdd) : (s.setSdd n x).link = s.link := rfl
@[simp] theorem State.setSdd_ax (s : State) (n : Nat) (x : Sdd) : (s.setSdd n x).ax = s.ax := rfl
@[simp] theorem State.setSdd_sdd (s : State) (n : Nat) (x : Sdd) : (s.setSdd n x).sdd = s.sdd.setIfInBounds n x := rfl
@[simp] theorem State.setSdd_fb (s : State) (n : Nat) (x : Sdd) : (s.setSdd n x).fb = s.fb := rfl
@[simp] theorem State.setSdd_psync (s : State) (n : Nat) (x : Sdd) : (s.setSdd n x).psync = s.psync := rfl
@[simp] theorem State.setSdd_safe (s : State) (n : Nat) (x : Sdd) : (s.setSdd n x).safe = s.safe := rfl
@[simp] theorem State.setSdd_fio (s : State) (n : Nat) (x : Sdd) : (s.setSdd n x).fio = s.fio := rfl
@[simp] theorem State.setSdd_acq (s : State) (n : Nat) (x : Sdd) : (s.setSdd n x).acq = s.acq := rfl
@[simp] theorem State.setSdd_can (s : State) (n : Nat) (x : Sdd) : (s.setSdd n x).can = s.can := rfl
@[simp] theorem State.setSdd_basin (s : State) (n : Nat) (x : Sdd) : (s.setSdd n x).basin = s.basin := rfl
@[simp] theorem State.setSdd_fc (s : State) (n : Nat) (x : Sdd) : (s.setSdd n x).fc = s.fc := rfl
@[simp] theorem State.setSdd_pwr (s : State) (n : Nat) (x : Sdd) : (s.setSdd n x).pwr = s.pwr := rfl
@[simp] theorem State.setSdd_boot (s : State) (n : Nat) (x : Sdd) : (s.setSdd n x).boot = s.boot := rfl
@[simp] theorem State.setSdd_sv (s : State) (n : Nat) (x : Sdd) : (s.setSdd n x).sv = s.sv := rfl
@[simp] theorem State.setSdd_reg (s : State) (n : Nat) (x : Sdd) (k : Nat) : (s.setSdd n x).reg k = s.reg k := rfl
@[simp] theorem State.setSdd_fld (s : State) (n : Nat) (x : Sdd) (k : Nat) (g : Fld) : (s.setSdd n x).fld k g = s.fld k g := rfl
@[simp] theorem State.setSdd_flag (s : State) (n : Nat) (x : Sdd) (k : Nat) (g : Fld) : (s.setSdd n x).flag k g = s.flag k g := rfl
@[simp] theorem State.setSdd_domOn (s : State) (n : Nat) (x : Sdd) (k : Nat) : (s.setSdd n x).domOn k = s.domOn k := rfl
@[simp] theorem State.setSdd_mode (s : State) (n : Nat) (x : Sdd) : (s.setSdd n x).mode = s.mode := rfl

/-! ### setLink -/

@[simp] theorem State.setLink_part (s : State) (n : Nat) (x : DieLink) : (s.setLink n x).part = s.part := rfl
@[simp] theorem State.setLink_pending (s : State) (n : Nat) (x : DieLink) : (s.setLink n x).pending = s.pending := rfl
@[simp] theorem State.setLink_clock (s : State) (n : Nat) (x : DieLink) : (s.setLink n x).clock = s.clock := rfl
@[simp] theorem State.setLink_free (s : State) (n : Nat) (x : DieLink) : (s.setLink n x).free = s.free := rfl
@[simp] theorem State.setLink_regs (s : State) (n : Nat) (x : DieLink) : (s.setLink n x).regs = s.regs := rfl
@[simp] theorem State.setLink_cpDiff (s : State) (n : Nat) (x : DieLink) : (s.setLink n x).cpDiff = s.cpDiff := rfl
@[simp] theorem State.setLink_cpArmed (s : State) (n : Nat) (x : DieLink) : (s.setLink n x).cpArmed = s.cpArmed := rfl
@[simp] theorem State.setLink_hiLatch (s : State) (n : Nat) (x : DieLink) : (s.setLink n x).hiLatch = s.hiLatch := rfl
@[simp] theorem State.setLink_loHold (s : State) (n : Nat) (x : DieLink) : (s.setLink n x).loHold = s.loHold := rfl
@[simp] theorem State.setLink_resp (s : State) (n : Nat) (x : DieLink) : (s.setLink n x).resp = s.resp := rfl
@[simp] theorem State.setLink_mem (s : State) (n : Nat) (x : DieLink) : (s.setLink n x).mem = s.mem := rfl
@[simp] theorem State.setLink_timers (s : State) (n : Nat) (x : DieLink) : (s.setLink n x).timers = s.timers := rfl
@[simp] theorem State.setLink_perf (s : State) (n : Nat) (x : DieLink) : (s.setLink n x).perf = s.perf := rfl
@[simp] theorem State.setLink_time (s : State) (n : Nat) (x : DieLink) : (s.setLink n x).time = s.time := rfl
@[simp] theorem State.setLink_eth (s : State) (n : Nat) (x : DieLink) : (s.setLink n x).eth = s.eth := rfl
@[simp] theorem State.setLink_tt (s : State) (n : Nat) (x : DieLink) : (s.setLink n x).tt = s.tt := rfl
@[simp] theorem State.setLink_tow (s : State) (n : Nat) (x : DieLink) : (s.setLink n x).tow = s.tow := rfl
@[simp] theorem State.setLink_mirror (s : State) (n : Nat) (x : DieLink) : (s.setLink n x).mirror = s.mirror := rfl
@[simp] theorem State.setLink_le (s : State) (n : Nat) (x : DieLink) : (s.setLink n x).le = s.le := rfl
@[simp] theorem State.setLink_link (s : State) (n : Nat) (x : DieLink) : (s.setLink n x).link = s.link.setIfInBounds n x := rfl
@[simp] theorem State.setLink_ax (s : State) (n : Nat) (x : DieLink) : (s.setLink n x).ax = s.ax := rfl
@[simp] theorem State.setLink_sdd (s : State) (n : Nat) (x : DieLink) : (s.setLink n x).sdd = s.sdd := rfl
@[simp] theorem State.setLink_fb (s : State) (n : Nat) (x : DieLink) : (s.setLink n x).fb = s.fb := rfl
@[simp] theorem State.setLink_psync (s : State) (n : Nat) (x : DieLink) : (s.setLink n x).psync = s.psync := rfl
@[simp] theorem State.setLink_safe (s : State) (n : Nat) (x : DieLink) : (s.setLink n x).safe = s.safe := rfl
@[simp] theorem State.setLink_fio (s : State) (n : Nat) (x : DieLink) : (s.setLink n x).fio = s.fio := rfl
@[simp] theorem State.setLink_acq (s : State) (n : Nat) (x : DieLink) : (s.setLink n x).acq = s.acq := rfl
@[simp] theorem State.setLink_can (s : State) (n : Nat) (x : DieLink) : (s.setLink n x).can = s.can := rfl
@[simp] theorem State.setLink_basin (s : State) (n : Nat) (x : DieLink) : (s.setLink n x).basin = s.basin := rfl
@[simp] theorem State.setLink_fc (s : State) (n : Nat) (x : DieLink) : (s.setLink n x).fc = s.fc := rfl
@[simp] theorem State.setLink_pwr (s : State) (n : Nat) (x : DieLink) : (s.setLink n x).pwr = s.pwr := rfl
@[simp] theorem State.setLink_boot (s : State) (n : Nat) (x : DieLink) : (s.setLink n x).boot = s.boot := rfl
@[simp] theorem State.setLink_sv (s : State) (n : Nat) (x : DieLink) : (s.setLink n x).sv = s.sv := rfl
@[simp] theorem State.setLink_reg (s : State) (n : Nat) (x : DieLink) (k : Nat) : (s.setLink n x).reg k = s.reg k := rfl
@[simp] theorem State.setLink_fld (s : State) (n : Nat) (x : DieLink) (k : Nat) (g : Fld) : (s.setLink n x).fld k g = s.fld k g := rfl
@[simp] theorem State.setLink_flag (s : State) (n : Nat) (x : DieLink) (k : Nat) (g : Fld) : (s.setLink n x).flag k g = s.flag k g := rfl
@[simp] theorem State.setLink_domOn (s : State) (n : Nat) (x : DieLink) (k : Nat) : (s.setLink n x).domOn k = s.domOn k := rfl
@[simp] theorem State.setLink_mode (s : State) (n : Nat) (x : DieLink) : (s.setLink n x).mode = s.mode := rfl

/-! ### setSv -/

@[simp] theorem State.setSv_part (s : State) (n : Nat) (x : Sv) : (s.setSv n x).part = s.part := rfl
@[simp] theorem State.setSv_pending (s : State) (n : Nat) (x : Sv) : (s.setSv n x).pending = s.pending := rfl
@[simp] theorem State.setSv_clock (s : State) (n : Nat) (x : Sv) : (s.setSv n x).clock = s.clock := rfl
@[simp] theorem State.setSv_free (s : State) (n : Nat) (x : Sv) : (s.setSv n x).free = s.free := rfl
@[simp] theorem State.setSv_regs (s : State) (n : Nat) (x : Sv) : (s.setSv n x).regs = s.regs := rfl
@[simp] theorem State.setSv_cpDiff (s : State) (n : Nat) (x : Sv) : (s.setSv n x).cpDiff = s.cpDiff := rfl
@[simp] theorem State.setSv_cpArmed (s : State) (n : Nat) (x : Sv) : (s.setSv n x).cpArmed = s.cpArmed := rfl
@[simp] theorem State.setSv_hiLatch (s : State) (n : Nat) (x : Sv) : (s.setSv n x).hiLatch = s.hiLatch := rfl
@[simp] theorem State.setSv_loHold (s : State) (n : Nat) (x : Sv) : (s.setSv n x).loHold = s.loHold := rfl
@[simp] theorem State.setSv_resp (s : State) (n : Nat) (x : Sv) : (s.setSv n x).resp = s.resp := rfl
@[simp] theorem State.setSv_mem (s : State) (n : Nat) (x : Sv) : (s.setSv n x).mem = s.mem := rfl
@[simp] theorem State.setSv_timers (s : State) (n : Nat) (x : Sv) : (s.setSv n x).timers = s.timers := rfl
@[simp] theorem State.setSv_perf (s : State) (n : Nat) (x : Sv) : (s.setSv n x).perf = s.perf := rfl
@[simp] theorem State.setSv_time (s : State) (n : Nat) (x : Sv) : (s.setSv n x).time = s.time := rfl
@[simp] theorem State.setSv_eth (s : State) (n : Nat) (x : Sv) : (s.setSv n x).eth = s.eth := rfl
@[simp] theorem State.setSv_tt (s : State) (n : Nat) (x : Sv) : (s.setSv n x).tt = s.tt := rfl
@[simp] theorem State.setSv_tow (s : State) (n : Nat) (x : Sv) : (s.setSv n x).tow = s.tow := rfl
@[simp] theorem State.setSv_mirror (s : State) (n : Nat) (x : Sv) : (s.setSv n x).mirror = s.mirror := rfl
@[simp] theorem State.setSv_le (s : State) (n : Nat) (x : Sv) : (s.setSv n x).le = s.le := rfl
@[simp] theorem State.setSv_link (s : State) (n : Nat) (x : Sv) : (s.setSv n x).link = s.link := rfl
@[simp] theorem State.setSv_ax (s : State) (n : Nat) (x : Sv) : (s.setSv n x).ax = s.ax := rfl
@[simp] theorem State.setSv_sdd (s : State) (n : Nat) (x : Sv) : (s.setSv n x).sdd = s.sdd := rfl
@[simp] theorem State.setSv_fb (s : State) (n : Nat) (x : Sv) : (s.setSv n x).fb = s.fb := rfl
@[simp] theorem State.setSv_psync (s : State) (n : Nat) (x : Sv) : (s.setSv n x).psync = s.psync := rfl
@[simp] theorem State.setSv_safe (s : State) (n : Nat) (x : Sv) : (s.setSv n x).safe = s.safe := rfl
@[simp] theorem State.setSv_fio (s : State) (n : Nat) (x : Sv) : (s.setSv n x).fio = s.fio := rfl
@[simp] theorem State.setSv_acq (s : State) (n : Nat) (x : Sv) : (s.setSv n x).acq = s.acq := rfl
@[simp] theorem State.setSv_can (s : State) (n : Nat) (x : Sv) : (s.setSv n x).can = s.can := rfl
@[simp] theorem State.setSv_basin (s : State) (n : Nat) (x : Sv) : (s.setSv n x).basin = s.basin := rfl
@[simp] theorem State.setSv_fc (s : State) (n : Nat) (x : Sv) : (s.setSv n x).fc = s.fc := rfl
@[simp] theorem State.setSv_pwr (s : State) (n : Nat) (x : Sv) : (s.setSv n x).pwr = s.pwr := rfl
@[simp] theorem State.setSv_boot (s : State) (n : Nat) (x : Sv) : (s.setSv n x).boot = s.boot := rfl
@[simp] theorem State.setSv_sv (s : State) (n : Nat) (x : Sv) : (s.setSv n x).sv = s.sv.setIfInBounds n x := rfl
@[simp] theorem State.setSv_reg (s : State) (n : Nat) (x : Sv) (k : Nat) : (s.setSv n x).reg k = s.reg k := rfl
@[simp] theorem State.setSv_fld (s : State) (n : Nat) (x : Sv) (k : Nat) (g : Fld) : (s.setSv n x).fld k g = s.fld k g := rfl
@[simp] theorem State.setSv_flag (s : State) (n : Nat) (x : Sv) (k : Nat) (g : Fld) : (s.setSv n x).flag k g = s.flag k g := rfl
@[simp] theorem State.setSv_domOn (s : State) (n : Nat) (x : Sv) (k : Nat) : (s.setSv n x).domOn k = s.domOn k := rfl
@[simp] theorem State.setSv_mode (s : State) (n : Nat) (x : Sv) : (s.setSv n x).mode = s.mode := rfl

/-! ### setFb -/

@[simp] theorem State.setFb_part (s : State) (n : Nat) (x : Fb) : (s.setFb n x).part = s.part := rfl
@[simp] theorem State.setFb_pending (s : State) (n : Nat) (x : Fb) : (s.setFb n x).pending = s.pending := rfl
@[simp] theorem State.setFb_clock (s : State) (n : Nat) (x : Fb) : (s.setFb n x).clock = s.clock := rfl
@[simp] theorem State.setFb_free (s : State) (n : Nat) (x : Fb) : (s.setFb n x).free = s.free := rfl
@[simp] theorem State.setFb_regs (s : State) (n : Nat) (x : Fb) : (s.setFb n x).regs = s.regs := rfl
@[simp] theorem State.setFb_cpDiff (s : State) (n : Nat) (x : Fb) : (s.setFb n x).cpDiff = s.cpDiff := rfl
@[simp] theorem State.setFb_cpArmed (s : State) (n : Nat) (x : Fb) : (s.setFb n x).cpArmed = s.cpArmed := rfl
@[simp] theorem State.setFb_hiLatch (s : State) (n : Nat) (x : Fb) : (s.setFb n x).hiLatch = s.hiLatch := rfl
@[simp] theorem State.setFb_loHold (s : State) (n : Nat) (x : Fb) : (s.setFb n x).loHold = s.loHold := rfl
@[simp] theorem State.setFb_resp (s : State) (n : Nat) (x : Fb) : (s.setFb n x).resp = s.resp := rfl
@[simp] theorem State.setFb_mem (s : State) (n : Nat) (x : Fb) : (s.setFb n x).mem = s.mem := rfl
@[simp] theorem State.setFb_timers (s : State) (n : Nat) (x : Fb) : (s.setFb n x).timers = s.timers := rfl
@[simp] theorem State.setFb_perf (s : State) (n : Nat) (x : Fb) : (s.setFb n x).perf = s.perf := rfl
@[simp] theorem State.setFb_time (s : State) (n : Nat) (x : Fb) : (s.setFb n x).time = s.time := rfl
@[simp] theorem State.setFb_eth (s : State) (n : Nat) (x : Fb) : (s.setFb n x).eth = s.eth := rfl
@[simp] theorem State.setFb_tt (s : State) (n : Nat) (x : Fb) : (s.setFb n x).tt = s.tt := rfl
@[simp] theorem State.setFb_tow (s : State) (n : Nat) (x : Fb) : (s.setFb n x).tow = s.tow := rfl
@[simp] theorem State.setFb_mirror (s : State) (n : Nat) (x : Fb) : (s.setFb n x).mirror = s.mirror := rfl
@[simp] theorem State.setFb_le (s : State) (n : Nat) (x : Fb) : (s.setFb n x).le = s.le := rfl
@[simp] theorem State.setFb_link (s : State) (n : Nat) (x : Fb) : (s.setFb n x).link = s.link := rfl
@[simp] theorem State.setFb_ax (s : State) (n : Nat) (x : Fb) : (s.setFb n x).ax = s.ax := rfl
@[simp] theorem State.setFb_sdd (s : State) (n : Nat) (x : Fb) : (s.setFb n x).sdd = s.sdd := rfl
@[simp] theorem State.setFb_fb (s : State) (n : Nat) (x : Fb) : (s.setFb n x).fb = s.fb.setIfInBounds n x := rfl
@[simp] theorem State.setFb_psync (s : State) (n : Nat) (x : Fb) : (s.setFb n x).psync = s.psync := rfl
@[simp] theorem State.setFb_safe (s : State) (n : Nat) (x : Fb) : (s.setFb n x).safe = s.safe := rfl
@[simp] theorem State.setFb_fio (s : State) (n : Nat) (x : Fb) : (s.setFb n x).fio = s.fio := rfl
@[simp] theorem State.setFb_acq (s : State) (n : Nat) (x : Fb) : (s.setFb n x).acq = s.acq := rfl
@[simp] theorem State.setFb_can (s : State) (n : Nat) (x : Fb) : (s.setFb n x).can = s.can := rfl
@[simp] theorem State.setFb_basin (s : State) (n : Nat) (x : Fb) : (s.setFb n x).basin = s.basin := rfl
@[simp] theorem State.setFb_fc (s : State) (n : Nat) (x : Fb) : (s.setFb n x).fc = s.fc := rfl
@[simp] theorem State.setFb_pwr (s : State) (n : Nat) (x : Fb) : (s.setFb n x).pwr = s.pwr := rfl
@[simp] theorem State.setFb_boot (s : State) (n : Nat) (x : Fb) : (s.setFb n x).boot = s.boot := rfl
@[simp] theorem State.setFb_sv (s : State) (n : Nat) (x : Fb) : (s.setFb n x).sv = s.sv := rfl
@[simp] theorem State.setFb_reg (s : State) (n : Nat) (x : Fb) (k : Nat) : (s.setFb n x).reg k = s.reg k := rfl
@[simp] theorem State.setFb_fld (s : State) (n : Nat) (x : Fb) (k : Nat) (g : Fld) : (s.setFb n x).fld k g = s.fld k g := rfl
@[simp] theorem State.setFb_flag (s : State) (n : Nat) (x : Fb) (k : Nat) (g : Fld) : (s.setFb n x).flag k g = s.flag k g := rfl
@[simp] theorem State.setFb_domOn (s : State) (n : Nat) (x : Fb) (k : Nat) : (s.setFb n x).domOn k = s.domOn k := rfl
@[simp] theorem State.setFb_mode (s : State) (n : Nat) (x : Fb) : (s.setFb n x).mode = s.mode := rfl

/-! ### setQueue -/

@[simp] theorem State.setQueue_part (s : State) (n : Nat) (x : Queue) : (s.setQueue n x).part = s.part := rfl
@[simp] theorem State.setQueue_pending (s : State) (n : Nat) (x : Queue) : (s.setQueue n x).pending = s.pending := rfl
@[simp] theorem State.setQueue_clock (s : State) (n : Nat) (x : Queue) : (s.setQueue n x).clock = s.clock := rfl
@[simp] theorem State.setQueue_free (s : State) (n : Nat) (x : Queue) : (s.setQueue n x).free = s.free := rfl
@[simp] theorem State.setQueue_regs (s : State) (n : Nat) (x : Queue) : (s.setQueue n x).regs = s.regs := rfl
@[simp] theorem State.setQueue_cpDiff (s : State) (n : Nat) (x : Queue) : (s.setQueue n x).cpDiff = s.cpDiff := rfl
@[simp] theorem State.setQueue_cpArmed (s : State) (n : Nat) (x : Queue) : (s.setQueue n x).cpArmed = s.cpArmed := rfl
@[simp] theorem State.setQueue_hiLatch (s : State) (n : Nat) (x : Queue) : (s.setQueue n x).hiLatch = s.hiLatch := rfl
@[simp] theorem State.setQueue_loHold (s : State) (n : Nat) (x : Queue) : (s.setQueue n x).loHold = s.loHold := rfl
@[simp] theorem State.setQueue_resp (s : State) (n : Nat) (x : Queue) : (s.setQueue n x).resp = s.resp := rfl
@[simp] theorem State.setQueue_mem (s : State) (n : Nat) (x : Queue) : (s.setQueue n x).mem = s.mem := rfl
@[simp] theorem State.setQueue_timers (s : State) (n : Nat) (x : Queue) : (s.setQueue n x).timers = s.timers := rfl
@[simp] theorem State.setQueue_perf (s : State) (n : Nat) (x : Queue) : (s.setQueue n x).perf = s.perf := rfl
@[simp] theorem State.setQueue_time (s : State) (n : Nat) (x : Queue) : (s.setQueue n x).time = s.time := rfl
@[simp] theorem State.setQueue_eth (s : State) (n : Nat) (x : Queue) : (s.setQueue n x).eth = s.eth := rfl
@[simp] theorem State.setQueue_tt (s : State) (n : Nat) (x : Queue) : (s.setQueue n x).tt = s.tt := rfl
@[simp] theorem State.setQueue_tow (s : State) (n : Nat) (x : Queue) : (s.setQueue n x).tow = s.tow := rfl
@[simp] theorem State.setQueue_mirror (s : State) (n : Nat) (x : Queue) : (s.setQueue n x).mirror = s.mirror := rfl
@[simp] theorem State.setQueue_le (s : State) (n : Nat) (x : Queue) : (s.setQueue n x).le = s.le := rfl
@[simp] theorem State.setQueue_link (s : State) (n : Nat) (x : Queue) : (s.setQueue n x).link = s.link := rfl
@[simp] theorem State.setQueue_ax (s : State) (n : Nat) (x : Queue) : (s.setQueue n x).ax = s.ax := rfl
@[simp] theorem State.setQueue_sdd (s : State) (n : Nat) (x : Queue) : (s.setQueue n x).sdd = s.sdd := rfl
@[simp] theorem State.setQueue_fb (s : State) (n : Nat) (x : Queue) : (s.setQueue n x).fb = s.fb := rfl
@[simp] theorem State.setQueue_psync (s : State) (n : Nat) (x : Queue) : (s.setQueue n x).psync = s.psync := rfl
@[simp] theorem State.setQueue_safe (s : State) (n : Nat) (x : Queue) : (s.setQueue n x).safe = s.safe := rfl
@[simp] theorem State.setQueue_fio (s : State) (n : Nat) (x : Queue) : (s.setQueue n x).fio = s.fio := rfl
@[simp] theorem State.setQueue_acq (s : State) (n : Nat) (x : Queue) : (s.setQueue n x).acq = s.acq := rfl
@[simp] theorem State.setQueue_can (s : State) (n : Nat) (x : Queue) : (s.setQueue n x).can = s.can := rfl
@[simp] theorem State.setQueue_fc (s : State) (n : Nat) (x : Queue) : (s.setQueue n x).fc = s.fc := rfl
@[simp] theorem State.setQueue_pwr (s : State) (n : Nat) (x : Queue) : (s.setQueue n x).pwr = s.pwr := rfl
@[simp] theorem State.setQueue_boot (s : State) (n : Nat) (x : Queue) : (s.setQueue n x).boot = s.boot := rfl
@[simp] theorem State.setQueue_sv (s : State) (n : Nat) (x : Queue) : (s.setQueue n x).sv = s.sv := rfl
@[simp] theorem State.setQueue_reg (s : State) (n : Nat) (x : Queue) (k : Nat) : (s.setQueue n x).reg k = s.reg k := rfl
@[simp] theorem State.setQueue_fld (s : State) (n : Nat) (x : Queue) (k : Nat) (g : Fld) : (s.setQueue n x).fld k g = s.fld k g := rfl
@[simp] theorem State.setQueue_flag (s : State) (n : Nat) (x : Queue) (k : Nat) (g : Fld) : (s.setQueue n x).flag k g = s.flag k g := rfl
@[simp] theorem State.setQueue_domOn (s : State) (n : Nat) (x : Queue) (k : Nat) : (s.setQueue n x).domOn k = s.domOn k := rfl
@[simp] theorem State.setQueue_mode (s : State) (n : Nat) (x : Queue) : (s.setQueue n x).mode = s.mode := rfl

/-! ### modTt -/

@[simp] theorem State.modTt_part (s : State) (f : Tt → Tt) : (s.modTt f).part = s.part := rfl
@[simp] theorem State.modTt_pending (s : State) (f : Tt → Tt) : (s.modTt f).pending = s.pending := rfl
@[simp] theorem State.modTt_clock (s : State) (f : Tt → Tt) : (s.modTt f).clock = s.clock := rfl
@[simp] theorem State.modTt_free (s : State) (f : Tt → Tt) : (s.modTt f).free = s.free := rfl
@[simp] theorem State.modTt_regs (s : State) (f : Tt → Tt) : (s.modTt f).regs = s.regs := rfl
@[simp] theorem State.modTt_cpDiff (s : State) (f : Tt → Tt) : (s.modTt f).cpDiff = s.cpDiff := rfl
@[simp] theorem State.modTt_cpArmed (s : State) (f : Tt → Tt) : (s.modTt f).cpArmed = s.cpArmed := rfl
@[simp] theorem State.modTt_hiLatch (s : State) (f : Tt → Tt) : (s.modTt f).hiLatch = s.hiLatch := rfl
@[simp] theorem State.modTt_loHold (s : State) (f : Tt → Tt) : (s.modTt f).loHold = s.loHold := rfl
@[simp] theorem State.modTt_resp (s : State) (f : Tt → Tt) : (s.modTt f).resp = s.resp := rfl
@[simp] theorem State.modTt_mem (s : State) (f : Tt → Tt) : (s.modTt f).mem = s.mem := rfl
@[simp] theorem State.modTt_timers (s : State) (f : Tt → Tt) : (s.modTt f).timers = s.timers := rfl
@[simp] theorem State.modTt_perf (s : State) (f : Tt → Tt) : (s.modTt f).perf = s.perf := rfl
@[simp] theorem State.modTt_time (s : State) (f : Tt → Tt) : (s.modTt f).time = s.time := rfl
@[simp] theorem State.modTt_eth (s : State) (f : Tt → Tt) : (s.modTt f).eth = s.eth := rfl
@[simp] theorem State.modTt_tt (s : State) (f : Tt → Tt) : (s.modTt f).tt = f s.tt := rfl
@[simp] theorem State.modTt_tow (s : State) (f : Tt → Tt) : (s.modTt f).tow = s.tow := rfl
@[simp] theorem State.modTt_mirror (s : State) (f : Tt → Tt) : (s.modTt f).mirror = s.mirror := rfl
@[simp] theorem State.modTt_le (s : State) (f : Tt → Tt) : (s.modTt f).le = s.le := rfl
@[simp] theorem State.modTt_link (s : State) (f : Tt → Tt) : (s.modTt f).link = s.link := rfl
@[simp] theorem State.modTt_ax (s : State) (f : Tt → Tt) : (s.modTt f).ax = s.ax := rfl
@[simp] theorem State.modTt_sdd (s : State) (f : Tt → Tt) : (s.modTt f).sdd = s.sdd := rfl
@[simp] theorem State.modTt_fb (s : State) (f : Tt → Tt) : (s.modTt f).fb = s.fb := rfl
@[simp] theorem State.modTt_psync (s : State) (f : Tt → Tt) : (s.modTt f).psync = s.psync := rfl
@[simp] theorem State.modTt_safe (s : State) (f : Tt → Tt) : (s.modTt f).safe = s.safe := rfl
@[simp] theorem State.modTt_fio (s : State) (f : Tt → Tt) : (s.modTt f).fio = s.fio := rfl
@[simp] theorem State.modTt_acq (s : State) (f : Tt → Tt) : (s.modTt f).acq = s.acq := rfl
@[simp] theorem State.modTt_can (s : State) (f : Tt → Tt) : (s.modTt f).can = s.can := rfl
@[simp] theorem State.modTt_basin (s : State) (f : Tt → Tt) : (s.modTt f).basin = s.basin := rfl
@[simp] theorem State.modTt_fc (s : State) (f : Tt → Tt) : (s.modTt f).fc = s.fc := rfl
@[simp] theorem State.modTt_pwr (s : State) (f : Tt → Tt) : (s.modTt f).pwr = s.pwr := rfl
@[simp] theorem State.modTt_boot (s : State) (f : Tt → Tt) : (s.modTt f).boot = s.boot := rfl
@[simp] theorem State.modTt_sv (s : State) (f : Tt → Tt) : (s.modTt f).sv = s.sv := rfl
@[simp] theorem State.modTt_reg (s : State) (f : Tt → Tt) (k : Nat) : (s.modTt f).reg k = s.reg k := rfl
@[simp] theorem State.modTt_fld (s : State) (f : Tt → Tt) (k : Nat) (g : Fld) : (s.modTt f).fld k g = s.fld k g := rfl
@[simp] theorem State.modTt_flag (s : State) (f : Tt → Tt) (k : Nat) (g : Fld) : (s.modTt f).flag k g = s.flag k g := rfl
@[simp] theorem State.modTt_domOn (s : State) (f : Tt → Tt) (k : Nat) : (s.modTt f).domOn k = s.domOn k := rfl
@[simp] theorem State.modTt_mode (s : State) (f : Tt → Tt) : (s.modTt f).mode = s.mode := rfl

/-! ### modTow -/

@[simp] theorem State.modTow_part (s : State) (f : Tow → Tow) : (s.modTow f).part = s.part := rfl
@[simp] theorem State.modTow_pending (s : State) (f : Tow → Tow) : (s.modTow f).pending = s.pending := rfl
@[simp] theorem State.modTow_clock (s : State) (f : Tow → Tow) : (s.modTow f).clock = s.clock := rfl
@[simp] theorem State.modTow_free (s : State) (f : Tow → Tow) : (s.modTow f).free = s.free := rfl
@[simp] theorem State.modTow_regs (s : State) (f : Tow → Tow) : (s.modTow f).regs = s.regs := rfl
@[simp] theorem State.modTow_cpDiff (s : State) (f : Tow → Tow) : (s.modTow f).cpDiff = s.cpDiff := rfl
@[simp] theorem State.modTow_cpArmed (s : State) (f : Tow → Tow) : (s.modTow f).cpArmed = s.cpArmed := rfl
@[simp] theorem State.modTow_hiLatch (s : State) (f : Tow → Tow) : (s.modTow f).hiLatch = s.hiLatch := rfl
@[simp] theorem State.modTow_loHold (s : State) (f : Tow → Tow) : (s.modTow f).loHold = s.loHold := rfl
@[simp] theorem State.modTow_resp (s : State) (f : Tow → Tow) : (s.modTow f).resp = s.resp := rfl
@[simp] theorem State.modTow_mem (s : State) (f : Tow → Tow) : (s.modTow f).mem = s.mem := rfl
@[simp] theorem State.modTow_timers (s : State) (f : Tow → Tow) : (s.modTow f).timers = s.timers := rfl
@[simp] theorem State.modTow_perf (s : State) (f : Tow → Tow) : (s.modTow f).perf = s.perf := rfl
@[simp] theorem State.modTow_time (s : State) (f : Tow → Tow) : (s.modTow f).time = s.time := rfl
@[simp] theorem State.modTow_eth (s : State) (f : Tow → Tow) : (s.modTow f).eth = s.eth := rfl
@[simp] theorem State.modTow_tt (s : State) (f : Tow → Tow) : (s.modTow f).tt = s.tt := rfl
@[simp] theorem State.modTow_tow (s : State) (f : Tow → Tow) : (s.modTow f).tow = f s.tow := rfl
@[simp] theorem State.modTow_mirror (s : State) (f : Tow → Tow) : (s.modTow f).mirror = s.mirror := rfl
@[simp] theorem State.modTow_le (s : State) (f : Tow → Tow) : (s.modTow f).le = s.le := rfl
@[simp] theorem State.modTow_link (s : State) (f : Tow → Tow) : (s.modTow f).link = s.link := rfl
@[simp] theorem State.modTow_ax (s : State) (f : Tow → Tow) : (s.modTow f).ax = s.ax := rfl
@[simp] theorem State.modTow_sdd (s : State) (f : Tow → Tow) : (s.modTow f).sdd = s.sdd := rfl
@[simp] theorem State.modTow_fb (s : State) (f : Tow → Tow) : (s.modTow f).fb = s.fb := rfl
@[simp] theorem State.modTow_psync (s : State) (f : Tow → Tow) : (s.modTow f).psync = s.psync := rfl
@[simp] theorem State.modTow_safe (s : State) (f : Tow → Tow) : (s.modTow f).safe = s.safe := rfl
@[simp] theorem State.modTow_fio (s : State) (f : Tow → Tow) : (s.modTow f).fio = s.fio := rfl
@[simp] theorem State.modTow_acq (s : State) (f : Tow → Tow) : (s.modTow f).acq = s.acq := rfl
@[simp] theorem State.modTow_can (s : State) (f : Tow → Tow) : (s.modTow f).can = s.can := rfl
@[simp] theorem State.modTow_basin (s : State) (f : Tow → Tow) : (s.modTow f).basin = s.basin := rfl
@[simp] theorem State.modTow_fc (s : State) (f : Tow → Tow) : (s.modTow f).fc = s.fc := rfl
@[simp] theorem State.modTow_pwr (s : State) (f : Tow → Tow) : (s.modTow f).pwr = s.pwr := rfl
@[simp] theorem State.modTow_boot (s : State) (f : Tow → Tow) : (s.modTow f).boot = s.boot := rfl
@[simp] theorem State.modTow_sv (s : State) (f : Tow → Tow) : (s.modTow f).sv = s.sv := rfl
@[simp] theorem State.modTow_reg (s : State) (f : Tow → Tow) (k : Nat) : (s.modTow f).reg k = s.reg k := rfl
@[simp] theorem State.modTow_fld (s : State) (f : Tow → Tow) (k : Nat) (g : Fld) : (s.modTow f).fld k g = s.fld k g := rfl
@[simp] theorem State.modTow_flag (s : State) (f : Tow → Tow) (k : Nat) (g : Fld) : (s.modTow f).flag k g = s.flag k g := rfl
@[simp] theorem State.modTow_domOn (s : State) (f : Tow → Tow) (k : Nat) : (s.modTow f).domOn k = s.domOn k := rfl
@[simp] theorem State.modTow_mode (s : State) (f : Tow → Tow) : (s.modTow f).mode = s.mode := rfl

/-! ### modMirror -/

@[simp] theorem State.modMirror_part (s : State) (f : Mirror → Mirror) : (s.modMirror f).part = s.part := rfl
@[simp] theorem State.modMirror_pending (s : State) (f : Mirror → Mirror) : (s.modMirror f).pending = s.pending := rfl
@[simp] theorem State.modMirror_clock (s : State) (f : Mirror → Mirror) : (s.modMirror f).clock = s.clock := rfl
@[simp] theorem State.modMirror_free (s : State) (f : Mirror → Mirror) : (s.modMirror f).free = s.free := rfl
@[simp] theorem State.modMirror_regs (s : State) (f : Mirror → Mirror) : (s.modMirror f).regs = s.regs := rfl
@[simp] theorem State.modMirror_cpDiff (s : State) (f : Mirror → Mirror) : (s.modMirror f).cpDiff = s.cpDiff := rfl
@[simp] theorem State.modMirror_cpArmed (s : State) (f : Mirror → Mirror) : (s.modMirror f).cpArmed = s.cpArmed := rfl
@[simp] theorem State.modMirror_hiLatch (s : State) (f : Mirror → Mirror) : (s.modMirror f).hiLatch = s.hiLatch := rfl
@[simp] theorem State.modMirror_loHold (s : State) (f : Mirror → Mirror) : (s.modMirror f).loHold = s.loHold := rfl
@[simp] theorem State.modMirror_resp (s : State) (f : Mirror → Mirror) : (s.modMirror f).resp = s.resp := rfl
@[simp] theorem State.modMirror_mem (s : State) (f : Mirror → Mirror) : (s.modMirror f).mem = s.mem := rfl
@[simp] theorem State.modMirror_timers (s : State) (f : Mirror → Mirror) : (s.modMirror f).timers = s.timers := rfl
@[simp] theorem State.modMirror_perf (s : State) (f : Mirror → Mirror) : (s.modMirror f).perf = s.perf := rfl
@[simp] theorem State.modMirror_time (s : State) (f : Mirror → Mirror) : (s.modMirror f).time = s.time := rfl
@[simp] theorem State.modMirror_eth (s : State) (f : Mirror → Mirror) : (s.modMirror f).eth = s.eth := rfl
@[simp] theorem State.modMirror_tt (s : State) (f : Mirror → Mirror) : (s.modMirror f).tt = s.tt := rfl
@[simp] theorem State.modMirror_tow (s : State) (f : Mirror → Mirror) : (s.modMirror f).tow = s.tow := rfl
@[simp] theorem State.modMirror_mirror (s : State) (f : Mirror → Mirror) : (s.modMirror f).mirror = f s.mirror := rfl
@[simp] theorem State.modMirror_le (s : State) (f : Mirror → Mirror) : (s.modMirror f).le = s.le := rfl
@[simp] theorem State.modMirror_link (s : State) (f : Mirror → Mirror) : (s.modMirror f).link = s.link := rfl
@[simp] theorem State.modMirror_ax (s : State) (f : Mirror → Mirror) : (s.modMirror f).ax = s.ax := rfl
@[simp] theorem State.modMirror_sdd (s : State) (f : Mirror → Mirror) : (s.modMirror f).sdd = s.sdd := rfl
@[simp] theorem State.modMirror_fb (s : State) (f : Mirror → Mirror) : (s.modMirror f).fb = s.fb := rfl
@[simp] theorem State.modMirror_psync (s : State) (f : Mirror → Mirror) : (s.modMirror f).psync = s.psync := rfl
@[simp] theorem State.modMirror_safe (s : State) (f : Mirror → Mirror) : (s.modMirror f).safe = s.safe := rfl
@[simp] theorem State.modMirror_fio (s : State) (f : Mirror → Mirror) : (s.modMirror f).fio = s.fio := rfl
@[simp] theorem State.modMirror_acq (s : State) (f : Mirror → Mirror) : (s.modMirror f).acq = s.acq := rfl
@[simp] theorem State.modMirror_can (s : State) (f : Mirror → Mirror) : (s.modMirror f).can = s.can := rfl
@[simp] theorem State.modMirror_basin (s : State) (f : Mirror → Mirror) : (s.modMirror f).basin = s.basin := rfl
@[simp] theorem State.modMirror_fc (s : State) (f : Mirror → Mirror) : (s.modMirror f).fc = s.fc := rfl
@[simp] theorem State.modMirror_pwr (s : State) (f : Mirror → Mirror) : (s.modMirror f).pwr = s.pwr := rfl
@[simp] theorem State.modMirror_boot (s : State) (f : Mirror → Mirror) : (s.modMirror f).boot = s.boot := rfl
@[simp] theorem State.modMirror_sv (s : State) (f : Mirror → Mirror) : (s.modMirror f).sv = s.sv := rfl
@[simp] theorem State.modMirror_reg (s : State) (f : Mirror → Mirror) (k : Nat) : (s.modMirror f).reg k = s.reg k := rfl
@[simp] theorem State.modMirror_fld (s : State) (f : Mirror → Mirror) (k : Nat) (g : Fld) : (s.modMirror f).fld k g = s.fld k g := rfl
@[simp] theorem State.modMirror_flag (s : State) (f : Mirror → Mirror) (k : Nat) (g : Fld) : (s.modMirror f).flag k g = s.flag k g := rfl
@[simp] theorem State.modMirror_domOn (s : State) (f : Mirror → Mirror) (k : Nat) : (s.modMirror f).domOn k = s.domOn k := rfl
@[simp] theorem State.modMirror_mode (s : State) (f : Mirror → Mirror) : (s.modMirror f).mode = s.mode := rfl

/-! ### modFc -/

@[simp] theorem State.modFc_part (s : State) (f : Fc → Fc) : (s.modFc f).part = s.part := rfl
@[simp] theorem State.modFc_pending (s : State) (f : Fc → Fc) : (s.modFc f).pending = s.pending := rfl
@[simp] theorem State.modFc_clock (s : State) (f : Fc → Fc) : (s.modFc f).clock = s.clock := rfl
@[simp] theorem State.modFc_free (s : State) (f : Fc → Fc) : (s.modFc f).free = s.free := rfl
@[simp] theorem State.modFc_regs (s : State) (f : Fc → Fc) : (s.modFc f).regs = s.regs := rfl
@[simp] theorem State.modFc_cpDiff (s : State) (f : Fc → Fc) : (s.modFc f).cpDiff = s.cpDiff := rfl
@[simp] theorem State.modFc_cpArmed (s : State) (f : Fc → Fc) : (s.modFc f).cpArmed = s.cpArmed := rfl
@[simp] theorem State.modFc_hiLatch (s : State) (f : Fc → Fc) : (s.modFc f).hiLatch = s.hiLatch := rfl
@[simp] theorem State.modFc_loHold (s : State) (f : Fc → Fc) : (s.modFc f).loHold = s.loHold := rfl
@[simp] theorem State.modFc_resp (s : State) (f : Fc → Fc) : (s.modFc f).resp = s.resp := rfl
@[simp] theorem State.modFc_mem (s : State) (f : Fc → Fc) : (s.modFc f).mem = s.mem := rfl
@[simp] theorem State.modFc_timers (s : State) (f : Fc → Fc) : (s.modFc f).timers = s.timers := rfl
@[simp] theorem State.modFc_perf (s : State) (f : Fc → Fc) : (s.modFc f).perf = s.perf := rfl
@[simp] theorem State.modFc_time (s : State) (f : Fc → Fc) : (s.modFc f).time = s.time := rfl
@[simp] theorem State.modFc_eth (s : State) (f : Fc → Fc) : (s.modFc f).eth = s.eth := rfl
@[simp] theorem State.modFc_tt (s : State) (f : Fc → Fc) : (s.modFc f).tt = s.tt := rfl
@[simp] theorem State.modFc_tow (s : State) (f : Fc → Fc) : (s.modFc f).tow = s.tow := rfl
@[simp] theorem State.modFc_mirror (s : State) (f : Fc → Fc) : (s.modFc f).mirror = s.mirror := rfl
@[simp] theorem State.modFc_le (s : State) (f : Fc → Fc) : (s.modFc f).le = s.le := rfl
@[simp] theorem State.modFc_link (s : State) (f : Fc → Fc) : (s.modFc f).link = s.link := rfl
@[simp] theorem State.modFc_ax (s : State) (f : Fc → Fc) : (s.modFc f).ax = s.ax := rfl
@[simp] theorem State.modFc_sdd (s : State) (f : Fc → Fc) : (s.modFc f).sdd = s.sdd := rfl
@[simp] theorem State.modFc_fb (s : State) (f : Fc → Fc) : (s.modFc f).fb = s.fb := rfl
@[simp] theorem State.modFc_psync (s : State) (f : Fc → Fc) : (s.modFc f).psync = s.psync := rfl
@[simp] theorem State.modFc_safe (s : State) (f : Fc → Fc) : (s.modFc f).safe = s.safe := rfl
@[simp] theorem State.modFc_fio (s : State) (f : Fc → Fc) : (s.modFc f).fio = s.fio := rfl
@[simp] theorem State.modFc_acq (s : State) (f : Fc → Fc) : (s.modFc f).acq = s.acq := rfl
@[simp] theorem State.modFc_can (s : State) (f : Fc → Fc) : (s.modFc f).can = s.can := rfl
@[simp] theorem State.modFc_basin (s : State) (f : Fc → Fc) : (s.modFc f).basin = s.basin := rfl
@[simp] theorem State.modFc_fc (s : State) (f : Fc → Fc) : (s.modFc f).fc = f s.fc := rfl
@[simp] theorem State.modFc_pwr (s : State) (f : Fc → Fc) : (s.modFc f).pwr = s.pwr := rfl
@[simp] theorem State.modFc_boot (s : State) (f : Fc → Fc) : (s.modFc f).boot = s.boot := rfl
@[simp] theorem State.modFc_sv (s : State) (f : Fc → Fc) : (s.modFc f).sv = s.sv := rfl
@[simp] theorem State.modFc_reg (s : State) (f : Fc → Fc) (k : Nat) : (s.modFc f).reg k = s.reg k := rfl
@[simp] theorem State.modFc_fld (s : State) (f : Fc → Fc) (k : Nat) (g : Fld) : (s.modFc f).fld k g = s.fld k g := rfl
@[simp] theorem State.modFc_flag (s : State) (f : Fc → Fc) (k : Nat) (g : Fld) : (s.modFc f).flag k g = s.flag k g := rfl
@[simp] theorem State.modFc_domOn (s : State) (f : Fc → Fc) (k : Nat) : (s.modFc f).domOn k = s.domOn k := rfl
@[simp] theorem State.modFc_mode (s : State) (f : Fc → Fc) : (s.modFc f).mode = s.mode := rfl

/-! ### modPwr -/

@[simp] theorem State.modPwr_part (s : State) (f : Pwr → Pwr) : (s.modPwr f).part = s.part := rfl
@[simp] theorem State.modPwr_pending (s : State) (f : Pwr → Pwr) : (s.modPwr f).pending = s.pending := rfl
@[simp] theorem State.modPwr_clock (s : State) (f : Pwr → Pwr) : (s.modPwr f).clock = s.clock := rfl
@[simp] theorem State.modPwr_free (s : State) (f : Pwr → Pwr) : (s.modPwr f).free = s.free := rfl
@[simp] theorem State.modPwr_regs (s : State) (f : Pwr → Pwr) : (s.modPwr f).regs = s.regs := rfl
@[simp] theorem State.modPwr_cpDiff (s : State) (f : Pwr → Pwr) : (s.modPwr f).cpDiff = s.cpDiff := rfl
@[simp] theorem State.modPwr_cpArmed (s : State) (f : Pwr → Pwr) : (s.modPwr f).cpArmed = s.cpArmed := rfl
@[simp] theorem State.modPwr_hiLatch (s : State) (f : Pwr → Pwr) : (s.modPwr f).hiLatch = s.hiLatch := rfl
@[simp] theorem State.modPwr_loHold (s : State) (f : Pwr → Pwr) : (s.modPwr f).loHold = s.loHold := rfl
@[simp] theorem State.modPwr_resp (s : State) (f : Pwr → Pwr) : (s.modPwr f).resp = s.resp := rfl
@[simp] theorem State.modPwr_mem (s : State) (f : Pwr → Pwr) : (s.modPwr f).mem = s.mem := rfl
@[simp] theorem State.modPwr_timers (s : State) (f : Pwr → Pwr) : (s.modPwr f).timers = s.timers := rfl
@[simp] theorem State.modPwr_perf (s : State) (f : Pwr → Pwr) : (s.modPwr f).perf = s.perf := rfl
@[simp] theorem State.modPwr_time (s : State) (f : Pwr → Pwr) : (s.modPwr f).time = s.time := rfl
@[simp] theorem State.modPwr_eth (s : State) (f : Pwr → Pwr) : (s.modPwr f).eth = s.eth := rfl
@[simp] theorem State.modPwr_tt (s : State) (f : Pwr → Pwr) : (s.modPwr f).tt = s.tt := rfl
@[simp] theorem State.modPwr_tow (s : State) (f : Pwr → Pwr) : (s.modPwr f).tow = s.tow := rfl
@[simp] theorem State.modPwr_mirror (s : State) (f : Pwr → Pwr) : (s.modPwr f).mirror = s.mirror := rfl
@[simp] theorem State.modPwr_le (s : State) (f : Pwr → Pwr) : (s.modPwr f).le = s.le := rfl
@[simp] theorem State.modPwr_link (s : State) (f : Pwr → Pwr) : (s.modPwr f).link = s.link := rfl
@[simp] theorem State.modPwr_ax (s : State) (f : Pwr → Pwr) : (s.modPwr f).ax = s.ax := rfl
@[simp] theorem State.modPwr_sdd (s : State) (f : Pwr → Pwr) : (s.modPwr f).sdd = s.sdd := rfl
@[simp] theorem State.modPwr_fb (s : State) (f : Pwr → Pwr) : (s.modPwr f).fb = s.fb := rfl
@[simp] theorem State.modPwr_psync (s : State) (f : Pwr → Pwr) : (s.modPwr f).psync = s.psync := rfl
@[simp] theorem State.modPwr_safe (s : State) (f : Pwr → Pwr) : (s.modPwr f).safe = s.safe := rfl
@[simp] theorem State.modPwr_fio (s : State) (f : Pwr → Pwr) : (s.modPwr f).fio = s.fio := rfl
@[simp] theorem State.modPwr_acq (s : State) (f : Pwr → Pwr) : (s.modPwr f).acq = s.acq := rfl
@[simp] theorem State.modPwr_can (s : State) (f : Pwr → Pwr) : (s.modPwr f).can = s.can := rfl
@[simp] theorem State.modPwr_basin (s : State) (f : Pwr → Pwr) : (s.modPwr f).basin = s.basin := rfl
@[simp] theorem State.modPwr_fc (s : State) (f : Pwr → Pwr) : (s.modPwr f).fc = s.fc := rfl
@[simp] theorem State.modPwr_pwr (s : State) (f : Pwr → Pwr) : (s.modPwr f).pwr = f s.pwr := rfl
@[simp] theorem State.modPwr_boot (s : State) (f : Pwr → Pwr) : (s.modPwr f).boot = s.boot := rfl
@[simp] theorem State.modPwr_sv (s : State) (f : Pwr → Pwr) : (s.modPwr f).sv = s.sv := rfl
@[simp] theorem State.modPwr_reg (s : State) (f : Pwr → Pwr) (k : Nat) : (s.modPwr f).reg k = s.reg k := rfl
@[simp] theorem State.modPwr_fld (s : State) (f : Pwr → Pwr) (k : Nat) (g : Fld) : (s.modPwr f).fld k g = s.fld k g := rfl
@[simp] theorem State.modPwr_flag (s : State) (f : Pwr → Pwr) (k : Nat) (g : Fld) : (s.modPwr f).flag k g = s.flag k g := rfl
@[simp] theorem State.modPwr_domOn (s : State) (f : Pwr → Pwr) (k : Nat) : (s.modPwr f).domOn k = s.domOn k := rfl
@[simp] theorem State.modPwr_mode (s : State) (f : Pwr → Pwr) : (s.modPwr f).mode = s.mode := rfl

/-! ### modBoot -/

@[simp] theorem State.modBoot_part (s : State) (f : Boot → Boot) : (s.modBoot f).part = s.part := rfl
@[simp] theorem State.modBoot_pending (s : State) (f : Boot → Boot) : (s.modBoot f).pending = s.pending := rfl
@[simp] theorem State.modBoot_clock (s : State) (f : Boot → Boot) : (s.modBoot f).clock = s.clock := rfl
@[simp] theorem State.modBoot_free (s : State) (f : Boot → Boot) : (s.modBoot f).free = s.free := rfl
@[simp] theorem State.modBoot_regs (s : State) (f : Boot → Boot) : (s.modBoot f).regs = s.regs := rfl
@[simp] theorem State.modBoot_cpDiff (s : State) (f : Boot → Boot) : (s.modBoot f).cpDiff = s.cpDiff := rfl
@[simp] theorem State.modBoot_cpArmed (s : State) (f : Boot → Boot) : (s.modBoot f).cpArmed = s.cpArmed := rfl
@[simp] theorem State.modBoot_hiLatch (s : State) (f : Boot → Boot) : (s.modBoot f).hiLatch = s.hiLatch := rfl
@[simp] theorem State.modBoot_loHold (s : State) (f : Boot → Boot) : (s.modBoot f).loHold = s.loHold := rfl
@[simp] theorem State.modBoot_resp (s : State) (f : Boot → Boot) : (s.modBoot f).resp = s.resp := rfl
@[simp] theorem State.modBoot_mem (s : State) (f : Boot → Boot) : (s.modBoot f).mem = s.mem := rfl
@[simp] theorem State.modBoot_timers (s : State) (f : Boot → Boot) : (s.modBoot f).timers = s.timers := rfl
@[simp] theorem State.modBoot_perf (s : State) (f : Boot → Boot) : (s.modBoot f).perf = s.perf := rfl
@[simp] theorem State.modBoot_time (s : State) (f : Boot → Boot) : (s.modBoot f).time = s.time := rfl
@[simp] theorem State.modBoot_eth (s : State) (f : Boot → Boot) : (s.modBoot f).eth = s.eth := rfl
@[simp] theorem State.modBoot_tt (s : State) (f : Boot → Boot) : (s.modBoot f).tt = s.tt := rfl
@[simp] theorem State.modBoot_tow (s : State) (f : Boot → Boot) : (s.modBoot f).tow = s.tow := rfl
@[simp] theorem State.modBoot_mirror (s : State) (f : Boot → Boot) : (s.modBoot f).mirror = s.mirror := rfl
@[simp] theorem State.modBoot_le (s : State) (f : Boot → Boot) : (s.modBoot f).le = s.le := rfl
@[simp] theorem State.modBoot_link (s : State) (f : Boot → Boot) : (s.modBoot f).link = s.link := rfl
@[simp] theorem State.modBoot_ax (s : State) (f : Boot → Boot) : (s.modBoot f).ax = s.ax := rfl
@[simp] theorem State.modBoot_sdd (s : State) (f : Boot → Boot) : (s.modBoot f).sdd = s.sdd := rfl
@[simp] theorem State.modBoot_fb (s : State) (f : Boot → Boot) : (s.modBoot f).fb = s.fb := rfl
@[simp] theorem State.modBoot_psync (s : State) (f : Boot → Boot) : (s.modBoot f).psync = s.psync := rfl
@[simp] theorem State.modBoot_safe (s : State) (f : Boot → Boot) : (s.modBoot f).safe = s.safe := rfl
@[simp] theorem State.modBoot_fio (s : State) (f : Boot → Boot) : (s.modBoot f).fio = s.fio := rfl
@[simp] theorem State.modBoot_acq (s : State) (f : Boot → Boot) : (s.modBoot f).acq = s.acq := rfl
@[simp] theorem State.modBoot_can (s : State) (f : Boot → Boot) : (s.modBoot f).can = s.can := rfl
@[simp] theorem State.modBoot_basin (s : State) (f : Boot → Boot) : (s.modBoot f).basin = s.basin := rfl
@[simp] theorem State.modBoot_fc (s : State) (f : Boot → Boot) : (s.modBoot f).fc = s.fc := rfl
@[simp] theorem State.modBoot_pwr (s : State) (f : Boot → Boot) : (s.modBoot f).pwr = s.pwr := rfl
@[simp] theorem State.modBoot_boot (s : State) (f : Boot → Boot) : (s.modBoot f).boot = f s.boot := rfl
@[simp] theorem State.modBoot_sv (s : State) (f : Boot → Boot) : (s.modBoot f).sv = s.sv := rfl
@[simp] theorem State.modBoot_reg (s : State) (f : Boot → Boot) (k : Nat) : (s.modBoot f).reg k = s.reg k := rfl
@[simp] theorem State.modBoot_fld (s : State) (f : Boot → Boot) (k : Nat) (g : Fld) : (s.modBoot f).fld k g = s.fld k g := rfl
@[simp] theorem State.modBoot_flag (s : State) (f : Boot → Boot) (k : Nat) (g : Fld) : (s.modBoot f).flag k g = s.flag k g := rfl
@[simp] theorem State.modBoot_domOn (s : State) (f : Boot → Boot) (k : Nat) : (s.modBoot f).domOn k = s.domOn k := rfl
@[simp] theorem State.modBoot_mode (s : State) (f : Boot → Boot) : (s.modBoot f).mode = s.mode := rfl

/-! ### modBasin -/

@[simp] theorem State.modBasin_part (s : State) (f : Basin → Basin) : (s.modBasin f).part = s.part := rfl
@[simp] theorem State.modBasin_pending (s : State) (f : Basin → Basin) : (s.modBasin f).pending = s.pending := rfl
@[simp] theorem State.modBasin_clock (s : State) (f : Basin → Basin) : (s.modBasin f).clock = s.clock := rfl
@[simp] theorem State.modBasin_free (s : State) (f : Basin → Basin) : (s.modBasin f).free = s.free := rfl
@[simp] theorem State.modBasin_regs (s : State) (f : Basin → Basin) : (s.modBasin f).regs = s.regs := rfl
@[simp] theorem State.modBasin_cpDiff (s : State) (f : Basin → Basin) : (s.modBasin f).cpDiff = s.cpDiff := rfl
@[simp] theorem State.modBasin_cpArmed (s : State) (f : Basin → Basin) : (s.modBasin f).cpArmed = s.cpArmed := rfl
@[simp] theorem State.modBasin_hiLatch (s : State) (f : Basin → Basin) : (s.modBasin f).hiLatch = s.hiLatch := rfl
@[simp] theorem State.modBasin_loHold (s : State) (f : Basin → Basin) : (s.modBasin f).loHold = s.loHold := rfl
@[simp] theorem State.modBasin_resp (s : State) (f : Basin → Basin) : (s.modBasin f).resp = s.resp := rfl
@[simp] theorem State.modBasin_mem (s : State) (f : Basin → Basin) : (s.modBasin f).mem = s.mem := rfl
@[simp] theorem State.modBasin_timers (s : State) (f : Basin → Basin) : (s.modBasin f).timers = s.timers := rfl
@[simp] theorem State.modBasin_perf (s : State) (f : Basin → Basin) : (s.modBasin f).perf = s.perf := rfl
@[simp] theorem State.modBasin_time (s : State) (f : Basin → Basin) : (s.modBasin f).time = s.time := rfl
@[simp] theorem State.modBasin_eth (s : State) (f : Basin → Basin) : (s.modBasin f).eth = s.eth := rfl
@[simp] theorem State.modBasin_tt (s : State) (f : Basin → Basin) : (s.modBasin f).tt = s.tt := rfl
@[simp] theorem State.modBasin_tow (s : State) (f : Basin → Basin) : (s.modBasin f).tow = s.tow := rfl
@[simp] theorem State.modBasin_mirror (s : State) (f : Basin → Basin) : (s.modBasin f).mirror = s.mirror := rfl
@[simp] theorem State.modBasin_le (s : State) (f : Basin → Basin) : (s.modBasin f).le = s.le := rfl
@[simp] theorem State.modBasin_link (s : State) (f : Basin → Basin) : (s.modBasin f).link = s.link := rfl
@[simp] theorem State.modBasin_ax (s : State) (f : Basin → Basin) : (s.modBasin f).ax = s.ax := rfl
@[simp] theorem State.modBasin_sdd (s : State) (f : Basin → Basin) : (s.modBasin f).sdd = s.sdd := rfl
@[simp] theorem State.modBasin_fb (s : State) (f : Basin → Basin) : (s.modBasin f).fb = s.fb := rfl
@[simp] theorem State.modBasin_psync (s : State) (f : Basin → Basin) : (s.modBasin f).psync = s.psync := rfl
@[simp] theorem State.modBasin_safe (s : State) (f : Basin → Basin) : (s.modBasin f).safe = s.safe := rfl
@[simp] theorem State.modBasin_fio (s : State) (f : Basin → Basin) : (s.modBasin f).fio = s.fio := rfl
@[simp] theorem State.modBasin_acq (s : State) (f : Basin → Basin) : (s.modBasin f).acq = s.acq := rfl
@[simp] theorem State.modBasin_can (s : State) (f : Basin → Basin) : (s.modBasin f).can = s.can := rfl
@[simp] theorem State.modBasin_basin (s : State) (f : Basin → Basin) : (s.modBasin f).basin = f s.basin := rfl
@[simp] theorem State.modBasin_fc (s : State) (f : Basin → Basin) : (s.modBasin f).fc = s.fc := rfl
@[simp] theorem State.modBasin_pwr (s : State) (f : Basin → Basin) : (s.modBasin f).pwr = s.pwr := rfl
@[simp] theorem State.modBasin_boot (s : State) (f : Basin → Basin) : (s.modBasin f).boot = s.boot := rfl
@[simp] theorem State.modBasin_sv (s : State) (f : Basin → Basin) : (s.modBasin f).sv = s.sv := rfl
@[simp] theorem State.modBasin_reg (s : State) (f : Basin → Basin) (k : Nat) : (s.modBasin f).reg k = s.reg k := rfl
@[simp] theorem State.modBasin_fld (s : State) (f : Basin → Basin) (k : Nat) (g : Fld) : (s.modBasin f).fld k g = s.fld k g := rfl
@[simp] theorem State.modBasin_flag (s : State) (f : Basin → Basin) (k : Nat) (g : Fld) : (s.modBasin f).flag k g = s.flag k g := rfl
@[simp] theorem State.modBasin_domOn (s : State) (f : Basin → Basin) (k : Nat) : (s.modBasin f).domOn k = s.domOn k := rfl
@[simp] theorem State.modBasin_mode (s : State) (f : Basin → Basin) : (s.modBasin f).mode = s.mode := rfl

/-! ### modPs -/

@[simp] theorem State.modPs_part (s : State) (f : Psync → Psync) : (s.modPs f).part = s.part := rfl
@[simp] theorem State.modPs_pending (s : State) (f : Psync → Psync) : (s.modPs f).pending = s.pending := rfl
@[simp] theorem State.modPs_clock (s : State) (f : Psync → Psync) : (s.modPs f).clock = s.clock := rfl
@[simp] theorem State.modPs_free (s : State) (f : Psync → Psync) : (s.modPs f).free = s.free := rfl
@[simp] theorem State.modPs_regs (s : State) (f : Psync → Psync) : (s.modPs f).regs = s.regs := rfl
@[simp] theorem State.modPs_cpDiff (s : State) (f : Psync → Psync) : (s.modPs f).cpDiff = s.cpDiff := rfl
@[simp] theorem State.modPs_cpArmed (s : State) (f : Psync → Psync) : (s.modPs f).cpArmed = s.cpArmed := rfl
@[simp] theorem State.modPs_hiLatch (s : State) (f : Psync → Psync) : (s.modPs f).hiLatch = s.hiLatch := rfl
@[simp] theorem State.modPs_loHold (s : State) (f : Psync → Psync) : (s.modPs f).loHold = s.loHold := rfl
@[simp] theorem State.modPs_resp (s : State) (f : Psync → Psync) : (s.modPs f).resp = s.resp := rfl
@[simp] theorem State.modPs_mem (s : State) (f : Psync → Psync) : (s.modPs f).mem = s.mem := rfl
@[simp] theorem State.modPs_timers (s : State) (f : Psync → Psync) : (s.modPs f).timers = s.timers := rfl
@[simp] theorem State.modPs_perf (s : State) (f : Psync → Psync) : (s.modPs f).perf = s.perf := rfl
@[simp] theorem State.modPs_time (s : State) (f : Psync → Psync) : (s.modPs f).time = s.time := rfl
@[simp] theorem State.modPs_eth (s : State) (f : Psync → Psync) : (s.modPs f).eth = s.eth := rfl
@[simp] theorem State.modPs_tt (s : State) (f : Psync → Psync) : (s.modPs f).tt = s.tt := rfl
@[simp] theorem State.modPs_tow (s : State) (f : Psync → Psync) : (s.modPs f).tow = s.tow := rfl
@[simp] theorem State.modPs_mirror (s : State) (f : Psync → Psync) : (s.modPs f).mirror = s.mirror := rfl
@[simp] theorem State.modPs_le (s : State) (f : Psync → Psync) : (s.modPs f).le = s.le := rfl
@[simp] theorem State.modPs_link (s : State) (f : Psync → Psync) : (s.modPs f).link = s.link := rfl
@[simp] theorem State.modPs_ax (s : State) (f : Psync → Psync) : (s.modPs f).ax = s.ax := rfl
@[simp] theorem State.modPs_sdd (s : State) (f : Psync → Psync) : (s.modPs f).sdd = s.sdd := rfl
@[simp] theorem State.modPs_fb (s : State) (f : Psync → Psync) : (s.modPs f).fb = s.fb := rfl
@[simp] theorem State.modPs_psync (s : State) (f : Psync → Psync) : (s.modPs f).psync = f s.psync := rfl
@[simp] theorem State.modPs_safe (s : State) (f : Psync → Psync) : (s.modPs f).safe = s.safe := rfl
@[simp] theorem State.modPs_fio (s : State) (f : Psync → Psync) : (s.modPs f).fio = s.fio := rfl
@[simp] theorem State.modPs_acq (s : State) (f : Psync → Psync) : (s.modPs f).acq = s.acq := rfl
@[simp] theorem State.modPs_can (s : State) (f : Psync → Psync) : (s.modPs f).can = s.can := rfl
@[simp] theorem State.modPs_basin (s : State) (f : Psync → Psync) : (s.modPs f).basin = s.basin := rfl
@[simp] theorem State.modPs_fc (s : State) (f : Psync → Psync) : (s.modPs f).fc = s.fc := rfl
@[simp] theorem State.modPs_pwr (s : State) (f : Psync → Psync) : (s.modPs f).pwr = s.pwr := rfl
@[simp] theorem State.modPs_boot (s : State) (f : Psync → Psync) : (s.modPs f).boot = s.boot := rfl
@[simp] theorem State.modPs_sv (s : State) (f : Psync → Psync) : (s.modPs f).sv = s.sv := rfl
@[simp] theorem State.modPs_reg (s : State) (f : Psync → Psync) (k : Nat) : (s.modPs f).reg k = s.reg k := rfl
@[simp] theorem State.modPs_fld (s : State) (f : Psync → Psync) (k : Nat) (g : Fld) : (s.modPs f).fld k g = s.fld k g := rfl
@[simp] theorem State.modPs_flag (s : State) (f : Psync → Psync) (k : Nat) (g : Fld) : (s.modPs f).flag k g = s.flag k g := rfl
@[simp] theorem State.modPs_domOn (s : State) (f : Psync → Psync) (k : Nat) : (s.modPs f).domOn k = s.domOn k := rfl
@[simp] theorem State.modPs_mode (s : State) (f : Psync → Psync) : (s.modPs f).mode = s.mode := rfl

/-! ### modSafe -/

@[simp] theorem State.modSafe_part (s : State) (f : Safe → Safe) : (s.modSafe f).part = s.part := rfl
@[simp] theorem State.modSafe_pending (s : State) (f : Safe → Safe) : (s.modSafe f).pending = s.pending := rfl
@[simp] theorem State.modSafe_clock (s : State) (f : Safe → Safe) : (s.modSafe f).clock = s.clock := rfl
@[simp] theorem State.modSafe_free (s : State) (f : Safe → Safe) : (s.modSafe f).free = s.free := rfl
@[simp] theorem State.modSafe_regs (s : State) (f : Safe → Safe) : (s.modSafe f).regs = s.regs := rfl
@[simp] theorem State.modSafe_cpDiff (s : State) (f : Safe → Safe) : (s.modSafe f).cpDiff = s.cpDiff := rfl
@[simp] theorem State.modSafe_cpArmed (s : State) (f : Safe → Safe) : (s.modSafe f).cpArmed = s.cpArmed := rfl
@[simp] theorem State.modSafe_hiLatch (s : State) (f : Safe → Safe) : (s.modSafe f).hiLatch = s.hiLatch := rfl
@[simp] theorem State.modSafe_loHold (s : State) (f : Safe → Safe) : (s.modSafe f).loHold = s.loHold := rfl
@[simp] theorem State.modSafe_resp (s : State) (f : Safe → Safe) : (s.modSafe f).resp = s.resp := rfl
@[simp] theorem State.modSafe_mem (s : State) (f : Safe → Safe) : (s.modSafe f).mem = s.mem := rfl
@[simp] theorem State.modSafe_timers (s : State) (f : Safe → Safe) : (s.modSafe f).timers = s.timers := rfl
@[simp] theorem State.modSafe_perf (s : State) (f : Safe → Safe) : (s.modSafe f).perf = s.perf := rfl
@[simp] theorem State.modSafe_time (s : State) (f : Safe → Safe) : (s.modSafe f).time = s.time := rfl
@[simp] theorem State.modSafe_eth (s : State) (f : Safe → Safe) : (s.modSafe f).eth = s.eth := rfl
@[simp] theorem State.modSafe_tt (s : State) (f : Safe → Safe) : (s.modSafe f).tt = s.tt := rfl
@[simp] theorem State.modSafe_tow (s : State) (f : Safe → Safe) : (s.modSafe f).tow = s.tow := rfl
@[simp] theorem State.modSafe_mirror (s : State) (f : Safe → Safe) : (s.modSafe f).mirror = s.mirror := rfl
@[simp] theorem State.modSafe_le (s : State) (f : Safe → Safe) : (s.modSafe f).le = s.le := rfl
@[simp] theorem State.modSafe_link (s : State) (f : Safe → Safe) : (s.modSafe f).link = s.link := rfl
@[simp] theorem State.modSafe_ax (s : State) (f : Safe → Safe) : (s.modSafe f).ax = s.ax := rfl
@[simp] theorem State.modSafe_sdd (s : State) (f : Safe → Safe) : (s.modSafe f).sdd = s.sdd := rfl
@[simp] theorem State.modSafe_fb (s : State) (f : Safe → Safe) : (s.modSafe f).fb = s.fb := rfl
@[simp] theorem State.modSafe_psync (s : State) (f : Safe → Safe) : (s.modSafe f).psync = s.psync := rfl
@[simp] theorem State.modSafe_safe (s : State) (f : Safe → Safe) : (s.modSafe f).safe = f s.safe := rfl
@[simp] theorem State.modSafe_fio (s : State) (f : Safe → Safe) : (s.modSafe f).fio = s.fio := rfl
@[simp] theorem State.modSafe_acq (s : State) (f : Safe → Safe) : (s.modSafe f).acq = s.acq := rfl
@[simp] theorem State.modSafe_can (s : State) (f : Safe → Safe) : (s.modSafe f).can = s.can := rfl
@[simp] theorem State.modSafe_basin (s : State) (f : Safe → Safe) : (s.modSafe f).basin = s.basin := rfl
@[simp] theorem State.modSafe_fc (s : State) (f : Safe → Safe) : (s.modSafe f).fc = s.fc := rfl
@[simp] theorem State.modSafe_pwr (s : State) (f : Safe → Safe) : (s.modSafe f).pwr = s.pwr := rfl
@[simp] theorem State.modSafe_boot (s : State) (f : Safe → Safe) : (s.modSafe f).boot = s.boot := rfl
@[simp] theorem State.modSafe_sv (s : State) (f : Safe → Safe) : (s.modSafe f).sv = s.sv := rfl
@[simp] theorem State.modSafe_reg (s : State) (f : Safe → Safe) (k : Nat) : (s.modSafe f).reg k = s.reg k := rfl
@[simp] theorem State.modSafe_fld (s : State) (f : Safe → Safe) (k : Nat) (g : Fld) : (s.modSafe f).fld k g = s.fld k g := rfl
@[simp] theorem State.modSafe_flag (s : State) (f : Safe → Safe) (k : Nat) (g : Fld) : (s.modSafe f).flag k g = s.flag k g := rfl
@[simp] theorem State.modSafe_domOn (s : State) (f : Safe → Safe) (k : Nat) : (s.modSafe f).domOn k = s.domOn k := rfl
@[simp] theorem State.modSafe_mode (s : State) (f : Safe → Safe) : (s.modSafe f).mode = s.mode := rfl

/-! ### modFio -/

@[simp] theorem State.modFio_part (s : State) (f : Fio → Fio) : (s.modFio f).part = s.part := rfl
@[simp] theorem State.modFio_pending (s : State) (f : Fio → Fio) : (s.modFio f).pending = s.pending := rfl
@[simp] theorem State.modFio_clock (s : State) (f : Fio → Fio) : (s.modFio f).clock = s.clock := rfl
@[simp] theorem State.modFio_free (s : State) (f : Fio → Fio) : (s.modFio f).free = s.free := rfl
@[simp] theorem State.modFio_regs (s : State) (f : Fio → Fio) : (s.modFio f).regs = s.regs := rfl
@[simp] theorem State.modFio_cpDiff (s : State) (f : Fio → Fio) : (s.modFio f).cpDiff = s.cpDiff := rfl
@[simp] theorem State.modFio_cpArmed (s : State) (f : Fio → Fio) : (s.modFio f).cpArmed = s.cpArmed := rfl
@[simp] theorem State.modFio_hiLatch (s : State) (f : Fio → Fio) : (s.modFio f).hiLatch = s.hiLatch := rfl
@[simp] theorem State.modFio_loHold (s : State) (f : Fio → Fio) : (s.modFio f).loHold = s.loHold := rfl
@[simp] theorem State.modFio_resp (s : State) (f : Fio → Fio) : (s.modFio f).resp = s.resp := rfl
@[simp] theorem State.modFio_mem (s : State) (f : Fio → Fio) : (s.modFio f).mem = s.mem := rfl
@[simp] theorem State.modFio_timers (s : State) (f : Fio → Fio) : (s.modFio f).timers = s.timers := rfl
@[simp] theorem State.modFio_perf (s : State) (f : Fio → Fio) : (s.modFio f).perf = s.perf := rfl
@[simp] theorem State.modFio_time (s : State) (f : Fio → Fio) : (s.modFio f).time = s.time := rfl
@[simp] theorem State.modFio_eth (s : State) (f : Fio → Fio) : (s.modFio f).eth = s.eth := rfl
@[simp] theorem State.modFio_tt (s : State) (f : Fio → Fio) : (s.modFio f).tt = s.tt := rfl
@[simp] theorem State.modFio_tow (s : State) (f : Fio → Fio) : (s.modFio f).tow = s.tow := rfl
@[simp] theorem State.modFio_mirror (s : State) (f : Fio → Fio) : (s.modFio f).mirror = s.mirror := rfl
@[simp] theorem State.modFio_le (s : State) (f : Fio → Fio) : (s.modFio f).le = s.le := rfl
@[simp] theorem State.modFio_link (s : State) (f : Fio → Fio) : (s.modFio f).link = s.link := rfl
@[simp] theorem State.modFio_ax (s : State) (f : Fio → Fio) : (s.modFio f).ax = s.ax := rfl
@[simp] theorem State.modFio_sdd (s : State) (f : Fio → Fio) : (s.modFio f).sdd = s.sdd := rfl
@[simp] theorem State.modFio_fb (s : State) (f : Fio → Fio) : (s.modFio f).fb = s.fb := rfl
@[simp] theorem State.modFio_psync (s : State) (f : Fio → Fio) : (s.modFio f).psync = s.psync := rfl
@[simp] theorem State.modFio_safe (s : State) (f : Fio → Fio) : (s.modFio f).safe = s.safe := rfl
@[simp] theorem State.modFio_fio (s : State) (f : Fio → Fio) : (s.modFio f).fio = f s.fio := rfl
@[simp] theorem State.modFio_acq (s : State) (f : Fio → Fio) : (s.modFio f).acq = s.acq := rfl
@[simp] theorem State.modFio_can (s : State) (f : Fio → Fio) : (s.modFio f).can = s.can := rfl
@[simp] theorem State.modFio_basin (s : State) (f : Fio → Fio) : (s.modFio f).basin = s.basin := rfl
@[simp] theorem State.modFio_fc (s : State) (f : Fio → Fio) : (s.modFio f).fc = s.fc := rfl
@[simp] theorem State.modFio_pwr (s : State) (f : Fio → Fio) : (s.modFio f).pwr = s.pwr := rfl
@[simp] theorem State.modFio_boot (s : State) (f : Fio → Fio) : (s.modFio f).boot = s.boot := rfl
@[simp] theorem State.modFio_sv (s : State) (f : Fio → Fio) : (s.modFio f).sv = s.sv := rfl
@[simp] theorem State.modFio_reg (s : State) (f : Fio → Fio) (k : Nat) : (s.modFio f).reg k = s.reg k := rfl
@[simp] theorem State.modFio_fld (s : State) (f : Fio → Fio) (k : Nat) (g : Fld) : (s.modFio f).fld k g = s.fld k g := rfl
@[simp] theorem State.modFio_flag (s : State) (f : Fio → Fio) (k : Nat) (g : Fld) : (s.modFio f).flag k g = s.flag k g := rfl
@[simp] theorem State.modFio_domOn (s : State) (f : Fio → Fio) (k : Nat) : (s.modFio f).domOn k = s.domOn k := rfl
@[simp] theorem State.modFio_mode (s : State) (f : Fio → Fio) : (s.modFio f).mode = s.mode := rfl

/-! ### modEth -/

@[simp] theorem State.modEth_part (s : State) (f : Eth → Eth) : (s.modEth f).part = s.part := rfl
@[simp] theorem State.modEth_pending (s : State) (f : Eth → Eth) : (s.modEth f).pending = s.pending := rfl
@[simp] theorem State.modEth_clock (s : State) (f : Eth → Eth) : (s.modEth f).clock = s.clock := rfl
@[simp] theorem State.modEth_free (s : State) (f : Eth → Eth) : (s.modEth f).free = s.free := rfl
@[simp] theorem State.modEth_regs (s : State) (f : Eth → Eth) : (s.modEth f).regs = s.regs := rfl
@[simp] theorem State.modEth_cpDiff (s : State) (f : Eth → Eth) : (s.modEth f).cpDiff = s.cpDiff := rfl
@[simp] theorem State.modEth_cpArmed (s : State) (f : Eth → Eth) : (s.modEth f).cpArmed = s.cpArmed := rfl
@[simp] theorem State.modEth_hiLatch (s : State) (f : Eth → Eth) : (s.modEth f).hiLatch = s.hiLatch := rfl
@[simp] theorem State.modEth_loHold (s : State) (f : Eth → Eth) : (s.modEth f).loHold = s.loHold := rfl
@[simp] theorem State.modEth_resp (s : State) (f : Eth → Eth) : (s.modEth f).resp = s.resp := rfl
@[simp] theorem State.modEth_mem (s : State) (f : Eth → Eth) : (s.modEth f).mem = s.mem := rfl
@[simp] theorem State.modEth_timers (s : State) (f : Eth → Eth) : (s.modEth f).timers = s.timers := rfl
@[simp] theorem State.modEth_perf (s : State) (f : Eth → Eth) : (s.modEth f).perf = s.perf := rfl
@[simp] theorem State.modEth_time (s : State) (f : Eth → Eth) : (s.modEth f).time = s.time := rfl
@[simp] theorem State.modEth_eth (s : State) (f : Eth → Eth) : (s.modEth f).eth = f s.eth := rfl
@[simp] theorem State.modEth_tt (s : State) (f : Eth → Eth) : (s.modEth f).tt = s.tt := rfl
@[simp] theorem State.modEth_tow (s : State) (f : Eth → Eth) : (s.modEth f).tow = s.tow := rfl
@[simp] theorem State.modEth_mirror (s : State) (f : Eth → Eth) : (s.modEth f).mirror = s.mirror := rfl
@[simp] theorem State.modEth_le (s : State) (f : Eth → Eth) : (s.modEth f).le = s.le := rfl
@[simp] theorem State.modEth_link (s : State) (f : Eth → Eth) : (s.modEth f).link = s.link := rfl
@[simp] theorem State.modEth_ax (s : State) (f : Eth → Eth) : (s.modEth f).ax = s.ax := rfl
@[simp] theorem State.modEth_sdd (s : State) (f : Eth → Eth) : (s.modEth f).sdd = s.sdd := rfl
@[simp] theorem State.modEth_fb (s : State) (f : Eth → Eth) : (s.modEth f).fb = s.fb := rfl
@[simp] theorem State.modEth_psync (s : State) (f : Eth → Eth) : (s.modEth f).psync = s.psync := rfl
@[simp] theorem State.modEth_safe (s : State) (f : Eth → Eth) : (s.modEth f).safe = s.safe := rfl
@[simp] theorem State.modEth_fio (s : State) (f : Eth → Eth) : (s.modEth f).fio = s.fio := rfl
@[simp] theorem State.modEth_acq (s : State) (f : Eth → Eth) : (s.modEth f).acq = s.acq := rfl
@[simp] theorem State.modEth_can (s : State) (f : Eth → Eth) : (s.modEth f).can = s.can := rfl
@[simp] theorem State.modEth_basin (s : State) (f : Eth → Eth) : (s.modEth f).basin = s.basin := rfl
@[simp] theorem State.modEth_fc (s : State) (f : Eth → Eth) : (s.modEth f).fc = s.fc := rfl
@[simp] theorem State.modEth_pwr (s : State) (f : Eth → Eth) : (s.modEth f).pwr = s.pwr := rfl
@[simp] theorem State.modEth_boot (s : State) (f : Eth → Eth) : (s.modEth f).boot = s.boot := rfl
@[simp] theorem State.modEth_sv (s : State) (f : Eth → Eth) : (s.modEth f).sv = s.sv := rfl
@[simp] theorem State.modEth_reg (s : State) (f : Eth → Eth) (k : Nat) : (s.modEth f).reg k = s.reg k := rfl
@[simp] theorem State.modEth_fld (s : State) (f : Eth → Eth) (k : Nat) (g : Fld) : (s.modEth f).fld k g = s.fld k g := rfl
@[simp] theorem State.modEth_flag (s : State) (f : Eth → Eth) (k : Nat) (g : Fld) : (s.modEth f).flag k g = s.flag k g := rfl
@[simp] theorem State.modEth_domOn (s : State) (f : Eth → Eth) (k : Nat) : (s.modEth f).domOn k = s.domOn k := rfl
@[simp] theorem State.modEth_mode (s : State) (f : Eth → Eth) : (s.modEth f).mode = s.mode := rfl

/-! ### modAcq -/

@[simp] theorem State.modAcq_part (s : State) (f : Acq → Acq) : (s.modAcq f).part = s.part := rfl
@[simp] theorem State.modAcq_pending (s : State) (f : Acq → Acq) : (s.modAcq f).pending = s.pending := rfl
@[simp] theorem State.modAcq_clock (s : State) (f : Acq → Acq) : (s.modAcq f).clock = s.clock := rfl
@[simp] theorem State.modAcq_free (s : State) (f : Acq → Acq) : (s.modAcq f).free = s.free := rfl
@[simp] theorem State.modAcq_regs (s : State) (f : Acq → Acq) : (s.modAcq f).regs = s.regs := rfl
@[simp] theorem State.modAcq_cpDiff (s : State) (f : Acq → Acq) : (s.modAcq f).cpDiff = s.cpDiff := rfl
@[simp] theorem State.modAcq_cpArmed (s : State) (f : Acq → Acq) : (s.modAcq f).cpArmed = s.cpArmed := rfl
@[simp] theorem State.modAcq_hiLatch (s : State) (f : Acq → Acq) : (s.modAcq f).hiLatch = s.hiLatch := rfl
@[simp] theorem State.modAcq_loHold (s : State) (f : Acq → Acq) : (s.modAcq f).loHold = s.loHold := rfl
@[simp] theorem State.modAcq_resp (s : State) (f : Acq → Acq) : (s.modAcq f).resp = s.resp := rfl
@[simp] theorem State.modAcq_mem (s : State) (f : Acq → Acq) : (s.modAcq f).mem = s.mem := rfl
@[simp] theorem State.modAcq_timers (s : State) (f : Acq → Acq) : (s.modAcq f).timers = s.timers := rfl
@[simp] theorem State.modAcq_perf (s : State) (f : Acq → Acq) : (s.modAcq f).perf = s.perf := rfl
@[simp] theorem State.modAcq_time (s : State) (f : Acq → Acq) : (s.modAcq f).time = s.time := rfl
@[simp] theorem State.modAcq_eth (s : State) (f : Acq → Acq) : (s.modAcq f).eth = s.eth := rfl
@[simp] theorem State.modAcq_tt (s : State) (f : Acq → Acq) : (s.modAcq f).tt = s.tt := rfl
@[simp] theorem State.modAcq_tow (s : State) (f : Acq → Acq) : (s.modAcq f).tow = s.tow := rfl
@[simp] theorem State.modAcq_mirror (s : State) (f : Acq → Acq) : (s.modAcq f).mirror = s.mirror := rfl
@[simp] theorem State.modAcq_le (s : State) (f : Acq → Acq) : (s.modAcq f).le = s.le := rfl
@[simp] theorem State.modAcq_link (s : State) (f : Acq → Acq) : (s.modAcq f).link = s.link := rfl
@[simp] theorem State.modAcq_ax (s : State) (f : Acq → Acq) : (s.modAcq f).ax = s.ax := rfl
@[simp] theorem State.modAcq_sdd (s : State) (f : Acq → Acq) : (s.modAcq f).sdd = s.sdd := rfl
@[simp] theorem State.modAcq_fb (s : State) (f : Acq → Acq) : (s.modAcq f).fb = s.fb := rfl
@[simp] theorem State.modAcq_psync (s : State) (f : Acq → Acq) : (s.modAcq f).psync = s.psync := rfl
@[simp] theorem State.modAcq_safe (s : State) (f : Acq → Acq) : (s.modAcq f).safe = s.safe := rfl
@[simp] theorem State.modAcq_fio (s : State) (f : Acq → Acq) : (s.modAcq f).fio = s.fio := rfl
@[simp] theorem State.modAcq_acq (s : State) (f : Acq → Acq) : (s.modAcq f).acq = f s.acq := rfl
@[simp] theorem State.modAcq_can (s : State) (f : Acq → Acq) : (s.modAcq f).can = s.can := rfl
@[simp] theorem State.modAcq_basin (s : State) (f : Acq → Acq) : (s.modAcq f).basin = s.basin := rfl
@[simp] theorem State.modAcq_fc (s : State) (f : Acq → Acq) : (s.modAcq f).fc = s.fc := rfl
@[simp] theorem State.modAcq_pwr (s : State) (f : Acq → Acq) : (s.modAcq f).pwr = s.pwr := rfl
@[simp] theorem State.modAcq_boot (s : State) (f : Acq → Acq) : (s.modAcq f).boot = s.boot := rfl
@[simp] theorem State.modAcq_sv (s : State) (f : Acq → Acq) : (s.modAcq f).sv = s.sv := rfl
@[simp] theorem State.modAcq_reg (s : State) (f : Acq → Acq) (k : Nat) : (s.modAcq f).reg k = s.reg k := rfl
@[simp] theorem State.modAcq_fld (s : State) (f : Acq → Acq) (k : Nat) (g : Fld) : (s.modAcq f).fld k g = s.fld k g := rfl
@[simp] theorem State.modAcq_flag (s : State) (f : Acq → Acq) (k : Nat) (g : Fld) : (s.modAcq f).flag k g = s.flag k g := rfl
@[simp] theorem State.modAcq_domOn (s : State) (f : Acq → Acq) (k : Nat) : (s.modAcq f).domOn k = s.domOn k := rfl
@[simp] theorem State.modAcq_mode (s : State) (f : Acq → Acq) : (s.modAcq f).mode = s.mode := rfl

/-! ### modTime -/

@[simp] theorem State.modTime_part (s : State) (f : TimeSt → TimeSt) : (s.modTime f).part = s.part := rfl
@[simp] theorem State.modTime_pending (s : State) (f : TimeSt → TimeSt) : (s.modTime f).pending = s.pending := rfl
@[simp] theorem State.modTime_clock (s : State) (f : TimeSt → TimeSt) : (s.modTime f).clock = s.clock := rfl
@[simp] theorem State.modTime_free (s : State) (f : TimeSt → TimeSt) : (s.modTime f).free = s.free := rfl
@[simp] theorem State.modTime_regs (s : State) (f : TimeSt → TimeSt) : (s.modTime f).regs = s.regs := rfl
@[simp] theorem State.modTime_cpDiff (s : State) (f : TimeSt → TimeSt) : (s.modTime f).cpDiff = s.cpDiff := rfl
@[simp] theorem State.modTime_cpArmed (s : State) (f : TimeSt → TimeSt) : (s.modTime f).cpArmed = s.cpArmed := rfl
@[simp] theorem State.modTime_hiLatch (s : State) (f : TimeSt → TimeSt) : (s.modTime f).hiLatch = s.hiLatch := rfl
@[simp] theorem State.modTime_loHold (s : State) (f : TimeSt → TimeSt) : (s.modTime f).loHold = s.loHold := rfl
@[simp] theorem State.modTime_resp (s : State) (f : TimeSt → TimeSt) : (s.modTime f).resp = s.resp := rfl
@[simp] theorem State.modTime_mem (s : State) (f : TimeSt → TimeSt) : (s.modTime f).mem = s.mem := rfl
@[simp] theorem State.modTime_timers (s : State) (f : TimeSt → TimeSt) : (s.modTime f).timers = s.timers := rfl
@[simp] theorem State.modTime_perf (s : State) (f : TimeSt → TimeSt) : (s.modTime f).perf = s.perf := rfl
@[simp] theorem State.modTime_time (s : State) (f : TimeSt → TimeSt) : (s.modTime f).time = f s.time := rfl
@[simp] theorem State.modTime_eth (s : State) (f : TimeSt → TimeSt) : (s.modTime f).eth = s.eth := rfl
@[simp] theorem State.modTime_tt (s : State) (f : TimeSt → TimeSt) : (s.modTime f).tt = s.tt := rfl
@[simp] theorem State.modTime_tow (s : State) (f : TimeSt → TimeSt) : (s.modTime f).tow = s.tow := rfl
@[simp] theorem State.modTime_mirror (s : State) (f : TimeSt → TimeSt) : (s.modTime f).mirror = s.mirror := rfl
@[simp] theorem State.modTime_le (s : State) (f : TimeSt → TimeSt) : (s.modTime f).le = s.le := rfl
@[simp] theorem State.modTime_link (s : State) (f : TimeSt → TimeSt) : (s.modTime f).link = s.link := rfl
@[simp] theorem State.modTime_ax (s : State) (f : TimeSt → TimeSt) : (s.modTime f).ax = s.ax := rfl
@[simp] theorem State.modTime_sdd (s : State) (f : TimeSt → TimeSt) : (s.modTime f).sdd = s.sdd := rfl
@[simp] theorem State.modTime_fb (s : State) (f : TimeSt → TimeSt) : (s.modTime f).fb = s.fb := rfl
@[simp] theorem State.modTime_psync (s : State) (f : TimeSt → TimeSt) : (s.modTime f).psync = s.psync := rfl
@[simp] theorem State.modTime_safe (s : State) (f : TimeSt → TimeSt) : (s.modTime f).safe = s.safe := rfl
@[simp] theorem State.modTime_fio (s : State) (f : TimeSt → TimeSt) : (s.modTime f).fio = s.fio := rfl
@[simp] theorem State.modTime_acq (s : State) (f : TimeSt → TimeSt) : (s.modTime f).acq = s.acq := rfl
@[simp] theorem State.modTime_can (s : State) (f : TimeSt → TimeSt) : (s.modTime f).can = s.can := rfl
@[simp] theorem State.modTime_basin (s : State) (f : TimeSt → TimeSt) : (s.modTime f).basin = s.basin := rfl
@[simp] theorem State.modTime_fc (s : State) (f : TimeSt → TimeSt) : (s.modTime f).fc = s.fc := rfl
@[simp] theorem State.modTime_pwr (s : State) (f : TimeSt → TimeSt) : (s.modTime f).pwr = s.pwr := rfl
@[simp] theorem State.modTime_boot (s : State) (f : TimeSt → TimeSt) : (s.modTime f).boot = s.boot := rfl
@[simp] theorem State.modTime_sv (s : State) (f : TimeSt → TimeSt) : (s.modTime f).sv = s.sv := rfl
@[simp] theorem State.modTime_reg (s : State) (f : TimeSt → TimeSt) (k : Nat) : (s.modTime f).reg k = s.reg k := rfl
@[simp] theorem State.modTime_fld (s : State) (f : TimeSt → TimeSt) (k : Nat) (g : Fld) : (s.modTime f).fld k g = s.fld k g := rfl
@[simp] theorem State.modTime_flag (s : State) (f : TimeSt → TimeSt) (k : Nat) (g : Fld) : (s.modTime f).flag k g = s.flag k g := rfl
@[simp] theorem State.modTime_domOn (s : State) (f : TimeSt → TimeSt) (k : Nat) : (s.modTime f).domOn k = s.domOn k := rfl
@[simp] theorem State.modTime_mode (s : State) (f : TimeSt → TimeSt) : (s.modTime f).mode = s.mode := rfl

/-! ### useFree -/

@[simp] theorem State.useFree_part (s : State) : (s.useFree).part = s.part := rfl
@[simp] theorem State.useFree_pending (s : State) : (s.useFree).pending = s.pending := rfl
@[simp] theorem State.useFree_clock (s : State) : (s.useFree).clock = s.clock := rfl
@[simp] theorem State.useFree_free (s : State) : (s.useFree).free = s.free + 1 := rfl
@[simp] theorem State.useFree_regs (s : State) : (s.useFree).regs = s.regs := rfl
@[simp] theorem State.useFree_cpDiff (s : State) : (s.useFree).cpDiff = s.cpDiff := rfl
@[simp] theorem State.useFree_cpArmed (s : State) : (s.useFree).cpArmed = s.cpArmed := rfl
@[simp] theorem State.useFree_hiLatch (s : State) : (s.useFree).hiLatch = s.hiLatch := rfl
@[simp] theorem State.useFree_loHold (s : State) : (s.useFree).loHold = s.loHold := rfl
@[simp] theorem State.useFree_resp (s : State) : (s.useFree).resp = s.resp := rfl
@[simp] theorem State.useFree_mem (s : State) : (s.useFree).mem = s.mem := rfl
@[simp] theorem State.useFree_timers (s : State) : (s.useFree).timers = s.timers := rfl
@[simp] theorem State.useFree_perf (s : State) : (s.useFree).perf = s.perf := rfl
@[simp] theorem State.useFree_time (s : State) : (s.useFree).time = s.time := rfl
@[simp] theorem State.useFree_eth (s : State) : (s.useFree).eth = s.eth := rfl
@[simp] theorem State.useFree_tt (s : State) : (s.useFree).tt = s.tt := rfl
@[simp] theorem State.useFree_tow (s : State) : (s.useFree).tow = s.tow := rfl
@[simp] theorem State.useFree_mirror (s : State) : (s.useFree).mirror = s.mirror := rfl
@[simp] theorem State.useFree_le (s : State) : (s.useFree).le = s.le := rfl
@[simp] theorem State.useFree_link (s : State) : (s.useFree).link = s.link := rfl
@[simp] theorem State.useFree_ax (s : State) : (s.useFree).ax = s.ax := rfl
@[simp] theorem State.useFree_sdd (s : State) : (s.useFree).sdd = s.sdd := rfl
@[simp] theorem State.useFree_fb (s : State) : (s.useFree).fb = s.fb := rfl
@[simp] theorem State.useFree_psync (s : State) : (s.useFree).psync = s.psync := rfl
@[simp] theorem State.useFree_safe (s : State) : (s.useFree).safe = s.safe := rfl
@[simp] theorem State.useFree_fio (s : State) : (s.useFree).fio = s.fio := rfl
@[simp] theorem State.useFree_acq (s : State) : (s.useFree).acq = s.acq := rfl
@[simp] theorem State.useFree_can (s : State) : (s.useFree).can = s.can := rfl
@[simp] theorem State.useFree_basin (s : State) : (s.useFree).basin = s.basin := rfl
@[simp] theorem State.useFree_fc (s : State) : (s.useFree).fc = s.fc := rfl
@[simp] theorem State.useFree_pwr (s : State) : (s.useFree).pwr = s.pwr := rfl
@[simp] theorem State.useFree_boot (s : State) : (s.useFree).boot = s.boot := rfl
@[simp] theorem State.useFree_sv (s : State) : (s.useFree).sv = s.sv := rfl
@[simp] theorem State.useFree_reg (s : State) (k : Nat) : (s.useFree).reg k = s.reg k := rfl
@[simp] theorem State.useFree_fld (s : State) (k : Nat) (g : Fld) : (s.useFree).fld k g = s.fld k g := rfl
@[simp] theorem State.useFree_flag (s : State) (k : Nat) (g : Fld) : (s.useFree).flag k g = s.flag k g := rfl
@[simp] theorem State.useFree_domOn (s : State) (k : Nat) : (s.useFree).domOn k = s.domOn k := rfl
@[simp] theorem State.useFree_mode (s : State) : (s.useFree).mode = s.mode := rfl

/-! ### startTimer -/

@[simp] theorem State.startTimer_part (s : State) (i : TimerId) (d : Nat) : (s.startTimer i d).part = s.part := rfl
@[simp] theorem State.startTimer_pending (s : State) (i : TimerId) (d : Nat) : (s.startTimer i d).pending = s.pending := rfl
@[simp] theorem State.startTimer_clock (s : State) (i : TimerId) (d : Nat) : (s.startTimer i d).clock = s.clock := rfl
@[simp] theorem State.startTimer_free (s : State) (i : TimerId) (d : Nat) : (s.startTimer i d).free = s.free := rfl
@[simp] theorem State.startTimer_regs (s : State) (i : TimerId) (d : Nat) : (s.startTimer i d).regs = s.regs := rfl
@[simp] theorem State.startTimer_cpDiff (s : State) (i : TimerId) (d : Nat) : (s.startTimer i d).cpDiff = s.cpDiff := rfl
@[simp] theorem State.startTimer_cpArmed (s : State) (i : TimerId) (d : Nat) : (s.startTimer i d).cpArmed = s.cpArmed := rfl
@[simp] theorem State.startTimer_hiLatch (s : State) (i : TimerId) (d : Nat) : (s.startTimer i d).hiLatch = s.hiLatch := rfl
@[simp] theorem State.startTimer_loHold (s : State) (i : TimerId) (d : Nat) : (s.startTimer i d).loHold = s.loHold := rfl
@[simp] theorem State.startTimer_resp (s : State) (i : TimerId) (d : Nat) : (s.startTimer i d).resp = s.resp := rfl
@[simp] theorem State.startTimer_mem (s : State) (i : TimerId) (d : Nat) : (s.startTimer i d).mem = s.mem := rfl
@[simp] theorem State.startTimer_perf (s : State) (i : TimerId) (d : Nat) : (s.startTimer i d).perf = s.perf := rfl
@[simp] theorem State.startTimer_time (s : State) (i : TimerId) (d : Nat) : (s.startTimer i d).time = s.time := rfl
@[simp] theorem State.startTimer_eth (s : State) (i : TimerId) (d : Nat) : (s.startTimer i d).eth = s.eth := rfl
@[simp] theorem State.startTimer_tt (s : State) (i : TimerId) (d : Nat) : (s.startTimer i d).tt = s.tt := rfl
@[simp] theorem State.startTimer_tow (s : State) (i : TimerId) (d : Nat) : (s.startTimer i d).tow = s.tow := rfl
@[simp] theorem State.startTimer_mirror (s : State) (i : TimerId) (d : Nat) : (s.startTimer i d).mirror = s.mirror := rfl
@[simp] theorem State.startTimer_le (s : State) (i : TimerId) (d : Nat) : (s.startTimer i d).le = s.le := rfl
@[simp] theorem State.startTimer_link (s : State) (i : TimerId) (d : Nat) : (s.startTimer i d).link = s.link := rfl
@[simp] theorem State.startTimer_ax (s : State) (i : TimerId) (d : Nat) : (s.startTimer i d).ax = s.ax := rfl
@[simp] theorem State.startTimer_sdd (s : State) (i : TimerId) (d : Nat) : (s.startTimer i d).sdd = s.sdd := rfl
@[simp] theorem State.startTimer_fb (s : State) (i : TimerId) (d : Nat) : (s.startTimer i d).fb = s.fb := rfl
@[simp] theorem State.startTimer_psync (s : State) (i : TimerId) (d : Nat) : (s.startTimer i d).psync = s.psync := rfl
@[simp] theorem State.startTimer_safe (s : State) (i : TimerId) (d : Nat) : (s.startTimer i d).safe = s.safe := rfl
@[simp] theorem State.startTimer_fio (s : State) (i : TimerId) (d : Nat) : (s.startTimer i d).fio = s.fio := rfl
@[simp] theorem State.startTimer_acq (s : State) (i : TimerId) (d : Nat) : (s.startTimer i d).acq = s.acq := rfl
@[simp] theorem State.startTimer_can (s : State) (i : TimerId) (d : Nat) : (s.startTimer i d).can = s.can := rfl
@[simp] theorem State.startTimer_basin (s : State) (i : TimerId) (d : Nat) : (s.startTimer i d).basin = s.basin := rfl
@[simp] theorem State.startTimer_fc (s : State) (i : TimerId) (d : Nat) : (s.startTimer i d).fc = s.fc := rfl
@[simp] theorem State.startTimer_pwr (s : State) (i : TimerId) (d : Nat) : (s.startTimer i d).pwr = s.pwr := rfl
@[simp] theorem State.startTimer_boot (s : State) (i : TimerId) (d : Nat) : (s.startTimer i d).boot = s.boot := rfl
@[simp] theorem State.startTimer_sv (s : State) (i : TimerId) (d : Nat) : (s.startTimer i d).sv = s.sv := rfl
@[simp] theorem State.startTimer_reg (s : State) (i : TimerId) (d : Nat) (k : Nat) : (s.startTimer i d).reg k = s.reg k := rfl
@[simp] theorem State.startTimer_fld (s : State) (i : TimerId) (d : Nat) (k : Nat) (g : Fld) : (s.startTimer i d).fld k g = s.fld k g := rfl
@[simp] theorem State.startTimer_flag (s : State) (i : TimerId) (d : Nat) (k : Nat) (g : Fld) : (s.startTimer i d).flag k g = s.flag k g := rfl
@[simp] theorem State.startTimer_domOn (s : State) (i : TimerId) (d : Nat) (k : Nat) : (s.startTimer i d).domOn k = s.domOn k := rfl
@[simp] theorem State.startTimer_mode (s : State) (i : TimerId) (d : Nat) : (s.startTimer i d).mode = s.mode := rfl

/-! ### stopTimer -/

@[simp] theorem State.stopTimer_part (s : State) (i : TimerId) : (s.stopTimer i).part = s.part := rfl
@[simp] theorem State.stopTimer_pending (s : State) (i : TimerId) : (s.stopTimer i).pending = s.pending := rfl
@[simp] theorem State.stopTimer_clock (s : State) (i : TimerId) : (s.stopTimer i).clock = s.clock := rfl
@[simp] theorem State.stopTimer_free (s : State) (i : TimerId) : (s.stopTimer i).free = s.free := rfl
@[simp] theorem State.stopTimer_regs (s : State) (i : TimerId) : (s.stopTimer i).regs = s.regs := rfl
@[simp] theorem State.stopTimer_cpDiff (s : State) (i : TimerId) : (s.stopTimer i).cpDiff = s.cpDiff := rfl
@[simp] theorem State.stopTimer_cpArmed (s : State) (i : TimerId) : (s.stopTimer i).cpArmed = s.cpArmed := rfl
@[simp] theorem State.stopTimer_hiLatch (s : State) (i : TimerId) : (s.stopTimer i).hiLatch = s.hiLatch := rfl
@[simp] theorem State.stopTimer_loHold (s : State) (i : TimerId) : (s.stopTimer i).loHold = s.loHold := rfl
@[simp] theorem State.stopTimer_resp (s : State) (i : TimerId) : (s.stopTimer i).resp = s.resp := rfl
@[simp] theorem State.stopTimer_mem (s : State) (i : TimerId) : (s.stopTimer i).mem = s.mem := rfl
@[simp] theorem State.stopTimer_perf (s : State) (i : TimerId) : (s.stopTimer i).perf = s.perf := rfl
@[simp] theorem State.stopTimer_time (s : State) (i : TimerId) : (s.stopTimer i).time = s.time := rfl
@[simp] theorem State.stopTimer_eth (s : State) (i : TimerId) : (s.stopTimer i).eth = s.eth := rfl
@[simp] theorem State.stopTimer_tt (s : State) (i : TimerId) : (s.stopTimer i).tt = s.tt := rfl
@[simp] theorem State.stopTimer_tow (s : State) (i : TimerId) : (s.stopTimer i).tow = s.tow := rfl
@[simp] theorem State.stopTimer_mirror (s : State) (i : TimerId) : (s.stopTimer i).mirror = s.mirror := rfl
@[simp] theorem State.stopTimer_le (s : State) (i : TimerId) : (s.stopTimer i).le = s.le := rfl
@[simp] theorem State.stopTimer_link (s : State) (i : TimerId) : (s.stopTimer i).link = s.link := rfl
@[simp] theorem State.stopTimer_ax (s : State) (i : TimerId) : (s.stopTimer i).ax = s.ax := rfl
@[simp] theorem State.stopTimer_sdd (s : State) (i : TimerId) : (s.stopTimer i).sdd = s.sdd := rfl
@[simp] theorem State.stopTimer_fb (s : State) (i : TimerId) : (s.stopTimer i).fb = s.fb := rfl
@[simp] theorem State.stopTimer_psync (s : State) (i : TimerId) : (s.stopTimer i).psync = s.psync := rfl
@[simp] theorem State.stopTimer_safe (s : State) (i : TimerId) : (s.stopTimer i).safe = s.safe := rfl
@[simp] theorem State.stopTimer_fio (s : State) (i : TimerId) : (s.stopTimer i).fio = s.fio := rfl
@[simp] theorem State.stopTimer_acq (s : State) (i : TimerId) : (s.stopTimer i).acq = s.acq := rfl
@[simp] theorem State.stopTimer_can (s : State) (i : TimerId) : (s.stopTimer i).can = s.can := rfl
@[simp] theorem State.stopTimer_basin (s : State) (i : TimerId) : (s.stopTimer i).basin = s.basin := rfl
@[simp] theorem State.stopTimer_fc (s : State) (i : TimerId) : (s.stopTimer i).fc = s.fc := rfl
@[simp] theorem State.stopTimer_pwr (s : State) (i : TimerId) : (s.stopTimer i).pwr = s.pwr := rfl
@[simp] theorem State.stopTimer_boot (s : State) (i : TimerId) : (s.stopTimer i).boot = s.boot := rfl
@[simp] theorem State.stopTimer_sv (s : State) (i : TimerId) : (s.stopTimer i).sv = s.sv := rfl
@[simp] theorem State.stopTimer_reg (s : State) (i : TimerId) (k : Nat) : (s.stopTimer i).reg k = s.reg k := rfl
@[simp] theorem State.stopTimer_fld (s : State) (i : TimerId) (k : Nat) (g : Fld) : (s.stopTimer i).fld k g = s.fld k g := rfl
@[simp] theorem State.stopTimer_flag (s : State) (i : TimerId) (k : Nat) (g : Fld) : (s.stopTimer i).flag k g = s.flag k g := rfl
@[simp] theorem State.stopTimer_domOn (s : State) (i : TimerId) (k : Nat) : (s.stopTimer i).domOn k = s.domOn k := rfl
@[simp] theorem State.stopTimer_mode (s : State) (i : TimerId) : (s.stopTimer i).mode = s.mode := rfl

/-! ### count -/

@[simp] theorem State.count_part (s : State) (u e m : Nat) : (s.count u e m).part = s.part := rfl
@[simp] theorem State.count_pending (s : State) (u e m : Nat) : (s.count u e m).pending = s.pending := rfl
@[simp] theorem State.count_clock (s : State) (u e m : Nat) : (s.count u e m).clock = s.clock := rfl
@[simp] theorem State.count_free (s : State) (u e m : Nat) : (s.count u e m).free = s.free := rfl
@[simp] theorem State.count_regs (s : State) (u e m : Nat) : (s.count u e m).regs = s.regs := rfl
@[simp] theorem State.count_cpDiff (s : State) (u e m : Nat) : (s.count u e m).cpDiff = s.cpDiff := rfl
@[simp] theorem State.count_cpArmed (s : State) (u e m : Nat) : (s.count u e m).cpArmed = s.cpArmed := rfl
@[simp] theorem State.count_hiLatch (s : State) (u e m : Nat) : (s.count u e m).hiLatch = s.hiLatch := rfl
@[simp] theorem State.count_loHold (s : State) (u e m : Nat) : (s.count u e m).loHold = s.loHold := rfl
@[simp] theorem State.count_resp (s : State) (u e m : Nat) : (s.count u e m).resp = s.resp := rfl
@[simp] theorem State.count_mem (s : State) (u e m : Nat) : (s.count u e m).mem = s.mem := rfl
@[simp] theorem State.count_timers (s : State) (u e m : Nat) : (s.count u e m).timers = s.timers := rfl
@[simp] theorem State.count_time (s : State) (u e m : Nat) : (s.count u e m).time = s.time := rfl
@[simp] theorem State.count_eth (s : State) (u e m : Nat) : (s.count u e m).eth = s.eth := rfl
@[simp] theorem State.count_tt (s : State) (u e m : Nat) : (s.count u e m).tt = s.tt := rfl
@[simp] theorem State.count_tow (s : State) (u e m : Nat) : (s.count u e m).tow = s.tow := rfl
@[simp] theorem State.count_mirror (s : State) (u e m : Nat) : (s.count u e m).mirror = s.mirror := rfl
@[simp] theorem State.count_le (s : State) (u e m : Nat) : (s.count u e m).le = s.le := rfl
@[simp] theorem State.count_link (s : State) (u e m : Nat) : (s.count u e m).link = s.link := rfl
@[simp] theorem State.count_ax (s : State) (u e m : Nat) : (s.count u e m).ax = s.ax := rfl
@[simp] theorem State.count_sdd (s : State) (u e m : Nat) : (s.count u e m).sdd = s.sdd := rfl
@[simp] theorem State.count_fb (s : State) (u e m : Nat) : (s.count u e m).fb = s.fb := rfl
@[simp] theorem State.count_psync (s : State) (u e m : Nat) : (s.count u e m).psync = s.psync := rfl
@[simp] theorem State.count_safe (s : State) (u e m : Nat) : (s.count u e m).safe = s.safe := rfl
@[simp] theorem State.count_fio (s : State) (u e m : Nat) : (s.count u e m).fio = s.fio := rfl
@[simp] theorem State.count_acq (s : State) (u e m : Nat) : (s.count u e m).acq = s.acq := rfl
@[simp] theorem State.count_can (s : State) (u e m : Nat) : (s.count u e m).can = s.can := rfl
@[simp] theorem State.count_basin (s : State) (u e m : Nat) : (s.count u e m).basin = s.basin := rfl
@[simp] theorem State.count_fc (s : State) (u e m : Nat) : (s.count u e m).fc = s.fc := rfl
@[simp] theorem State.count_pwr (s : State) (u e m : Nat) : (s.count u e m).pwr = s.pwr := rfl
@[simp] theorem State.count_boot (s : State) (u e m : Nat) : (s.count u e m).boot = s.boot := rfl
@[simp] theorem State.count_sv (s : State) (u e m : Nat) : (s.count u e m).sv = s.sv := rfl
@[simp] theorem State.count_reg (s : State) (u e m : Nat) (k : Nat) : (s.count u e m).reg k = s.reg k := rfl
@[simp] theorem State.count_fld (s : State) (u e m : Nat) (k : Nat) (g : Fld) : (s.count u e m).fld k g = s.fld k g := rfl
@[simp] theorem State.count_flag (s : State) (u e m : Nat) (k : Nat) (g : Fld) : (s.count u e m).flag k g = s.flag k g := rfl
@[simp] theorem State.count_domOn (s : State) (u e m : Nat) (k : Nat) : (s.count u e m).domOn k = s.domOn k := rfl
@[simp] theorem State.count_mode (s : State) (u e m : Nat) : (s.count u e m).mode = s.mode := rfl

/-! ### Registers -/

/-- A register just written reads back. -/
@[simp] theorem State.reg_setReg_same (s : State) (a : Nat) (w : Word) : (s.setReg a w).reg a = w :=
  Tbl.get_put_same _ _ _ _

/-- Another register keeps its word. -/
theorem State.reg_setReg_other (s : State) {a b : Nat} (w : Word) (h : b ≠ a) : (s.setReg a w).reg b = s.reg b :=
  Tbl.get_put_other _ _ _ _ h

theorem State.reg_setReg (s : State) (a b : Nat) (w : Word) : (s.setReg a w).reg b = if b = a then w else s.reg b := by
  split
  · rename_i h; subst h; simp
  · rename_i h; exact State.reg_setReg_other s w h

@[simp] theorem State.reg_setFld_same (s : State) (a : Nat) (f : Fld) (v : Nat) : (s.setFld a f v).reg a = fset (s.reg a) f v :=
  State.reg_setReg_same s a _

theorem State.reg_setFld_other (s : State) {a b : Nat} (f : Fld) (v : Nat) (h : b ≠ a) : (s.setFld a f v).reg b = s.reg b :=
  State.reg_setReg_other s _ h

theorem State.reg_incFld_other (s : State) {a b : Nat} (f : Fld) (h : b ≠ a) : (s.incFld a f).reg b = s.reg b :=
  State.reg_setFld_other s f _ h

@[simp] theorem State.fld_setReg_same (s : State) (a : Nat) (w : Word) (g : Fld) : (s.setReg a w).fld a g = fget w g := by
  simp [State.fld]

theorem State.fld_setReg_other (s : State) {a b : Nat} (w : Word) (g : Fld) (h : b ≠ a) :
    (s.setReg a w).fld b g = s.fld b g := by
  simp [State.fld, State.reg_setReg_other s w h]

/-- A field just written reads back, cut to its width. -/
theorem State.fld_setFld_same (s : State) (a : Nat) (f : Fld) (v : Nat) (h1 : f.lo ≤ f.hi) (h2 : f.hi < 32) :
    (s.setFld a f v).fld a f = v % 2 ^ (f.hi + 1 - f.lo) := by
  simp [State.fld, fget_fset_same _ f v h1 h2]

/-- Another field of the register keeps its value. -/
theorem State.fld_setFld_field (s : State) (a : Nat) (f g : Fld) (v : Nat) (h1 : f.lo ≤ f.hi) (h2 : f.hi < 32)
    (h : g.hi < f.lo ∨ f.hi < g.lo) : (s.setFld a f v).fld a g = s.fld a g := by
  simp [State.fld, fget_fset_other _ f g v h1 h2 h]

/-- A field of another register keeps its value. -/
theorem State.fld_setFld_other (s : State) {a b : Nat} (f g : Fld) (v : Nat) (h : b ≠ a) :
    (s.setFld a f v).fld b g = s.fld b g := by
  simp [State.fld, State.reg_setFld_other s f v h]

/-! ### Instances -/

theorem vget_setIfInBounds_same {α : Type} {k : Nat} (v : Vector α k) (d : α) {n : Nat} (x : α) (h : n < k) :
    vget (v.setIfInBounds n x) d n = x := by
  simp [vget, h]

theorem vget_setIfInBounds_other {α : Type} {k : Nat} (v : Vector α k) (d : α) {m n : Nat} (x : α) (h : m ≠ n) :
    vget (v.setIfInBounds n x) d m = vget v d m := by
  simp [vget, Vector.getElem?_setIfInBounds_ne (Ne.symm h)]

theorem State.axAt_setAx_same (s : State) {n : Nat} (x : Ax) (h : n < 48) : (s.setAx n x).axAt n = x :=
  vget_setIfInBounds_same _ _ x h

theorem State.axAt_setAx_other (s : State) {m n : Nat} (x : Ax) (h : m ≠ n) : (s.setAx n x).axAt m = s.axAt m :=
  vget_setIfInBounds_other _ _ x h

theorem State.leAt_setLe_same (s : State) {n : Nat} (x : Le) (h : n < 12) : (s.setLe n x).leAt n = x :=
  vget_setIfInBounds_same _ _ x h

theorem State.leAt_setLe_other (s : State) {m n : Nat} (x : Le) (h : m ≠ n) : (s.setLe n x).leAt m = s.leAt m :=
  vget_setIfInBounds_other _ _ x h

theorem State.sddAt_setSdd_same (s : State) {n : Nat} (x : Sdd) (h : n < 12) : (s.setSdd n x).sddAt n = x :=
  vget_setIfInBounds_same _ _ x h

theorem State.sddAt_setSdd_other (s : State) {m n : Nat} (x : Sdd) (h : m ≠ n) : (s.setSdd n x).sddAt m = s.sddAt m :=
  vget_setIfInBounds_other _ _ x h

theorem State.linkAt_setLink_same (s : State) {n : Nat} (x : DieLink) (h : n < 12) : (s.setLink n x).linkAt n = x :=
  vget_setIfInBounds_same _ _ x h

theorem State.linkAt_setLink_other (s : State) {m n : Nat} (x : DieLink) (h : m ≠ n) : (s.setLink n x).linkAt m = s.linkAt m :=
  vget_setIfInBounds_other _ _ x h

theorem State.svAt_setSv_same (s : State) {n : Nat} (x : Sv) (h : n < 2) : (s.setSv n x).svAt n = x :=
  vget_setIfInBounds_same _ _ x h

theorem State.svAt_setSv_other (s : State) {m n : Nat} (x : Sv) (h : m ≠ n) : (s.setSv n x).svAt m = s.svAt m :=
  vget_setIfInBounds_other _ _ x h

theorem State.fbAt_setFb_same (s : State) {n : Nat} (x : Fb) (h : n < 48) : (s.setFb n x).fbAt n = x :=
  vget_setIfInBounds_same _ _ x h

theorem State.fbAt_setFb_other (s : State) {m n : Nat} (x : Fb) (h : m ≠ n) : (s.setFb n x).fbAt m = s.fbAt m :=
  vget_setIfInBounds_other _ _ x h

/-! ### Counters -/

theorem State.count_perf_other (s : State) (u e k : Nat) {a : Nat} (h : a ≠ 256 * u + e) :
    Tbl.get 0 (s.count u e k).perf a = Tbl.get 0 s.perf a :=
  Tbl.get_put_other _ _ _ _ h

theorem State.count_perf_same (s : State) (u e k : Nat) :
    Tbl.get 0 (s.count u e k).perf (256 * u + e) =
      if Tbl.get 0 s.perf (256 * u + e) + k < 2 ^ 48 then Tbl.get 0 s.perf (256 * u + e) + k else 2 ^ 48 - 1 := by
  simp only [State.count, Tbl.get_put_same]

end Sys2Proof.Machine
end

