-- ==== Sys2Proof/Laws/Reports.lean ====
section
/-! SUPPORT. What an interrupt pulse and a report to the fault collector leave as it was. -/

namespace Sys2Proof.Machine
open Sys2Proof.Machine.Reg

/-- What holds through every application holds at the end. -/
theorem State.each_inv {P : State → Prop} {f : State → Nat → State} (hf : ∀ s k, P s → P (f s k)) (n : Nat) (s : State) (h : P s) :
    P (s.each n f) := by
  unfold State.each
  generalize List.range n = l
  induction l generalizing s with
  | nil => exact h
  | cons k l ih => exact ih _ (hf s k h)

theorem foldl_inv {α : Type} {P : State → Prop} {f : State → α → State} (hf : ∀ s e, P s → P (f s e)) (l : List α) (s : State)
    (h : P s) : P (l.foldl f s) := by
  induction l generalizing s with
  | nil => exact h
  | cons k l ih => exact ih _ (hf s k h)

/-- The two states differ in the interrupt controllers at most. -/
def IrqOnly (s t : State) : Prop := t = { s with sv := t.sv }

theorem State.irqPulse_irqOnly (s : State) (n : Nat) : IrqOnly s (s.irqPulse n) := by
  refine State.each_inv (P := IrqOnly s) (fun t k h => ?_) 2 s rfl
  dsimp only
  split
  · unfold IrqOnly at *; rw [h]; rfl
  · exact h

@[simp] theorem State.irqPulse_part (s : State) (n : Nat) : (s.irqPulse n).part = s.part := by rw [s.irqPulse_irqOnly n]
@[simp] theorem State.irqPulse_pending (s : State) (n : Nat) : (s.irqPulse n).pending = s.pending := by rw [s.irqPulse_irqOnly n]
@[simp] theorem State.irqPulse_clock (s : State) (n : Nat) : (s.irqPulse n).clock = s.clock := by rw [s.irqPulse_irqOnly n]
@[simp] theorem State.irqPulse_free (s : State) (n : Nat) : (s.irqPulse n).free = s.free := by rw [s.irqPulse_irqOnly n]
@[simp] theorem State.irqPulse_regs (s : State) (n : Nat) : (s.irqPulse n).regs = s.regs := by rw [s.irqPulse_irqOnly n]
@[simp] theorem State.irqPulse_cpDiff (s : State) (n : Nat) : (s.irqPulse n).cpDiff = s.cpDiff := by rw [s.irqPulse_irqOnly n]
@[simp] theorem State.irqPulse_cpArmed (s : State) (n : Nat) : (s.irqPulse n).cpArmed = s.cpArmed := by rw [s.irqPulse_irqOnly n]
@[simp] theorem State.irqPulse_hiLatch (s : State) (n : Nat) : (s.irqPulse n).hiLatch = s.hiLatch := by rw [s.irqPulse_irqOnly n]
@[simp] theorem State.irqPulse_loHold (s : State) (n : Nat) : (s.irqPulse n).loHold = s.loHold := by rw [s.irqPulse_irqOnly n]
@[simp] theorem State.irqPulse_resp (s : State) (n : Nat) : (s.irqPulse n).resp = s.resp := by rw [s.irqPulse_irqOnly n]
@[simp] theorem State.irqPulse_mem (s : State) (n : Nat) : (s.irqPulse n).mem = s.mem := by rw [s.irqPulse_irqOnly n]
@[simp] theorem State.irqPulse_timers (s : State) (n : Nat) : (s.irqPulse n).timers = s.timers := by rw [s.irqPulse_irqOnly n]
@[simp] theorem State.irqPulse_perf (s : State) (n : Nat) : (s.irqPulse n).perf = s.perf := by rw [s.irqPulse_irqOnly n]
@[simp] theorem State.irqPulse_time (s : State) (n : Nat) : (s.irqPulse n).time = s.time := by rw [s.irqPulse_irqOnly n]
@[simp] theorem State.irqPulse_eth (s : State) (n : Nat) : (s.irqPulse n).eth = s.eth := by rw [s.irqPulse_irqOnly n]
@[simp] theorem State.irqPulse_tt (s : State) (n : Nat) : (s.irqPulse n).tt = s.tt := by rw [s.irqPulse_irqOnly n]
@[simp] theorem State.irqPulse_tow (s : State) (n : Nat) : (s.irqPulse n).tow = s.tow := by rw [s.irqPulse_irqOnly n]
@[simp] theorem State.irqPulse_mirror (s : State) (n : Nat) : (s.irqPulse n).mirror = s.mirror := by rw [s.irqPulse_irqOnly n]
@[simp] theorem State.irqPulse_le (s : State) (n : Nat) : (s.irqPulse n).le = s.le := by rw [s.irqPulse_irqOnly n]
@[simp] theorem State.irqPulse_link (s : State) (n : Nat) : (s.irqPulse n).link = s.link := by rw [s.irqPulse_irqOnly n]
@[simp] theorem State.irqPulse_ax (s : State) (n : Nat) : (s.irqPulse n).ax = s.ax := by rw [s.irqPulse_irqOnly n]
@[simp] theorem State.irqPulse_sdd (s : State) (n : Nat) : (s.irqPulse n).sdd = s.sdd := by rw [s.irqPulse_irqOnly n]
@[simp] theorem State.irqPulse_fb (s : State) (n : Nat) : (s.irqPulse n).fb = s.fb := by rw [s.irqPulse_irqOnly n]
@[simp] theorem State.irqPulse_psync (s : State) (n : Nat) : (s.irqPulse n).psync = s.psync := by rw [s.irqPulse_irqOnly n]
@[simp] theorem State.irqPulse_safe (s : State) (n : Nat) : (s.irqPulse n).safe = s.safe := by rw [s.irqPulse_irqOnly n]
@[simp] theorem State.irqPulse_fio (s : State) (n : Nat) : (s.irqPulse n).fio = s.fio := by rw [s.irqPulse_irqOnly n]
@[simp] theorem State.irqPulse_acq (s : State) (n : Nat) : (s.irqPulse n).acq = s.acq := by rw [s.irqPulse_irqOnly n]
@[simp] theorem State.irqPulse_can (s : State) (n : Nat) : (s.irqPulse n).can = s.can := by rw [s.irqPulse_irqOnly n]
@[simp] theorem State.irqPulse_basin (s : State) (n : Nat) : (s.irqPulse n).basin = s.basin := by rw [s.irqPulse_irqOnly n]
@[simp] theorem State.irqPulse_fc (s : State) (n : Nat) : (s.irqPulse n).fc = s.fc := by rw [s.irqPulse_irqOnly n]
@[simp] theorem State.irqPulse_pwr (s : State) (n : Nat) : (s.irqPulse n).pwr = s.pwr := by rw [s.irqPulse_irqOnly n]
@[simp] theorem State.irqPulse_boot (s : State) (n : Nat) : (s.irqPulse n).boot = s.boot := by rw [s.irqPulse_irqOnly n]

@[simp] theorem State.irqPulse_reg (s : State) (n a : Nat) : (s.irqPulse n).reg a = s.reg a := by simp [State.reg]
@[simp] theorem State.irqPulse_fld (s : State) (n a : Nat) (f : Fld) : (s.irqPulse n).fld a f = s.fld a f := by simp [State.fld]
@[simp] theorem State.irqPulse_flag (s : State) (n a : Nat) (f : Fld) : (s.irqPulse n).flag a f = s.flag a f := by simp [State.flag]

/-! ### Reports that only log -/

/-- The two states differ in the registers of the fault collector, the collector and the interrupt controllers at most. -/
structure FcOnly (s t : State) : Prop where
  eq  : t = { s with regs := t.regs, fc := t.fc, sv := t.sv }
  reg : ∀ a, a / 0x10000 ≠ 0x4001 → t.reg a = s.reg a

theorem FcOnly.refl (s : State) : FcOnly s s := ⟨rfl, fun _ _ => rfl⟩

theorem FcOnly.part {s t : State} (h : FcOnly s t) : t.part = s.part := by rw [h.eq]

/-- A further change within the three. -/
theorem FcOnly.of_eq {s t u : State} (h : FcOnly s t) (e : u = { t with regs := u.regs, fc := u.fc, sv := u.sv })
    (r : ∀ a, a / 0x10000 ≠ 0x4001 → u.reg a = t.reg a) : FcOnly s u := by
  refine ⟨?_, fun a ha => (r a ha).trans (h.reg a ha)⟩
  have h' := h.eq
  rw [h'] at e
  exact e

theorem FcOnly.setReg {s t : State} (h : FcOnly s t) {a : Nat} {w : Word} (ha : a / 0x10000 = 0x4001) : FcOnly s (t.setReg a w) :=
  h.of_eq rfl fun b hb => State.reg_setReg_other t w (fun e => hb (by rw [e]; exact ha))

theorem FcOnly.setFld {s t : State} (h : FcOnly s t) {a : Nat} {f : Fld} {v : Nat} (ha : a / 0x10000 = 0x4001) :
    FcOnly s (t.setFld a f v) := h.setReg ha

theorem FcOnly.incFld {s t : State} (h : FcOnly s t) {a : Nat} {f : Fld} (ha : a / 0x10000 = 0x4001) : FcOnly s (t.incFld a f) :=
  h.setReg ha

theorem FcOnly.setFc {s t : State} (h : FcOnly s t) (x : Fc) : FcOnly s { t with fc := x } := h.of_eq rfl fun _ _ => rfl

theorem FcOnly.irqPulse {s t : State} (h : FcOnly s t) (n : Nat) : FcOnly s (t.irqPulse n) :=
  h.of_eq (by conv => lhs; rw [t.irqPulse_irqOnly n]
              simp) fun a _ => State.irqPulse_reg t n a

theorem FcOnly.record {s t : State} (h : FcOnly s t) (r : Report) : FcOnly s (t.record r) := by
  unfold State.record
  extract_lets n i w0 lo hi s1 s2 s3 s4 s5 s6
  have hi : i < 32 := by
    unfold i; split
    · decide
    · exact Nat.mod_lt _ (by decide)
  have b0 : FC_HIST i / 0x10000 = 0x4001 := by simp only [FC_HIST]; omega
  have b1 : (FC_HIST i + 4) / 0x10000 = 0x4001 := by simp only [FC_HIST]; omega
  have b2 : (FC_HIST i + 8) / 0x10000 = 0x4001 := by simp only [FC_HIST]; omega
  have b3 : (FC_HIST i + 12) / 0x10000 = 0x4001 := by simp only [FC_HIST]; omega
  have h1 : FcOnly s s1 := by
    unfold s1; split
    · exact h.incFld (by decide)
    · exact h.setFld (by decide)
  have h2 : FcOnly s s2 := h1.setFld (by decide)
  have h3 : FcOnly s s3 := (((h2.setReg b0).setReg b1).setReg b2).setReg b3
  have h5 : FcOnly s s5 := h3.setFc _
  have h6 : FcOnly s s6 := by
    unfold s6; split
    · exact (((h5.setReg (by decide)).setReg (by decide)).setReg (by decide)).setReg (by decide)
    · exact h5
  split
  · exact h6.incFld (by decide)
  · exact h6.incFld (by decide)
  · exact h6.incFld (by decide)

theorem FcOnly.showPending {s t : State} (h : FcOnly s t) : FcOnly s t.showPending :=
  (h.setFld (by decide)).setFld (by decide)

theorem FcOnly.pendSource {s t : State} (h : FcOnly s t) (r : Report) : FcOnly s (t.pendSource r) := by
  unfold State.pendSource
  split
  · exact h
  · exact (h.setFc _).showPending

/-- A report whose reaction is LOG, after the collector's rules. -/
theorem FcOnly.report {s t : State} (h : FcOnly s t) (r : Report) (c : Bool) (hr : (t.raised r c).react = .log) :
    FcOnly s (t.report r c) := by
  unfold State.report
  extract_lets r' f1 s1
  have h1 : FcOnly s s1 := by
    unfold s1; split
    · exact h.setFc _
    · exact h
  have hr' : r'.react = .log := hr
  unfold State.react
  rw [hr']
  exact ((h1.record r').pendSource r').irqPulse 1

theorem State.raised_corrected (s : State) (r : Report) (c : Bool) (hr : r.cls = .corrected) :
    s.raised r c = { r with react := .log, cond := none } := by
  simp [State.raised, hr]

/-- A corrected report touches the collector alone. -/
theorem FcOnly.logCorrected {s t : State} (h : FcOnly s t) (src : Nat) (d : Word := 0) : FcOnly s (t.logCorrected src d) :=
  h.report _ _ (by rw [State.raised_corrected _ _ _ rfl])

/-- A contained report with reaction LOG, outside the continuation window, touches the collector alone. -/
theorem FcOnly.logContained {s t : State} (h : FcOnly s t) (src : Nat) (ax : List Nat) (d : Word) (c : Option Nat) (k : Bool)
    (hw : t.fc.window = false) : FcOnly s (t.logContained src .log ax d c k) :=
  h.report _ _ (by simp [State.raised, hw])

@[simp] theorem State.logCorrected_part (s : State) (src : Nat) (d : Word) : (s.logCorrected src d).part = s.part := by
  rw [((FcOnly.refl s).logCorrected src d).eq]
@[simp] theorem State.logCorrected_pending (s : State) (src : Nat) (d : Word) : (s.logCorrected src d).pending = s.pending := by
  rw [((FcOnly.refl s).logCorrected src d).eq]
@[simp] theorem State.logCorrected_clock (s : State) (src : Nat) (d : Word) : (s.logCorrected src d).clock = s.clock := by
  rw [((FcOnly.refl s).logCorrected src d).eq]
@[simp] theorem State.logCorrected_free (s : State) (src : Nat) (d : Word) : (s.logCorrected src d).free = s.free := by
  rw [((FcOnly.refl s).logCorrected src d).eq]
@[simp] theorem State.logCorrected_cpDiff (s : State) (src : Nat) (d : Word) : (s.logCorrected src d).cpDiff = s.cpDiff := by
  rw [((FcOnly.refl s).logCorrected src d).eq]
@[simp] theorem State.logCorrected_cpArmed (s : State) (src : Nat) (d : Word) : (s.logCorrected src d).cpArmed = s.cpArmed := by
  rw [((FcOnly.refl s).logCorrected src d).eq]
@[simp] theorem State.logCorrected_hiLatch (s : State) (src : Nat) (d : Word) : (s.logCorrected src d).hiLatch = s.hiLatch := by
  rw [((FcOnly.refl s).logCorrected src d).eq]
@[simp] theorem State.logCorrected_loHold (s : State) (src : Nat) (d : Word) : (s.logCorrected src d).loHold = s.loHold := by
  rw [((FcOnly.refl s).logCorrected src d).eq]
@[simp] theorem State.logCorrected_resp (s : State) (src : Nat) (d : Word) : (s.logCorrected src d).resp = s.resp := by
  rw [((FcOnly.refl s).logCorrected src d).eq]
@[simp] theorem State.logCorrected_mem (s : State) (src : Nat) (d : Word) : (s.logCorrected src d).mem = s.mem := by
  rw [((FcOnly.refl s).logCorrected src d).eq]
@[simp] theorem State.logCorrected_timers (s : State) (src : Nat) (d : Word) : (s.logCorrected src d).timers = s.timers := by
  rw [((FcOnly.refl s).logCorrected src d).eq]
@[simp] theorem State.logCorrected_perf (s : State) (src : Nat) (d : Word) : (s.logCorrected src d).perf = s.perf := by
  rw [((FcOnly.refl s).logCorrected src d).eq]
@[simp] theorem State.logCorrected_time (s : State) (src : Nat) (d : Word) : (s.logCorrected src d).time = s.time := by
  rw [((FcOnly.refl s).logCorrected src d).eq]
@[simp] theorem State.logCorrected_eth (s : State) (src : Nat) (d : Word) : (s.logCorrected src d).eth = s.eth := by
  rw [((FcOnly.refl s).logCorrected src d).eq]
@[simp] theorem State.logCorrected_tt (s : State) (src : Nat) (d : Word) : (s.logCorrected src d).tt = s.tt := by
  rw [((FcOnly.refl s).logCorrected src d).eq]
@[simp] theorem State.logCorrected_tow (s : State) (src : Nat) (d : Word) : (s.logCorrected src d).tow = s.tow := by
  rw [((FcOnly.refl s).logCorrected src d).eq]
@[simp] theorem State.logCorrected_mirror (s : State) (src : Nat) (d : Word) : (s.logCorrected src d).mirror = s.mirror := by
  rw [((FcOnly.refl s).logCorrected src d).eq]
@[simp] theorem State.logCorrected_le (s : State) (src : Nat) (d : Word) : (s.logCorrected src d).le = s.le := by
  rw [((FcOnly.refl s).logCorrected src d).eq]
@[simp] theorem State.logCorrected_link (s : State) (src : Nat) (d : Word) : (s.logCorrected src d).link = s.link := by
  rw [((FcOnly.refl s).logCorrected src d).eq]
@[simp] theorem State.logCorrected_ax (s : State) (src : Nat) (d : Word) : (s.logCorrected src d).ax = s.ax := by
  rw [((FcOnly.refl s).logCorrected src d).eq]
@[simp] theorem State.logCorrected_sdd (s : State) (src : Nat) (d : Word) : (s.logCorrected src d).sdd = s.sdd := by
  rw [((FcOnly.refl s).logCorrected src d).eq]
@[simp] theorem State.logCorrected_fb (s : State) (src : Nat) (d : Word) : (s.logCorrected src d).fb = s.fb := by
  rw [((FcOnly.refl s).logCorrected src d).eq]
@[simp] theorem State.logCorrected_psync (s : State) (src : Nat) (d : Word) : (s.logCorrected src d).psync = s.psync := by
  rw [((FcOnly.refl s).logCorrected src d).eq]
@[simp] theorem State.logCorrected_safe (s : State) (src : Nat) (d : Word) : (s.logCorrected src d).safe = s.safe := by
  rw [((FcOnly.refl s).logCorrected src d).eq]
@[simp] theorem State.logCorrected_fio (s : State) (src : Nat) (d : Word) : (s.logCorrected src d).fio = s.fio := by
  rw [((FcOnly.refl s).logCorrected src d).eq]
@[simp] theorem State.logCorrected_acq (s : State) (src : Nat) (d : Word) : (s.logCorrected src d).acq = s.acq := by
  rw [((FcOnly.refl s).logCorrected src d).eq]
@[simp] theorem State.logCorrected_can (s : State) (src : Nat) (d : Word) : (s.logCorrected src d).can = s.can := by
  rw [((FcOnly.refl s).logCorrected src d).eq]
@[simp] theorem State.logCorrected_basin (s : State) (src : Nat) (d : Word) : (s.logCorrected src d).basin = s.basin := by
  rw [((FcOnly.refl s).logCorrected src d).eq]
@[simp] theorem State.logCorrected_pwr (s : State) (src : Nat) (d : Word) : (s.logCorrected src d).pwr = s.pwr := by
  rw [((FcOnly.refl s).logCorrected src d).eq]
@[simp] theorem State.logCorrected_boot (s : State) (src : Nat) (d : Word) : (s.logCorrected src d).boot = s.boot := by
  rw [((FcOnly.refl s).logCorrected src d).eq]

theorem State.logCorrected_reg (s : State) (src : Nat) (d : Word) {a : Nat} (ha : a / 0x10000 ≠ 0x4001) :
    (s.logCorrected src d).reg a = s.reg a := ((FcOnly.refl s).logCorrected src d).reg a ha

end Sys2Proof.Machine
end

