-- ==== Sys2Proof/Tests/Slice0.lean ====
section
/-! SUPPORT. Tests of the model's author: terms that well-formedness refuses; for each statement, states and operands that meet its
hypotheses, clause by clause. -/

namespace Sys2Proof.Tests

-- One theorem at a time: kernel evaluations side by side ask for several times the memory.
set_option Elab.async false
open Sys2Proof Sys2Proof.Machine Sys2Proof.Machine.Reg

/-! ## Well-formedness -/

theorem test_wf_cp_value : Instr.wf (.cpValueWrite .sv0 (2 ^ 32) 0) = false := by decide
theorem test_wf_cp_complement : Instr.wf (.cpComplementWrite .sv0 (2 ^ 32) 0) = false := by decide
theorem test_wf_cp_timeout : Instr.wf (.cpArmTimeout .sv0 (2 ^ 32)) = false := by decide
theorem test_wf_cp_read : Instr.wf (.cpRead .sv0 (2 ^ 32) true) = false := by decide
theorem test_wf_absent : Instr.wf (.absentBlockAccess .sv0 (2 ^ 32) none) = false := by decide
theorem test_wf_write_size : Instr.wf (.registerWrite .sv0 0 3 0) = false := by decide
theorem test_wf_write_address : Instr.wf (.registerWrite .sv0 (2 ^ 32) 4 0) = false := by decide
theorem test_wf_window_source : Instr.wf (.psyncWindowCompute [⟨3, 0, 1, 2⟩, ⟨3, 4, 5, 6⟩]) = false := by decide
theorem test_wf_lines : Instr.wf (.delayLineCalDone [.trg 1, .trg 1]) = false := by decide
theorem test_wf_burst_slots : Instr.wf (.burst 0 false { slots := List.replicate 5 [] }) = false := by decide
theorem test_wf_burst_voltages : Instr.wf (.burst 0 false { slots := [], phv := List.replicate 5 [] }) = false := by decide
theorem test_wf_measure : Instr.wf (.calMeasureEnd 0 (List.replicate 5 0) 0 0) = false := by decide
theorem test_wf_trip : Instr.wf (.scTrip 0 [] (List.replicate 5 0)) = false := by decide
theorem test_wf_precharge : Instr.wf (.prechargeEnd 0 (List.replicate 5 0)) = false := by decide
theorem test_wf_report_source : Instr.wf (.faultReport { src := 2 ^ 16, cls := .corrected }) = false := by decide
theorem test_wf_report_axis : Instr.wf (.faultReport { src := 0, cls := .contained, react := .axstop, axes := [48] }) = false := by decide
theorem test_wf_can_identifier : Instr.wf (.canFrameRx 0 { id := 0x800, ide := false, dlc := 0, data := [] } 0) = false := by decide
theorem test_wf_can_remote : Instr.wf (.canFrameRx 0 { id := 1, ide := false, rtr := true, dlc := 0, data := [] } 0) = false := by decide
theorem test_wf_can_length : Instr.wf (.canFrameRx 0 { id := 1, ide := false, dlc := 9, data := [1] } 0) = false := by decide
theorem test_wf_publish : Instr.wf (.tlPublish (List.replicate 9 default)) = false := by decide
theorem test_wf_safe_copy : Instr.wf (.safeCopyRx .a (2 ^ 29) []) = false := by decide
theorem test_wf_wake_step : Instr.wf (.wakeStepComplete true [1, 1]) = false := by decide
theorem test_wf_read_short : Instr.wf (.wharfRead 0 3 []) = false := by decide
theorem test_wf_read_late : Instr.wf (.wharfRead 0 4 [1]) = false := by decide
theorem test_wf_write_empty : Instr.wf (.wharfWrite 0 []) = false := by decide
theorem test_wf_write_long : Instr.wf (.wharfWrite 0 (List.replicate 65 0)) = false := by decide

/-! ## States of the witnesses -/

/-- After reset, with every domain on and some registers set. -/
def st (l : List (Nat × Word)) : State :=
  ((SYS_PWR_STAT 0, 0xFFFFFFFF) :: (SYS_PWR_STAT 1, 0xFFFFFFFF) :: (SYS_PWR_STAT 2, 0x3FFF) :: l).foldl (fun s e => s.setReg e.1 e.2) State.reset

/-- Some register fields set. -/
def flds (s : State) (l : List (Nat × Fld × Nat)) : State := l.foldl (fun s e => s.setFld e.1 e.2.1 e.2.2) s

/-- The same on a smaller part. -/
def st24 (l : List (Nat × Word)) : State := { st l with part := .fa24 }

/-! ## Hypotheses met: the machine -/

theorem meets_StepRunsFront : ({ st [] with pending := [.rdid] } : State).pending = [.rdid] := by decide

theorem meets_IdleStepPassesTime :
    let s := st []
    s.pending = [] ∧ s.boot.wr.2 = [] ∧ s.eth.sendq = [] ∧ s.domOn domNW = true ∧ domNW ∉ s.fc.stopped ∧ s.pwr.down = none ∧
    s.boundaryReached = false ∧ ({ s with tt := { s.tt with flightNo := 7 } } : State).boundaryReached = true ∧
    ({ s with tt := { s.tt with flightNo := 7 } } : State).boundaryDue = true := by decide

/-- Each step at its time and a tick before; the hardware safe state. -/
theorem meets_OrderlyPowerDown :
    let s (k c : Nat) : State := { st [] with clock := c, pwr := { (st []).pwr with down := some { step := k, at_ := 5 } } }
    (∀ k ∈ [1, 2, 3, 4], (s k 0).pwr.down = some { step := k, at_ := 5 } ∧ (s k (5 + downTicks (k + 1))).clock = 5 + downTicks (k + 1) ∧ 0 < downTicks (k + 1)) ∧
    (s 1 0).pending = [] ∧ (s 1 0).boot.wr.2 = [] ∧ (s 1 0).eth.sendq = [] ∧ (s 1 0).boundaryReached = false ∧ (s 1 0).hwSafeOn = false ∧
    ((s 1 0).setFld FC_STAT Fld.FC_STAT_HWSAFE 1).hwSafeOn = true ∧ (s 4 0).pwr.wakeLand = false := by decide

theorem meets_QueueClockPartKept (s : State) : exec .rdid s = .next (if s.wharfOn then s.wharfOut (leBytes 4 (s.reg SYS_ID).toNat) else s) := rfl

/-- A state that is not reset's, with a register, a byte, a full counter, the last RTC count; its step. -/
def busy : State :=
  { State.reset with regs := [(TIME_THR, 5)], mem := [(0x1C000000, 1)], perf := [(5, 2 ^ 48 - 1)], pwr := { State.reset.pwr with rtc := 2 ^ 48 - 1 } }

theorem meets_StepKeepsInv : busy.Inv .fa48 ∧ step busy = .next busy.tick :=
  ⟨⟨by decide, by decide, by decide, by decide, by decide, by decide, by decide⟩, rfl⟩

/-! ## Hypotheses met: register and memory accesses -/

theorem meets_CpValueWordArms :
    isCp SYS_ADDR = true ∧ (st []).reachable SYS_ADDR = true ∧ (st []).cpArm? .wharf SYS_ADDR = none := by decide

/-- The complement comes at the last instant; a request, and a channel's settings at EN = 0. -/
theorem meets_CpComplementTakes :
    let s (a : Nat) : State := { st [] with cpArmed := [(initNo .sc, a, 5, 100)], clock := 350 }
    (∀ a ∈ [TIME_EPOCH, FC_DEG, SAFE_REQ, FIO_DO_FS, SC_CFG 47], (s a).reachable a = true ∧
      (s a).cpArm? .sc a = some (initNo .sc, a, 5, 100) ∧ (s a).clock ≤ 350 ∧
      (a ∈ [SAFE_REQ, FIO_DO_FS] → (s a).cpOk .sc a (5 &&& cpBits a) = true)) ∧
    (s FC_DEG).cpOk .sc FC_DEG (0x01000048 &&& cpBits FC_DEG) = true := by decide

theorem meets_CpRefusals :
    let s : State := { st [] with cpArmed := [(initNo .sc, SAFE_REQ, 5, 100)], clock := 350 }
    isCp SAFE_REQ = true ∧ s.reachable SAFE_REQ = true ∧ s.cpArm? .sv0 SAFE_REQ = none ∧
    s.cpArm? .sc SAFE_REQ = some (initNo .sc, SAFE_REQ, 5, 100) ∧ s.clock ≤ 350 ∧ (6 : Word) ≠ ~~~5 := by decide

theorem meets_CpArmExpires :
    let s : State := { st [] with cpArmed := [(initNo .sc, SAFE_REQ, 5, 100)], clock := 350 }
    s.cpArm? .sc SAFE_REQ = some (initNo .sc, SAFE_REQ, 5, 100) ∧ 350 ≤ s.clock ∧ ({ s with clock := 349 } : State).clock < 350 := by decide

theorem meets_CpReadReturnsStored :
    let s : State := { st [] with cpDiff := [(TT_SWAP, 1)] }
    isCp TT_SWAP = true ∧ s.absent .sv0 TT_SWAP = false ∧ s.powered .block TT_SWAP = true ∧ Tbl.get 0 s.cpDiff TT_ALT_FORCE = 0 ∧
    Tbl.get 0 s.cpDiff TT_SWAP ≠ 0 ∧ s.fc.window = false := by decide

theorem meets_AbsentAddresses : (st24 []).absent .sv0 0x40280000 = true ∧ (st24 []).absent .sv0 0x4027FFFF = false ∧
    (st []).absent .sv0 0x403FFFFF = false ∧ (st []).absent .wharf 0x404C0000 = true ∧ (st []).absent .sc 0x07FFFFFF = true := by decide

theorem meets_PlainRegisterWrite :
    (∀ a ∈ [FC_HIST_CTRL, 0x40400000], a % 4 = 0 ∧ (regDef a).isSome = true ∧ isCpc a = false ∧ (st []).absent .sv0 a = false ∧
      (st []).reachable a = true) ∧ (regDef FC_HIST_CTRL).all (fun d => d.rw &&& d.w1c == 0) = true ∧ isCp FC_HIST_CTRL = false := by decide

theorem meets_TcmWrite : (0x7FFFC + 4 ≤ 0x80000 ∧ 0x7FFFC % 4 = 0) ∧ (st []).domOn (domSv 0) = true := by decide

/-! ## Hypotheses met: loop engines -/

def lk : LockEntry :=
  { id := 7, phase := 0, period := 1, start := 16, budget := 100, engine := 0, ncommit := 1, entry := 0, axis := 0, resFirst := 0,
    resCount := 0, stateBase := 0, stateWords := 0, mirrorFirst := 0, kind := 0 }

/-- A lock runs on LE_0 with some tokens left. -/
def le (tokens : Nat) (f : Le → Le) : State := (st []).setLe 0 (f { run := some { lock := lk, sec := 0, tokens := tokens } })
def leBank (tokens : Nat) (f : LeBank → LeBank) : State := le tokens fun x => { x with bank := f x.bank }

theorem meets_LeDataOps : (le 1 id).leFree 0 .rep 1 = true ∧ (le 0 id).leFree 0 .rep 1 = false := by decide

/-- The even register pairs of ADD64 and SUB64 up to X14 and X15. -/
theorem meets_LeIntegerOps : (le 1 id).leFree 0 .rep 1 = true ∧ (le 1 id).leFree 0 .plain 1 = true ∧ (14 : Fin 16).val % 2 = 0 := by decide

/-- Both ends of the shift of SHA and of the scale of MVA. -/
theorem meets_LeAccumulatorOps : (le 1 id).leFree 0 .rep 1 = true ∧ (3 : Fin 16).val < 4 ∧ (8 : BitVec 6).toInt ≤ 8 ∧
    (32 : BitVec 6).toInt = -32 ∧ (8 : Fin 16).val ≤ 8 := by decide

/-- No move, one move, two moves into different registers. -/
theorem meets_LeMultiplyOps : (le 1 id).leFree 0 .rep 1 = true ∧
    (∀ m ∈ [((0 : Byte), (0 : Byte)), (0x80, 0), (0x80, 0x88)],
      ¬ (m.1.getLsbD 7 = true ∧ m.2.getLsbD 7 = true ∧ moveReg m.1 = moveReg m.2)) ∧ (2 : Fin 4).val % 2 = 0 := by
  refine ⟨by decide, fun m hm => ?_, rfl⟩
  simp only [List.mem_cons, List.not_mem_nil, or_false] at hm
  obtain rfl | rfl | rfl := hm <;> decide

theorem meets_LeFilterTap :
    let s (p : BitVec 14) := leBank 1 fun b => { b with p := b.p.set 1 p }
    let after (p : BitVec 14) := ((s p).leReady 0).bank.stepped 1 1 (s p).fresh
    (s 8190).leFree 0 .rep 1 = true ∧ (after 8190).toNat < 8192 ∧ 8192 ≤ (after 8191).toNat := by decide

/-- Signs of the operands of DIV, NRECIP and SQRT at their limits; the pairs and the quadruple of registers. -/
theorem meets_LeFunctionOps :
    let s (v : D24) := leBank 26 fun b => { b with d := b.d.set 2 v }
    let va (v : D24) := (((s v).leReady 0).bank.dr 2).toInt
    (s 0).leFree 0 .plain 26 = true ∧ va 1 ≠ 0 ∧ va 0 = 0 ∧ va 0 ≤ 0 ∧ va 0x800000 < 0 ∧
    (2 ^ 22 ≤ va 1 * 2 ^ 22 ∧ va 1 * 2 ^ 22 < 2 ^ 23) ∧ (2 ^ 22 ≤ va 0x7FFFFF * 2 ^ 0 ∧ va 0x7FFFFF * 2 ^ 0 < 2 ^ 23) ∧
    (0 ≤ va 2 ∧ (4096 : Int) * 4096 ≤ va 2 * 2 ^ 23 ∧ va 2 * 2 ^ 23 < (4096 + 1) * (4096 + 1)) ∧
    (14 : Fin 16).val % 2 = 0 ∧ (12 : Fin 16).val % 4 = 0 := by decide

/-- Two words, the second the least; sixteen equal words, the first taken. -/
theorem meets_LeMinSelect :
    let s := (le 10 fun x => { x with data := [(1, 0x800000)] })
    let word (s : State) (i : Nat) := (s.leReady 0).peek s.bankB i
    s.leFree 0 .plain (1 + (1 + 2) / 2) = true ∧ (word s 1).toInt < (word s 0).toInt ∧
    (∀ i, i ≤ 15 → 0 < i → (word (le 10 id) 0).toInt ≤ (word (le 10 id) i).toInt) := by decide

/-- Addresses at the end of the data area, for one word and for two. -/
theorem meets_LeMoves :
    let s := le 2 fun x => { x with mvalid := [(31, true)] }
    s.leFree 0 .rep 1 = true ∧ s.leFree 0 .plain 2 = true ∧ (8191 : BitVec 14).toNat < 8192 ∧ 8192 ≤ (8192 : BitVec 14).toNat ∧
    (8190 : BitVec 14).toNat < 8191 ∧ 8191 ≤ (8191 : BitVec 14).toNat ∧ moveSource (s.leReady 0) s.fresh 0 3 = some 0 ∧
    (∀ k, k < 32 → (0x80000000 : Word).getLsbD k = Tbl.get false (s.leReady 0).mvalid (32 * (0 : Fin 8).val + k)) := by decide

theorem meets_LeStaging :
    let r (n : Nat) : LeRun := { lock := lk, sec := 0, tokens := 1, total := n }
    let s (n : Nat) := (st []).setLe 0 { run := some (r n) }
    (∀ n ∈ [254, 255, 256], ((s n).leReady 0).run = some (r n) ∧ (s n).leFree 0 .rep 1 = true) ∧
    255 + 1 ≤ 256 ∧ 256 < 256 + 1 ∧ 254 + 2 ≤ 256 ∧ 256 < 255 + 2 := by decide

/-- A loop level to leave, the last delay slot, a count of 0 and of 4,095. -/
theorem meets_LeFlow :
    let l : LoopLvl := { cnt := 1, sta := 1, fin := 9 }
    let s := leBank 1 fun b => { b with loops := [l], pc := 5 }
    let d := le 1 fun x => { x with ds := some { left := 1, target := some 0x20 } }
    (∀ k ∈ [LeClass.jump, .repeater, .flow, .plain], (le 1 id).leFree 0 k 1 = true) ∧ ((le 1 id).leReady 0).bank.loops = [] ∧
    s.leFree 0 .flow 1 = true ∧ (s.leReady 0).bank.loops = [l] ∧ d.leFree 0 .plain 1 = true ∧ (d.leReady 0).rep = none ∧
    (d.leReady 0).ds = some { left := 1, target := some 0x20 } ∧ ((le 1 id).leReady 0).ds = none ∧ 2 ≤ (2 : BitVec 9).toNat := by decide

/-- A timetable with one lock on LE_0 and one on LE_1, that runs. -/
def image : Image :=
  { flightTicks := 1250, offset := 0, voyage := 1, spare := 11, sections := [{ locks := [lk], res := [] }], places := [] }
def flights (l : List (Nat × Word)) : State :=
  { st ((SYS_MODE, 2) :: (TT_STATUS, 0x30) :: l) with tt := { (st []).tt with image := some image } }

theorem meets_LeLockStartEnd :
    let s := flights []
    let r : LeRun := { lock := lk, sec := 0, tokens := 1, commits := 1 }
    let q := (st []).setLe 0 { run := some r }
    s.activeSec.locks[0]? = some lk ∧ s.tt.image = some image ∧ s.lockMayStart 0 lk 1 = true ∧
    (let x : EntryRef := ⟨0, false, 0⟩
      let t1 : State := { s with tt := { s.tt with torn := [x] } }
      s.tt.torn.contains x = false ∧ t1.tt.torn.contains x = true ∧ t1.tt.torn2.contains x = false ∧
      ({ t1 with tt := { t1.tt with torn2 := [x] } } : State).tt.torn2.contains x = true) ∧
    (let t : LockEntry := { lk with entry := 0x8020, kind := 1, budget := 65 }
      let i : State := { flights [(TT_CTRL, 0x10)] with tt := { (st []).tt with image := some { image with sections := [{ locks := [t], res := [] }] } } }
      let i := i.setFld TT_CTRL Fld.TT_CTRL_TEST_EN 1
      i.activeSec.locks[0]? = some t ∧ i.lockMayStart 0 t 1 = true ∧ (i.istWork 0).isSome = true ∧ 65 ≤ t.budget) ∧
    q.leFree 0 .flow 1 = true ∧ (q.leReady 0).run = some r ∧ r.lock.ncommit ≤ r.commits := by decide

/-- The final commit point and one before it, at the last cycle of the deadline. -/
theorem meets_LeCommit :
    let r (n : Nat) : LeRun := { lock := { lk with ncommit := n }, sec := 0, tokens := 2, cyc := 98, state := [(3, 5)] }
    let s (n : Nat) := (st []).setLe 0 { run := some (r n) }
    (∀ n ∈ [1, 2], (s n).leFree 0 .flow 2 = true ∧ ((s n).leReady 0).flushMem.run = some (r n) ∧ 1 ≤ n ∧
      (r n).cyc + 2 ≤ ((s n).runSec (r n)).deadline (r n).lock 1) := by decide

theorem meets_LeCutOffs :
    let r (n : Nat) : LeRun := { lock := lk, sec := 0, tokens := n }
    ((le 0 id).leAt 0).run = some (r 0) ∧ (le 0 id).leHalted 0 = false ∧ (r 0).tokens = 0 ∧ (r 1).tokens ≠ 0 ∧
    (le 1 id).leFree 0 .rep 0 = true ∧ leLegal 0xFFFFFFFF = false ∧ leLegal 0 = true ∧ (le 1 id).leFree 0 .plain 1 = true ∧ (le 0 id).fc.window = false := by decide

/-- A halt request, a halted engine, an event at a boundary, a breakpoint at the next instruction. -/
theorem meets_LeDebug :
    let h (s : State) : State := { s with fc := { s.fc with stopped := [domLe 0] } }
    let s := h (st [(ENG_DBG 0, 0x10002)])
    let q := ((st []).setLe 0 { evt := true })
    let b := flds (le 1 id) [(ENG_DBG 0, Fld.ENG_DBG_DBG_EN, 1), (ENG_DBG 0, Fld.ENG_DBG_BP_EN, 1), (ENG_DBG 0, Fld.ENG_DBG_BP_ADDR, 1)]
    (st []).reachable (ENG_DBG 0) = true ∧ (st []).leHalted 0 = false ∧ (st []).flag (ENG_DBG 0) Fld.ENG_DBG_STEP = false ∧
    ((s.setFld (ENG_DBG 0) Fld.ENG_DBG_HALTED 1).leHalted 0 = true ∧ s.fc.stopped.contains (domLe 0) = true) ∧
    (q.leAt 0).held = false ∧ q.leEvent 0 = true ∧ (q.leAt 0).ds = none ∧ (q.leAt 0).rep = none ∧
    ((q.setFld (ENG_DBG 0) Fld.ENG_DBG_DBG_EN 1).leDbg 0 = true) ∧
    (b.leFree 0 .plain 1 = true ∧ b.leDbg 0 = true ∧ b.flag (ENG_DBG 0) Fld.ENG_DBG_BP_EN = true ∧
      (match exec (.nop (.le 0)) b with
        | .next t => t.fld (ENG_DBG 0) Fld.ENG_DBG_BP_ADDR == (t.leAt 0).bank.pc.toNat && (t.leAt 0).run.isSome
        | _ => false) = true) := by decide

theorem meets_EngineLoss :
    let s := flights []
    let q : State := { s with fc := { s.fc with lostEng := some 5 } }
    s.domOn (domLe 0) = true ∧ (s.leAt 0).held = false ∧ s.fc.lostEng = none ∧ s.tt.image.isSome = true ∧ q.fc.lostEng = some 5 ∧
    (q.setReg SYS_MODE 4).mode = .run ∧ q.flag SYS_MODE Fld.SYS_MODE_FROZEN = false := by decide

/-! ## Hypotheses met: links, towpath, timetable -/

def dieOn (l : List (Nat × Word)) : State := st ((SDD_STAT 0, 0x300) :: l)
def goodFrame : LinkFrame := let h : List Byte := [0, 0, 0, 0]; { bytes := h ++ [BitVec.ofNat 8 (crc16 h / 256), BitVec.ofNat 8 (crc16 h)] }

/-- A good frame and a failing one, with and without a retry outstanding; the fourth drop of 64 flights; a word of a shadow, a word that the die
sends; the lanes of a die that was trained from reset. -/
theorem meets_DieLinkFrames :
    let s := dieOn []
    let r (l : List Nat) := s.setLink 0 { retry := #v[true, true], drops := l }
    s.sddOn 0 = true ∧ s.lanesUp 0 = true ∧ frameOk goodFrame = true ∧ frameSeq goodFrame = vget (s.linkAt 0).rxSeq 0 0 ∧
    frameOk { bytes := [] } = false ∧ vget (s.linkAt 0).retry false 0 = false ∧ vget ((r []).linkAt 0).retry false 1 = true ∧
    ((([0, 0, 0] : List Nat) ++ [(r [0, 0, 0]).tt.flightNo]).filter fun g => (r [0, 0, 0]).tt.flightNo < g + 64).length = 4 ∧
    ((([0, 0] : List Nat) ++ [(r [0, 0]).tt.flightNo]).filter fun g => (r [0, 0]).tt.flightNo < g + 64).length < 4 ∧
    (([(0x1001 + 64 * 3 + 3, 0x7FFFFF)] : List (Nat × D24)).map Prod.fst) = [0x1001 + 64 * (3 : Fin 4).val + (3 : Fin 4).val] ∧
    4 * 11 + 3 < axisCount s.part ∧ ((State.reset.setReg (SYS_PWR_STAT 0) 0xFFFFFFFF).linkTrain 0).lanesUp 0 = true := by decide +kernel

theorem meets_DieLinkLoss :
    let s (c : Nat) : State := { dieOn [] with clock := c }
    (s 0).sddOn 0 = true ∧ ((s 0).linkAt 0).faulted = false ∧ (s 0).fc.window = false ∧ ((s 128).linkAt 0).lastAlive + 128 ≤ (s 128).clock ∧
    ((s 0).linkAt 0).silent = false ∧
    ((s 0).setLink 0 { faulted := true, silent := true }).linkAt 0 = { faulted := true, silent := true } ∧ (s 127).clock < ((s 127).linkAt 0).lastAlive + 128 := by decide

theorem meets_IslandStops : (∀ i ∈ [Island.tp, .nw, .ps, .le 11, .sv 1, .sc, .aq, .cn, .hb, .en 5], (st []).domOn (islandNo i) = true) ∧
    (st []).hwSafeOn = false ∧ (st []).fc.lostEng ≠ some 11 := by decide

def res0 : ResEntry := { src := 0, dst := 1, slot := 16, flits := 2, tag := 0, kind := 0, point := 0, phase := 0, period := 0 }
def opened (o : OpenRes) : State := { st [(TOW_PORT_CRED 0, 0x08080808)] with tow := { (st []).tow with opened := [o] } }

/-- The first flit, the second of a pair, a flit that is not the sender's, a resend, a flit without a token, one without a credit, the sixteenth
CRC error, a word of a die, a credit. -/
theorem meets_TowpathFlits :
    let o : OpenRes := { idx := 3, res := res0, tokens := 1, sent := 1, got := [(0, 9)] }
    let wide : OpenRes := { o with res := { res0 with tag := 256 } }
    let die : OpenRes := { o with res := { res0 with src := 16 } }
    let own : OpenRes := { o with res := { res0 with kind := 1 } }
    let s := opened o
    let d := (opened die).setLink 0 { up := [(0, 5, 0)] }
    let b := opened { o with resend := [(0, 7)] }
    let w := opened { o with waiting := [(0, 7, true)] }
    s.domOn domTP = true ∧ s.tow.opened.find? (·.idx == 3) = some o ∧ res0.src < 48 ∧ res0.dst < 12 ∧ (65535 : Nat) < 65536 ∧
    s.planeJoins res0 false = true ∧ s.planeJoins res0 true = true ∧ 0 < o.tokens ∧
    0 < s.fld (TOW_PORT_CRED 0) Fld.TOW_PORT_CRED_VC0 ∧ ((st []).setReg (TOW_PORT_CRED 0) 0).fld (TOW_PORT_CRED 0) Fld.TOW_PORT_CRED_VC0 = 0 ∧
    s.offered o 77 = some (o.sent, 77) ∧ (opened own).offered own 77 = none ∧ o.res.tag.testBit 8 = false ∧ wide.res.tag.testBit 8 = true ∧
    o.sent % 2 = 1 ∧ o.got.find? (·.1 == o.sent - 1) = some (o.sent - 1, 9) ∧ ({ o with tokens := 0 } : OpenRes).tokens = 0 ∧
    Tbl.get 0 ({ s with tow := { s.tow with errA := [(1, 15)] } } : State).tow.errA 1 = 15 ∧
    (d.linkAt 0).up.find? (fun y => y.1 == 0) = some (0, 5, 0) ∧ d.part ≠ .la48 ∧ die.res.kind ≠ 1 ∧ die.res.kind ≠ 2 ∧ o.resend = [] ∧
    (b.tow.opened.head?.map OpenRes.resend) = some [(0, 7)] ∧ (w.tow.opened.head?.map OpenRes.waiting) = some [(0, 7, true)] ∧
    w.tow.opened.find? (fun q => q.res.src == 0 && !q.waiting.isEmpty) = w.tow.opened.head? ∧
    portPresent s.part 47 = true ∧ (∀ q ∈ s.tow.opened, q.waiting = []) := by decide

/-- A reservation that a lock owns, and a stream; a torn entry, in one copy and in both; ports that no plane joins; the basin's delivery; a
complete mirror write, a refused one; a replica with and without agreement, with an idle lock on the spare. -/
theorem meets_TowpathReservations :
    let own := { lk with resFirst := 0, resCount := 1 }
    let mir : ResEntry := { res0 with dst := 29, kind := 2, point := 1, flits := 1 }
    let del : ResEntry := { res0 with src := 28, dst := 0, kind := 3, period := 1 }
    let alt := { lk with engine := 11, stateBase := 0x3FFF }
    let g : Image := { image with sections := [{ locks := [{ own with stateWords := 1, entry := 0x8380 }], res := [mir, { res0 with kind := 3, period := 1 }] },
      { locks := [{ alt with stateWords := 1 }], res := [] }] }
    let own1 := { own with stateWords := 1, entry := 0x8380 }
    let s : State := { flights [] with tt := { (flights []).tt with image := some g } }
    let x : EntryRef := ⟨0, true, 0⟩
    let t1 : State := { s with tt := { s.tt with torn := [x] } }
    let t2 : State := { s with tt := { s.tt with torn := [x], torn2 := [x] } }
    let cut : State := flds s [(TOW_PORT_STAT 0, Fld.TOW_PORT_STAT_A_BAD, 1), (TOW_PORT_STAT 29, Fld.TOW_PORT_STAT_B_BAD, 1)]
    let o : OpenRes := { idx := 0, res := mir, tokens := 0, sent := 1, got := [(0, 5)], ok := [0] }
    let w : State := { s with tow := { s.tow with opened := [o] } }
    let f : State := { s with mirror := { s.mirror with fwd := [7] } }
    let q : LeRun := { lock := { alt with kind := 1 }, sec := 0, tokens := 1 }
    s.resAt 0 = some mir ∧ s.running = true ∧ s.tt.stepped = false ∧
    s.tt.flightNo % g.voyage % (s.activeSec.resPhase 0 mir).2 = (s.activeSec.resPhase 0 mir).1 ∧
    s.activeSec.owner 0 = some own1 ∧ s.activeSec.owner 1 = none ∧ s.lost 0 = false ∧ s.tt.blocked.contains 7 = false ∧
    s.tow.opened.any (·.idx == 0) = false ∧ s.tt.torn.contains x = false ∧ t1.tt.torn.contains x = true ∧ t1.tt.torn2.contains x = false ∧
    t2.tt.torn2.contains x = true ∧ s.joined mir = true ∧ cut.joined mir = false ∧ (cut.badPlane 0 false && cut.badPlane 0 true) = false ∧
    cut.fc.conds.contains (srcId 0x04 31, 2) = false ∧ s.deliveryAxis del = some 0 ∧ (s.queueAt 0).queued.head? = none ∧ dCrcOk 0 = false ∧
    w.tow.opened.find? (·.idx == 0) = some o ∧ o.refused = false ∧ o.waiting = [] ∧
    (∀ k, k < o.res.flits → o.ok.contains k = true) ∧ (o.got.map Prod.fst).Nodup ∧
    ({ o with refused := true, res := res0 } : OpenRes).res.kind ≠ 2 ∧ s.fc.window = false ∧ f.mirror.fwd.contains 7 = true ∧
    g.replicaOf 7 = some (own1, { alt with stateWords := 1 }) ∧ g.spare < 12 ∧
    (f.activeSec.locks.any fun k => k.id == 7 && k.engine == g.spare) = false ∧ Tbl.get 0 f.mirror.diff 0 = 0 ∧
    ((f.setLe 11 { run := some q }).leAt 11).run = some q ∧ q.lock.kind ≠ 0 ∧ 1 ≤ q.tokens ∧
    Tbl.get 0 ({ f with mirror := { f.mirror with diff := [(0, 1)] } } : State).mirror.diff 0 ≠ 0 := by decide +kernel

theorem meets_TimetableControl :
    (st []).reachable TT_CTRL = true ∧ fget 8 Fld.TT_CTRL_LOAD = 0 ∧ fget 8 Fld.TT_CTRL_TCOPY = 0 ∧ fget 0 Fld.TT_CTRL_RUN = 0 ∧
    (st [(TT_CTRL, 8)]).flag TT_CTRL Fld.TT_CTRL_RUN = true ∧ (st [(TT_CTRL, 8), (SYS_MODE, 4)]).stopAllowed = false ∧
    (st [(TT_CTRL, 8)]).stopAllowed = true ∧ (st [(SYS_MODE, 3)]).loadAllowed = true ∧ (st [(SYS_MODE, 4)]).loadAllowed = false ∧
    (st []).fld TT_STATUS Fld.TT_STATUS_LOAD_CODE ≠ 0xFF := by decide

/-- The bytes that are not 0 of an image without locks in the tightly coupled RAM of SV_0, with its header. -/
def smallImage : List Host.Cell :=
  ([(12, 16), (13, 1), (32, 7), (36, 2), (37, 1), (38, 1), (39, 1), (41, 1), (512, 49), (513, 77), (514, 84), (515, 84), (516, 1), (517, 1), (518, 64),
    (520, 226), (521, 4), (528, 1), (529, 11), (530, 13), (532, 16), (533, 1), (540, 16), (541, 1), (544, 78), (545, 76), (546, 91),
    (547, 246)] ++ (List.range 13).flatMap fun k => [(576 + 16 * k, 16), (577 + 16 * k, 1)]).map fun (e : Nat × Nat) => (0x09000000 + e.1, BitVec.ofNat 8 e.2)
def loading (l : List Host.Cell) : State :=
  { st [] with mem := l, tt := { (st []).tt with loading := some 0x09000200 }, boot := { (st []).boot with abi := 1 } }


theorem meets_load_that_fails : (loading []).ttCheck 0x09000200 = (1, none) ∧ (loading []).ttCheck 0x07000000 = (0x11, none) := by decide +kernel

theorem meets_TimetableTables :
    let p : Placement := { region := 2, words := 8192, addr := 0, copies := 0x800 }
    let g : Image := { image with places := [p] }
    let s : State := { st [(TT_TWR_ADDR, 0x1FFF0002), (TT_STATUS, 0), (SYS_MODE, 2)] with tt := { (st []).tt with image := some g } }
    s.reachable TT_TWR_DATA = true ∧ s.flag TT_SWAP Fld.TT_SWAP_ARM = false ∧
    g.places.find? (fun q => q.region == s.fld TT_TWR_ADDR Fld.TT_TWR_ADDR_REGION) = some p ∧
    s.fld TT_TWR_ADDR Fld.TT_TWR_ADDR_OFFSET < p.words ∧ s.reachableCopies p.copies ≠ 0 ∧
    (s.setFld TT_SWAP Fld.TT_SWAP_ARM 1).flag TT_SWAP Fld.TT_SWAP_ARM = true ∧
    (s.setFld TT_STATUS Fld.TT_STATUS_TCOPY_BUSY 1).flag TT_STATUS Fld.TT_STATUS_TCOPY_BUSY = true ∧
    s.pairFree .sc TT_SWAP = true ∧ s.fld TT_TWR_OUT Fld.TT_TWR_OUT_OUT = 0 ∧ s.flag TT_STATUS Fld.TT_STATUS_TWR_ERR = false ∧
    s.pairFree .sc TT_ALT_FORCE = true ∧ s.mode = .commission ∧ s.tt.image.isSome = true ∧ s.tt.altForced = none ∧
    s.fld TT_STATUS Fld.TT_STATUS_ACTIVE = 0 ∧ s.flag TT_STATUS Fld.TT_STATUS_ALT_PENDING = false ∧ s.reachable (TT_ENG_SLACK 11) = true ∧
    ¬ (1 ≤ (0 : Fin 16).val) ∧ ¬ ((13 : Fin 16).val ≤ 12) ∧ ((s.setReg SYS_MODE 4).mode = .run) ∧
    s.reachableCopies p.copies = p.copies % 2 ^ 12 ∧ ((s.setReg (SYS_PWR_STAT 0) 0xFFFEFFFF).reachableCopies p.copies ≠ p.copies % 2 ^ 12) := by decide

/-- A boundary that line time has reached, none that it has reached; an armed swap at the start of a voyage; an alternate at its tick; a load
that waits for RUNNING to fall; a die whose link runs. -/
theorem meets_FlightBoundary :
    let s : State := { st [(SYS_MODE, 4), (SDD_STAT 0, 0x300)] with tt := { (st []).tt with altReal := some (12, 0), image := some image, flightNo := 7 } }
    let a := s.setReg TT_SWAP 0x80000001
    let i : State := { s with tt := { s.tt with flightNo := 0 } }
    let w : State := { s.setReg TT_STATUS 0x30 with tt := { s.tt with loading := some 0 } }
    s.domOn domTP = true ∧ s.domOn domNW = true ∧ s.fc.stopped.contains domTP = false ∧ s.fc.stopped.contains domNW = false ∧
    s.boundaryDue = true ∧ i.boundaryDue = false ∧ s.pwr.modeReq = none ∧ s.mode = .run ∧ s.time.step = none ∧
    s.fc.window = false ∧ s.tt.loading = none ∧ (w.tt.loading.isSome && w.running) = true ∧ w.boundaryDue = true ∧
    ((s.setReg SYS_MODE 6).mode = .safeStop ∧ ((st24 [(SYS_MODE, 6)]).setReg SAFE_STO 0).allSto = false) ∧
    0 ≤ s.ticks ∧ (a.flag TT_SWAP Fld.TT_SWAP_ARM = true ∨ a.flag TT_SWAP Fld.TT_SWAP_AT = true) ∧ s.sddOn 0 = true ∧ s.lanesUp 0 = true ∧
    portPresent s.part 47 = true ∧ flightAt s.grid s.ticks % s.grid.2.2 = 0 := by decide +kernel
set_option maxRecDepth 100000 in
theorem meets_load_that_passes : ((loading smallImage).ttCheck 0x09000200).1 = 0 ∧ ((loading smallImage).ttCheck 0x09000200).2.isSome = true ∧
    (loading smallImage).running = false ∧ (loading smallImage).fc.lostEng = none := by decide +kernel

/-! ## Hypotheses met: channels -/

def timetabled (l : List (Nat × Word)) : State := { st l with tt := { (st []).tt with image := some image } }
def axis (l : List (Nat × Word)) (n : Nat) (x : Ax) : State := (timetabled l).setAx n x
def timed (s : State) (k : TimerId) (c : Nat) : State := { s with timers := [(k, c)] }

theorem meets_ChannelEnable :
    let s := timetabled [(SYS_MODE, 2)]
    let e := s.setReg (PWM_CTRL 47) 1
    s.flag (PWM_STAT 47) Fld.PWM_STAT_STO = false ∧ (s.setFld (PWM_STAT 47) Fld.PWM_STAT_STO 1).flag (PWM_STAT 47) Fld.PWM_STAT_STO = true ∧
    (s.setFld (PWM_STAT 47) Fld.PWM_STAT_STO 1).enChecks 47 = true ∧ s.reachable (PWM_CTRL 47) = true ∧ fget 0xF001 ⟨3, 2⟩ = s.fld (PWM_CTRL 47) ⟨3, 2⟩ ∧ s.en 47 = false ∧ s.mode = .commission ∧
    s.enChecks 47 = true ∧ (s.setReg (PWM_PHASE 47) 1).enChecks 47 = false ∧ (st []).mode = .wake ∧ e.en 47 = true ∧
    fget 0xF005 ⟨3, 2⟩ ≠ e.fld (PWM_CTRL 47) ⟨3, 2⟩ ∧ fget 1 Fld.PWM_CTRL_EN = b2n (e.en 47) ∧
    s.flag (PWM_CTRL 47) Fld.PWM_CTRL_SAFE_REQ = false ∧ (s.setReg (PWM_CTRL 47) 0x10).flag (PWM_CTRL 47) Fld.PWM_CTRL_SAFE_REQ = true := by
  decide

/-- A valley, a peak and neither; a shadow at 64 ns and at 60 ns; a pulse as long as MINPW and one shorter, on either switch; the opposite
switch on, off too short and off long enough. -/
theorem meets_CarrierUpdate :
    let g : Shadow := { flight := 0, at_ := 100, words := [(1, 0x400000)] }
    let regs := [(SYS_MODE, 2), (PWM_CTRL 0, 0xF001), (PWM_PERIOD 0, 0x20000), (PWM_RISE 0 0, 0x1000), (PWM_FALL 0 0, 0x10000), (SNS_CALSTAT 0, 0)]
    let m (d : Nat) (s : State) : State := s.setSdd 0 { marker := some (s.grid.2.1 + d, s.clock) }
    let s (c d : Nat) : State := m d { axis regs 0 { loads := [g], started := true, carrier := 1 } with clock := c }
    let v := s 116 0
    let x := v.axAt 0
    let e (at_ tap : Nat) : PwmEdge := { at_ := at_, c := 1, word := 0x1000, tap := tap }
    let hi (ed : PwmEdge) (fall : Nat) : Int := (edgeTap fall ed.c : Int) - ed.tap - v.fld (PWM_DLY 0 0) Fld.PWM_DLY_RISE - 320
    let lo (ed : PwmEdge) : Int := (v.fld (PWM_PERIOD 0) Fld.PWM_PERIOD_PERIOD / 16 : Nat) + (edgeTap (v.nextEdges 0 0).1 (ed.c + 1) : Int) - ed.tap -
      v.fld (PWM_DLY 0 0) Fld.PWM_DLY_FALL - 320
    let least : Int := max 1 (v.fld (PWM_MINPW 0) Fld.PWM_MINPW_MINPW : Nat)
    let late (f : Fld) (at_ : Nat) := (v.fld (PWM_DLY 0 0) f + 320) / 64 ≤ v.clock - at_
    v.domOn (domAx 0) = true ∧ (0 : Fin 48).val < axisCount v.part ∧ v.carrierAt 0 false = true ∧ (s 116 64).carrierAt 0 true = true ∧
    v.carrierAt 0 true = false ∧ (s 116 1).carrierAt 0 false = false ∧ x.loads = [g] ∧ x.started = true ∧ x.pre = none ∧
    x.bootHeld = false ∧ v.fld (STP_CFG 0) Fld.STP_CFG_CLASS = 0 ∧ g.at_ + 16 ≤ v.clock ∧ (s 115 0).clock < g.at_ + 16 ∧
    (s 115 0).carrierAt 0 false = true ∧ v.flag (PWM_CTRL 0) Fld.PWM_CTRL_UPD = false ∧ v.en 0 = true ∧
    ((v.setFld (PWM_CTRL 0) Fld.PWM_CTRL_UPD 1).flag (PWM_CTRL 0) Fld.PWM_CTRL_UPD = true ∧ x.pastPeak = false) ∧
    least ≤ hi (e 0 0) 0x10000 ∧ hi (e 0 (edgeTap 0x10000 1)) 0x10000 < least ∧ 0x1000 < 0x10000 ∧ least ≤ lo (e 0 0) ∧ lo (e 0 100000) < least ∧
    late Fld.PWM_DLY_RISE 0 ∧ ¬ late Fld.PWM_DLY_RISE 116 ∧ late Fld.PWM_DLY_FALL 0 ∧ ¬ late Fld.PWM_DLY_FALL 116 ∧
    vget ({ x with riseE := x.riseE.setIfInBounds 0 (some (e 0 0)) }).riseE none 0 = some (e 0 0) ∧ vget x.riseE none 0 = none ∧ vget x.fallE none 0 = none := by decide

/-- The bus voltage at its threshold; a calibration in its wait and in its measurement, with each of its ends. -/
theorem meets_BurstsAndCalibration :
    let s (c : Word) := st [(SNS_CALSTAT 0, c)]
    let t (c : Nat) := timed ({ s 1 with clock := c }) (.calDecay 0) 500
    (s 0).domOn (domAx 0) = true ∧ (s 0).extMode 0 = false ∧ (s 0).part ≠ .la48 ∧
    (0xF33 : BitVec 12).toNat ≤ (s 0).fld (SDD_THR 0) Fld.SDD_THR_VBUS_OV ∧ (s 0).reachable (SNS_CAL 0) = true ∧ (s 0).en 0 = false ∧
    ((s 0).setReg (PWM_CTRL 0) 1).en 0 = true ∧ (s 1).fld (SNS_CALSTAT 0) Fld.SNS_CALSTAT_CODE = 1 ∧ (t 500).due (.calDecay 0) = true ∧
    (t 499).due (.calDecay 0) = false ∧ (2 : Int) - -3 ≤ (s 2).fld (SNS_CAL 0) Fld.SNS_CAL_CAL_VQ ∧ ¬ (3 : Int) - -3 ≤ (s 2).fld (SNS_CAL 0) Fld.SNS_CAL_CAL_VQ ∧
    (s 2).fld (SNS_CAL 0) Fld.SNS_CAL_CAL_CQ = 255 ∧ ¬ 1 ≤ ((s 2).setReg (SNS_CAL 0) 0x50000).fld (SNS_CAL 0) Fld.SNS_CAL_CAL_CQ ∧
    (0x10000 : Int) * 1024 / 256 = 0x040000 ∧ ¬ (0x10001 : Int) * 1024 / 256 ≤ 0x040000 ∧
    ((s 2).setReg (SNS_CAL 0) 0x50000).fld (SNS_CAL 0) Fld.SNS_CAL_CAL_CQ ≠ 255 ∧
    ((s 2).setReg (SNS_CAL 0) 0x50000).fld (SNS_CAL 0) Fld.SNS_CAL_CAL_CQ < min (-1 : Int).natAbs 255 ∧
    (s 2).fld (SNS_CALSTAT 0) Fld.SNS_CALSTAT_CODE = 2 ∧ ((s 2).axAt 0).calMask.testBit 0 = false ∧
    (({ (s 2).axAt 0 with calMask := 1 } : Ax)).calMask.testBit 0 = true := by decide

/-- A count at its limit, one below, one at a limit of 0 that acts as 1; each action code. -/
theorem meets_SupervisionLimits :
    let s (act : Word) := axis [(CL_CFG 3, act), (CL_LIMIT 3, 0x00040000)] 3 { lbRun := 4 }
    (s 0).fc.window = false ∧ (∀ a ∈ [(0 : Nat), 1, 2, 3], (s (BitVec.ofNat 32 (16 * a))).fld (CL_CFG 3) Fld.CL_CFG_LB_ACT = a) ∧
    max ((s 0).fld (CL_LIMIT 3) Fld.CL_LIMIT_LB_T) 1 ≤ ((s 0).axAt 3).lbRun ∧ vget ((s 0).axAt 3).acted false 1 = false ∧
    ((axis [(CL_LIMIT 3, 0)] 3 {}).axAt 3).lbRun < max ((axis [(CL_LIMIT 3, 0)] 3 {}).fld (CL_LIMIT 3) Fld.CL_LIMIT_LB_T) 1 ∧
    (∀ k, k < 7 → vget ((s 0).axAt 3).acted false k = false) := by decide

theorem meets_DieSupplyAndTemperature :
    let s := dieOn [(SDD_GDS 0, 1)]
    let d := s.setSdd 0 { vgdSeen := true }
    let on := s.setReg (PWM_CTRL 3) 1
    let t (c : Nat) := timed ({ s with clock := c }) (.tsd 0) 500
    let p := s.setAx 0 { pre := some 0 }
    s.sddOn 0 = true ∧ s.fc.window = false ∧ s.pairFree .sc (SDD_GDS 0) = true ∧ (∀ a ∈ dieAxes 0, s.en a = false) ∧
    (∃ a ∈ dieAxes 0, on.en a = true) ∧ s.fld (SDD_GDS 0) Fld.SDD_GDS_MODE = 1 ∧ (9599 : BitVec 16).toNat < (s.vgdThr 0).1 ∧
    (d.sddAt 0).vgdSeen = true ∧ (s.vgdThr 0).2 ≤ (10200 : BitVec 16).toNat ∧
    s.fld (SDD_THR 0) Fld.SDD_THR_VBUS_OV < (0xF34 : BitVec 12).toNat ∧ (s.sddAt 0).ovOn = false ∧
    (0xF33 : BitVec 12).toNat ≤ s.fld (SDD_THR 0) Fld.SDD_THR_VBUS_OV ∧ (2239 : BitVec 16).toInt < 2240 ∧
    (s.fld (SDD_THR 0) Fld.SDD_THR_TWARN : Int) * 16 < (2239 : BitVec 16).toInt ∧ (s.sddAt 0).twarnOn = false ∧
    2240 ≤ (2240 : BitVec 16).toInt ∧ (2399 : BitVec 16).toInt < 2400 ∧ 2400 ≤ (2400 : BitVec 16).toInt ∧
    (t 0).timerOn (.tsd 0) = true ∧ (t 500).due (.tsd 0) = true ∧ (t 499).due (.tsd 0) = false ∧ (p.axAt 0).pre = some 0 ∧
    s.extMode 0 = false ∧ s.domOn (domAx 0) = true ∧ ((s.setFld (GATE_BOOT 0) Fld.GATE_BOOT_MASK 7).fld (GATE_BOOT 0) Fld.GATE_BOOT_MASK).testBit 0 = true ∧ s.fld (SDD_GDS 0) Fld.SDD_GDS_MODE ≠ 2 ∧
    (s.setReg (SDD_GDS 0) 2).fld (SDD_GDS 0) Fld.SDD_GDS_MODE = 2 ∧
    (∀ j, j < 4 → 9200 ≤ vgetL [9200, 9200, 9200, 9200] 0 j) ∧ ¬ 9200 ≤ vgetL [9199] 0 0 ∧ (8599 < 8600 ∧ 8600 ≤ 8600) := by decide

theorem meets_ShortCircuits :
    let s := st [(SC_STAT 0, 3)]
    let t := timed ({ s with clock := 500 }) (.scLatch 0 0) 500
    let thr := 20 + s.fld (SC_CFG 0) Fld.SC_CFG_THR
    let on (c : Nat) := ({ s with clock := c }).setAx 0 { onAt := (s.axAt 0).onAt.setIfInBounds 3 (some 0) }
    let young (c : Nat) := 4 * c < 100 + 25 * s.fld (SC_CFG 0) Fld.SC_CFG_BLANK
    s.fc.window = false ∧ (s.fld (SC_CFG 0) Fld.SC_CFG_EN).testBit 3 = true ∧ s.extMode 0 = false ∧ s.domOn (domAx 0) = true ∧
    thr ≤ (vgetL [] 0 3 - vgetL [0, 0, 0, (thr : Int)] 0 3).natAbs ∧ ¬ thr ≤ (vgetL [0, 0, 0, (thr : Int)] 0 3 - vgetL [0, 0, 0, 1] 0 3).natAbs ∧
    vget ((on 100).axAt 0).onAt none 3 = some 0 ∧ young 1 ∧ ¬ young 1000 ∧ vget (s.axAt 0).onAt none 3 = none ∧
    (∀ m ∈ [(0, 0), (0x100, 1), (0x200, 2)], (s.setReg (GATE_CFG 0) (BitVec.ofNat 32 m.1)).fld (GATE_CFG 0) Fld.GATE_CFG_SC_SCOPE = m.2) ∧
    s.reachable (SC_STAT 0) = true ∧ fget 1 Fld.SC_STAT_LATCH &&& s.fld (SC_STAT 0) Fld.SC_STAT_LATCH = 1 ∧ t.due (.scLatch 0 0) = true ∧
    s.en 0 = false ∧ (s.setReg (PWM_CTRL 0) 1).en 0 = true ∧ s.due (.scLatch 0 1) = false := by decide

theorem meets_FourthSlot :
    let s (c : Word) (x : Ax) := axis [(GATE_CFG 0, c), (BRK_LIM 0, 0x00040001), (PWM_CTRL 0, 0xF001), (PWM_STAT 0, 0xFFFFFFFF)] 0 x
    let b (n sum : Nat) := s 0x400 { brkN := n, brkSum := sum }
    let h := (s 0x800 {}).setReg (PWM_STAT 0) 0
    let v := h.setFld (PWM_STAT 0) Fld.PWM_STAT_SHADOW_VALID 1
    (b 16 0).fld (GATE_CFG 0) Fld.GATE_CFG_SLOT3_FN = 1 ∧ 2 ^ (b 16 0).fld (BRK_LIM 0) Fld.BRK_LIM_WIN ≤ ((b 16 0).axAt 0).brkN ∧
    ((b 15 0).axAt 0).brkN < 2 ^ (b 15 0).fld (BRK_LIM 0) Fld.BRK_LIM_WIN ∧ (b 16 0).fld (BRK_LIM 0) Fld.BRK_LIM_AVG * 2 ^ 7 * 2 ^ 4 < 2049 ∧
    ¬ (b 16 0).fld (BRK_LIM 0) Fld.BRK_LIM_AVG * 2 ^ 7 * 2 ^ 4 < 2048 ∧ h.reachable (HBRK_CTRL 0) = true ∧
    h.fld (GATE_CFG 0) Fld.GATE_CFG_SLOT3_FN = 2 ∧ h.flag (HBRK_CTRL 0) Fld.HBRK_CTRL_REL = false ∧ h.slotRank 0 3 < 5 ∧ v.slotRank 0 3 = 5 ∧
    (h.setReg (HBRK_CTRL 0) 1).flag (HBRK_CTRL 0) Fld.HBRK_CTRL_REL = true ∧
    (timed ({ h with clock := 500 }) (.pullIn 0) 500).due (.pullIn 0) = true ∧ h.due (.pullIn 0) = false := by decide

/-- DRIVE, fast and slow decay at the least times and one tick earlier. -/
theorem meets_ChopperPhases :
    let s (code : Word) (c : Nat) : State := { st [(STP_STATE 0, code), (STP_CHOP 0, 0x08100408), (STP_CFG 0, 0x20), (STP_DAC 0, 0xFF)] with clock := c }
    (s 1 50).chop 0 false = 1 ∧ 100 + 25 * (s 1 50).fld (STP_CHOP 0) Fld.STP_CHOP_TON_MIN ≤ 4 * (50 - 0) ∧
    ¬ 100 + 25 * (s 1 49).fld (STP_CHOP 0) Fld.STP_CHOP_TON_MIN ≤ 4 * (49 - 0) ∧ 2 ≤ (s 2 500).chop 0 false ∧
    125 * (s 2 500).fld (STP_CHOP 0) Fld.STP_CHOP_TOFF_MIN ≤ 4 * (500 - 0) ∧ ¬ 125 * (s 2 499).fld (STP_CHOP 0) Fld.STP_CHOP_TOFF_MIN ≤ 4 * (499 - 0) ∧
    (s 2 500).bootHolds 0 false = false ∧ ((s 2 500).setAx 0 { pre := some 1 }).bootHolds 0 false = true ∧
    (s 2 500).chopCode 0 false ≠ 0 ∧ (st []).chopCode 0 false = 0 ∧ 2 ≤ (s 2 250).fld (STP_CFG 0) Fld.STP_CFG_DECAY ∧
    125 * (s 2 250).fld (STP_CHOP 0) Fld.STP_CHOP_TFAST ≤ 4 * 250 ∧ 4 * 249 < 125 * (s 2 249).fld (STP_CHOP 0) Fld.STP_CHOP_TFAST := by decide

/-! ## Hypotheses met: encoder ports, print synchronisation -/

def port (l : List (Nat × Fld × Nat)) (x : Fb) : State := (flds (st []) l).setFb 5 x
def mode (m : Nat) : Nat × Fld × Nat := (FB_CFG 5, Fld.FB_CFG_MODE, m)

/-- Steps up, down and over two; Z with and without its qualifier met; Hall sectors up and down; the sampling instant. -/
theorem meets_EncoderCounting :
    let s := port [mode 1, (FB_CFG 5, Fld.FB_CFG_INTERP, 0)] {}
    let z (q : Nat) := flds s [(FB_CFG 5, Fld.FB_CFG_ZQ_EN, 1), (FB_CFG 5, Fld.FB_CFG_ZQ, q)]
    let h := port [mode 3] { hall := 1 }
    s.fbOn 5 = true ∧ (∀ m ∈ [0, 1, 2, 3, 4, 5], (port [mode m] {}).fbMode 5 = m) ∧ quadPlace 0b10 = (quadPlace 0 + 1) % 4 ∧
    quadPlace 0 = (quadPlace 0b01 + 1) % 4 ∧ quadPlace 0b11 = (quadPlace 0 + 2) % 4 ∧
    (flds s [(FB_LIM 5, Fld.FB_LIM_ILL_MAX, 0)]).fld (FB_LIM 5) Fld.FB_LIM_ILL_MAX = 0 ∧ s.flag (FB_CFG 5) Fld.FB_CFG_ZQ_EN = false ∧
    (z 0).flag (FB_CFG 5) Fld.FB_CFG_ZQ_EN = true ∧ (s.fbAt 5).ab.toNat = (z 0).fld (FB_CFG 5) Fld.FB_CFG_ZQ ∧
    (s.fbAt 5).ab.toNat ≠ (z 3).fld (FB_CFG 5) Fld.FB_CFG_ZQ ∧ (h.fbAt 5).hall ≠ 3 ∧
    (∃ a ∈ List.range 6, ∃ b ∈ List.range 6, h.sector 5 1 = some a ∧ h.sector 5 3 = some b ∧ (b = (a + 1) % 6 ∨ a = (b + 1) % 6)) ∧
    s.flag (FB_CFG 5) Fld.FB_CFG_INTERP = false ∧ s.flag (FB_CFG 5) Fld.FB_CFG_ASRC = false ∧ (s.fbAt 5).forced = none ∧
    (s.fbAt 5).conds = [] ∧ s.flag (FB_STAT 5) Fld.FB_STAT_WAIT = false ∧ ((port [mode 1] { conds := [0] }).fbAt 5).conds ≠ [] := by decide

/-- A serial frame at its wait, the largest change that is taken and a smaller limit, the last frame below SER_T; each cable condition. -/
theorem meets_EncoderFramesAndFaults :
    let s (m : Nat) (x : Fb) : State := { port [mode m, (FB_SER 5, Fld.FB_SER_LEN, 12), (FB_SER2 5, Fld.FB_SER2_SER_T, 2), (FB_SER2 5, Fld.FB_SER2_TM, 1),
      (FB_CFG 5, Fld.FB_CFG_FBF_ACT, 3)] x with clock := 350 }
    let j := (s 4 { frame := some 7, data := some 0 }).setReg (FB_JMAX 5) 5
    let d (v : Nat) := sxt 12 (v + 2 ^ 12 - 0)
    (s 4 {}).fbOn 5 = true ∧ (s 4 {}).fc.window = false ∧ (s 4 {}).tt.flightNo % ((s 4 {}).fld (FB_SER 5) Fld.FB_SER_EVM1 + 1) = 0 ∧
    ((s 4 { endAt := 100 }).fbAt 5).endAt + (s 4 {}).fld (FB_SER2 5) Fld.FB_SER2_TM * 250 ≤ (s 4 {}).clock ∧
    ((s 4 { bad := 0 }).fbAt 5).bad + 1 < (s 4 {}).fld (FB_SER2 5) Fld.FB_SER2_SER_T ∧ (s 4 {}).flag (FB_SER 5) Fld.FB_SER_GRAY = false ∧
    (j.fbAt 5).frame = some 7 ∧ (j.fbAt 5).data ≠ none ∧ (d 5).natAbs ≤ (j.reg (FB_JMAX 5)).toNat ∧ (s 5 {}).fbMode 5 = 5 ∧
    (0 : BitVec 8).toNat ≠ crc8 12 5 false false ∧ (7 : BitVec 3).toNat &&& (s 1 {}).fbPairs 5 ≠ 0 ∧
    (∀ a ∈ [0, 1, 2, 3], (flds (s 1 {}) [(FB_CFG 5, Fld.FB_CFG_FBF_ACT, a)]).fld (FB_CFG 5) Fld.FB_CFG_FBF_ACT = a) ∧
    ((s 1 { conds := [condNo .loss] }).fbAt 5).conds = [condNo .loss] ∧ (s 1 {}).reachable (FB_CFG 5) = true ∧ (s 1 {}).en 5 = false ∧
    ((s 1 {}).setReg (PWM_CTRL 5) 1).en 5 = true ∧ ((s 1 { al := .rest }).fbAt 5).al ≠ .idle ∧ 6 ≤ fget 6 Fld.FB_CFG_MODE ∧
    fget 5 Fld.FB_CFG_MODE < 6 ∧ (s 1 {}).reachable (FB_CTRL 5) = true ∧
    (flds (s 1 {}) [(FB_STAT 5, Fld.FB_STAT_FAULT, 1)]).flag (FB_STAT 5) Fld.FB_STAT_FAULT = true ∧
    (s 1 {}).flag (FB_STAT 5) Fld.FB_STAT_FAULT = false := by decide +kernel

/-- Each state of the alignment; its timers when they expire; a port at rest, and one that moved. -/
theorem meets_EncoderAlignment :
    let s (a : AlSt) (l : List (Nat × W64)) := timed { port [mode 1, (PWM_CTRL 5, Fld.PWM_CTRL_EN, 1)] { al := a, trace := l } with clock := 500 } (.alSettle 5) 500
    let r := timed { s .rest [] with clock := 500 } (.alRest 5) 500
    (s .idle []).reachable (FB_CTRL 5) = true ∧ (s .idle []).fbMode 5 = 1 ∧ (s .idle []).flag (FB_CFG 5) Fld.FB_CFG_ASRC = false ∧ (s .idle []).en 5 = true ∧
    (s .idle []).flag (FB_STAT 5) Fld.FB_STAT_FAULT = false ∧ (s .idle []).flag (FB_STAT 5) Fld.FB_STAT_SUSPECT = false ∧
    (port [] {}).en 5 = false ∧ (∀ a ∈ [AlSt.idle, .armed, .holding, .rest, .settle0, .settle1], ((s a []).fbAt 5).al = a) ∧
    r.due (.alRest 5) = true ∧ (s .settle0 []).due (.alSettle 5) = true ∧ (s .rest []).due (.alRest 5) = false ∧ (s .settle0 []).atRest 5 = true ∧
    (s .settle0 [(480, 0), (490, 1000), (495, 0)]).atRest 5 = false ∧
    (s .settle1 []).fld (FB_ALCFG 5) Fld.FB_ALCFG_TOL * 65536 < (((s .settle1 []).angleNow 5 - ((s .settle1 []).fbAt 5).thm1).toInt - 4194304).natAbs ∧
    ((((s .settle1 []).setFb 5 { al := .settle1, thm1 := 0xC00000 }).angleNow 5 - 0xC00000).toInt - 4194304).natAbs ≤ 0 := by decide

/-- A ring with room for one and a full one; EN in every way it may be answered; a scheduled pulse, a pulse that is on. -/
theorem meets_TriggerOutputs :
    let s (x : Trg) : State := { flds (st [(SYS_MODE, 2)]) [(TRG_WIDTH 3, Fld.TRG_WIDTH_WIDTH, 250000), (PS_STAT, Fld.PS_STAT_CAL_DONE, 1),
      (TRG_PITCH_LO 3, Fld.TRG_PITCH_LO_PITCH, 1)] with psync := { (st []).psync with trg := (st []).psync.trg.set 3 x } }
    let on := flds (s {}) [(TRG_CFG 3, Fld.TRG_CFG_EN, 1)]
    let p : PsPulse := { entry := 9, prev := none, start := 5, late := true }
    (s {}).reachable (TRG_LDATA_HI 3) = true ∧ ((s {}).trgAt 3).ring.length < 4096 ∧ (s {}).reachable (TRG_LIST 3) = true ∧
    fget 0x80000000 Fld.TRG_LIST_FLUSH = 1 ∧ (s {}).trgOn 3 = false ∧ on.trgOn 3 = true ∧ (s {}).reachable (TRG_CFG 3) = true ∧
    (s {}).mode = .commission ∧ (st []).mode = .wake ∧ srcExists (s {}).part (fget 0x2F00 Fld.TRG_CFG_SRC) = true ∧
    ((s {}).pair64 (TRG_PITCH_LO 3) (TRG_PITCH_HI 3)).toInt = 1 ∧ (s {}).flag PS_STAT Fld.PS_STAT_CAL_DONE = true ∧
    (st []).flag PS_STAT Fld.PS_STAT_CAL_DONE = false ∧ ((s { sched := [p] }).trgAt 3).sched = [p] ∧ (s {}).psOn = true ∧
    ((s { act := some 7 }).trgAt 3).act = some 7 ∧ on.flag (TRG_CFG 3) Fld.TRG_CFG_MODE = false := by decide

theorem meets_trigger_ring_full : (List.replicate 4096 (0 : W64)).length = 4096 := List.length_replicate

theorem meets_EncoderEmulation :
    let s (x : Emu) : State := { flds (st []) [(EMU_DEN 2, Fld.EMU_DEN_DEN, 1), (PS_STAT, Fld.PS_STAT_CAL_DONE, 1)] with
      psync := { (st []).psync with emu := (st []).psync.emu.set 2 x } }
    let on (x : Emu) := flds (s x) [(EMU_CFG 2, Fld.EMU_CFG_EN, 1), (EMU_NUM 2, Fld.EMU_NUM_NUM, 1)]
    let m : PsModel := { p := 0, t0 := 0, c1 := 2 ^ 32, den := 64 }
    let r := on { cur := some (m, 0), c0 := 5 }
    (s {}).reachable (EMU_CFG 2) = true ∧ (s {}).emuOn 2 = false ∧ (on {}).emuOn 2 = true ∧
    srcExists (s {}).part (fget 0 Fld.EMU_CFG_SRC) = true ∧ (s {}).reg (EMU_DEN 2) ≠ 0 ∧ ((st []).setReg (EMU_DEN 2) 0).reg (EMU_DEN 2) = 0 ∧ r.psOn = true ∧
    (r.emuAt 2).cur = some (m, 0) ∧ (r.emuNext 2 m 0 (r.boundaryOf 0) (r.boundaryOf 1)).isSome = true := by decide

/-- Events that are taken and not taken, the last free place of the FIFO, starts and stops of a unit, the ends of a swap's window. -/
theorem meets_LatchesAndDelayLines :
    let s (x : Machine.Lat) : State := { flds (st []) [(LAT_CFG 1, Fld.LAT_CFG_EN, 1), (TIM_CFG 0, Fld.TIM_CFG_EN, 1), (TIM_CFG 0, Fld.TIM_CFG_STA, 1),
      (TIM_CFG 0, Fld.TIM_CFG_STP, 2), (PS_CAL, Fld.PS_CAL_BG_EN, 1), (PS_STAT, Fld.PS_STAT_CAL_DONE, 1)] with
      psync := { (st []).psync with lat := (st []).psync.lat.set 1 x } }
    let e (d : Bool) : LatEvt := { stamp := 5, falling := false, seq := 1, step := false, drop := d, pos := [] }
    (s {}).psOn = true ∧ (s {}).fc.window = false ∧ fget ((s {}).reg (LAT_CFG 1)) Fld.LAT_CFG_EN = 1 ∧
    fget ((s {}).reg (LAT_CFG 2)) Fld.LAT_CFG_EN = 0 ∧ fget ((s {}).reg (TIM_CFG 0)) Fld.TIM_CFG_STA = 1 ∧
    fget ((s {}).reg (TIM_CFG 0)) Fld.TIM_CFG_STP = 2 ∧ ((s { busy := [e true] }).latAt 1).busy = [e true] ∧
    ((s { busy := [e false] }).latAt 1).fifo.length < 64 ∧ (s {}).reachable (LAT_STAT 1) = true ∧ fget 0x80000000 Fld.LAT_STAT_POP = 1 ∧
    ((s { fifo := [e false] }).latAt 1).fifo = [e false] ∧ (allLines (s {}).part).contains (.enc 47) = true ∧
    (s {}).flag PS_CAL Fld.PS_CAL_BG_EN = true ∧ (s {}).flag PS_STAT Fld.PS_STAT_CAL_DONE = true ∧ (79 < 80 ∧ 160 < 161 ∧ 80 ≤ 80 ∧ 160 ≤ 160) ∧
    ((s {}).timAt 0).start = none ∧ ((s {}).timAt 0).fifo.length < 16 ∧
    (allLines (s {}).part).all (fun k => ([] ++ [DelayLine.enc 47]).contains k) = false := by decide

/-! ## Hypotheses met: fault collector, safety -/

def col (f : Fc → Fc) : State := { st [(SYS_MODE, 4)] with fc := f (st []).fc }

/-- Each class, in and outside the continuation window; a source of the lost engine; the history full and not. -/
theorem meets_CollectorTakesReport :
    let r : Report := { src := 0x0A05, cls := .contained, react := .axstop, axes := [5] }
    let w := col fun f => { f with window := true }
    let h (k : Word) := (col id).setReg FC_HIST_CTRL k
    r.react ≠ .hwsafe ∧ r.src < 65536 ∧ r.cls ≠ .corrected ∧ w.fc.window = true ∧ exemptReport r = false ∧
    exemptReport { src := 0x0700, cls := .contained, react := .safepwm } = true ∧ w.fc.lostEng.any (fun e => lostEngineSource e r.src) = false ∧
    lostEngineSource 2 (srcId 1 2) = true ∧ (h 0).fld FC_HIST_CTRL Fld.FC_HIST_CTRL_COUNT = 0 ∧
    (h 32).fld FC_HIST_CTRL Fld.FC_HIST_CTRL_COUNT = 32 ∧ (h 0).flag FC_FIRST Fld.FC_FIRST_VALID = false ∧
    ((h 0).setReg FC_FIRST 0x80000000).flag FC_FIRST Fld.FC_FIRST_VALID = true ∧ r.axes.contains 5 = true ∧ (h 0).mode = .run ∧
    (h 0).flag SYS_MODE Fld.SYS_MODE_FROZEN = false := by decide

theorem meets_CollectorSafeStateAndTimers :
    let h := (col id).setFld FC_STAT Fld.FC_STAT_HWSAFE 1
    let s := { (col id).setFld TT_CTRL Fld.TT_CTRL_TEST_EN 1 with clock := 500, timers := [(.mdLimit, 500), (.sdLimit, 500)] }
    (col id).hwSafeOn = false ∧ h.hwSafeOn = true ∧ h.pairFree .sv0 FC_ACK = true ∧ s.flag SYS_MODE Fld.SYS_MODE_FROZEN = false ∧
    s.due .mdLimit = true ∧ s.due .sdLimit = true ∧ (col id).due .mdLimit = false ∧ (col id).due .sdLimit = false ∧
    s.flag TT_CTRL Fld.TT_CTRL_TEST_EN = true ∧ s.fc.roundOver = false ∧ s.fc.window = false ∧ (col fun f => { f with overdue := 2 }).fc.overdue = 2 ∧
    s.fc.overdue < 2 ∧ ((col fun f => { f with roundAt := some 0 }).fc.roundAt.any fun a => decide (a + 2000 * msTicks < 2000 * msTicks + 1)) = true := by decide

theorem meets_CollectorAcknowledgement :
    let s (p : List PendSrc) (c : List (Nat × Nat)) := col fun f => { f with pend := p, conds := c }
    let p : PendSrc := ⟨0x0A05, false⟩
    let q : PendSrc := ⟨0x0A05, true⟩
    let f (s : State) := s.fc.pend.find? fun q => q.src == 0x0A05
    (s [] []).pairFree .sc FC_ACK = true ∧ (s [] []).hwSafeOn = false ∧ (0x0A05 : BitVec 16) ≠ 0xFFFF ∧ f (s [] []) = none ∧
    f (s [p] [(0x0A05, 1)]) = some p ∧ ((s [p] [(0x0A05, 1)]).fc.conds.any fun c => c.1 == 0x0A05) = true ∧
    ((s [p] []).fc.conds.any fun c => c.1 == 0x0A05) = false ∧ f (s [q] []) = some q ∧ (s [q] []).mode ≠ .hold ∧
    ((s [q] []).setReg SYS_MODE 3).mode = .hold ∧ (s [p] []).ackCode 0x0A05 = 0 ∧ (s [q] []).ackCode 0x0A05 = 3 := by decide

/-- A parameter block: pair 0 equivalent, on group 0; SO_0 with test pulses; no axis. -/
def paramBlock : List Byte :=
  leBytes 4 0x53465042 ++ leBytes 4 (0x0100 + 2 ^ 16 * 1216) ++ leBytes 8 0 ++ leBytes 4 (5 + 2 ^ 16 * 20) ++ List.replicate 44 0 ++ [1, 0, 10, 0, 1, 0, 0, 0] ++
  (List.range 7).flatMap (fun _ => [0, 0, 10, 0, 0, 0, 0, 0]) ++ [1, 1, 20, 0, 200, 0, 0, 0] ++
  (List.range 3).flatMap (fun _ => [0, 0, 20, 0, 200, 0, 0, 0]) ++ List.replicate 1052 0 ++ leBytes 4 0x1203fff1

/-- A safe-data table with one connection of source 5. -/
def safeTable : List Byte :=
  leBytes 4 0x53445431 ++ leBytes 4 (0x0100 + 2 ^ 16 * 128) ++ [0, 1, 0, 1] ++ leBytes 4 0x123 ++ [50, 0, 1, 0] ++ leBytes 4 100 ++
  leBytes 4 0x200 ++ [5, 0, 0, 0, 1, 0, 2, 0] ++ List.replicate 88 0 ++ leBytes 4 0xce195452

/-- SEQ 1 of source 5 at tick 90. -/
def safeMsg : List Byte := [5, 0, 1, 0, 90, 0, 0, 0, 1, 2, 0, 0] ++ leBytes 4 0xc89f8eaf

def cells (a : Nat) (l : List Byte) : List Host.Cell := (l.zipIdx a).filterMap fun e => if e.1 = 0 then none else some (e.2, e.1)

/-- Armed, with the block in both channels. -/
def safeSt (c : SafeCh → SafeCh) (f : Safe → Safe) : State :=
  let x := c { (st []).safe.a with val := paramBlock, cmp := paramBlock.map (~~~ ·), latch := true }
  let s := st [(SYS_MODE, 2), (SAFE_STAT, 1)]
  { s with safe := f { s.safe with a := x, b := x } }

theorem meets_SafetyStops :
    let s := safeSt id id
    let t (k : TimerId) := timed { s with clock := 500 } k 500
    let l := safeSt id fun f => { f with landA := true, landB := false }
    let o := safeSt (fun x => { x with so := x.so.set 0 true }) id
    let w := safeSt (fun x => { x with cmp := [] }) id
    s.fc.window = false ∧ s.safe.a.torn = false ∧ s.safe.b.torn = false ∧ w.safe.a.torn = true ∧ w.safe.landA = false ∧
    s.safe.landA = false ∧ s.safe.landB = false ∧ s.timerOn .stoDisc = false ∧ s.safe.a.lost = false ∧ s.safe.a.val ≠ [] ∧
    l.safe.landA = true ∧ l.safe.disc = false ∧
    ((safeSt id fun f => { f with landB := true })).safe.landB = true ∧ (timed { l with clock := 500 } .stoDisc 500).due .stoDisc = true ∧
    l.safe.landA ≠ l.safe.landB ∧ s.armed = true ∧ 11 < groupCount s.part ∧ false ≠ nbit (s.fld SAFE_STO Fld.SAFE_STO_GRP_A) 11 ∧
    (∀ b ∈ [false, true], (t (.soloMax (b2n b))).due (.soloMax (b2n b)) = true) ∧ (t (.ss1 3)).due (.ss1 3) = true ∧
    (t (.ss2 3)).due (.ss1 3) = false ∧ (t (.ss2 3)).due (.ss2 3) = true ∧
    (safeSt (fun x => { x with lost := true, restart := true }) id).safe.a.lost = true ∧
    (safeSt (fun x => { x with lost := true, restart := true }) id).safe.a.restart = true ∧
    ((safeSt (fun x => { x with sax := x.sax.set 3 { ss1 := some ⟨0, 0⟩ } }) id).safe.a.saxAt 3).ss1.isSome = true ∧ s.mode ≠ .safeStop ∧
    (soCfg o.safe.a.val 0).test = 1 ∧ vget o.safe.a.so false 0 = true ∧ vget o.safe.b.so false 0 = true ∧ o.pulseDue false 0 = true ∧
    (o.chan false).lost = false := by decide +kernel

/-- Each level and state of a pair; a result that is there, missing once, missing twice; torn copies. -/
theorem meets_SafetyCycles :
    let s (p : PairSt) (f : Safe → Safe) := safeSt (fun x => { x with pair := x.pair.set 0 p }) f
    let lv (s : State) := (s.safe.a.snap.di.testBit 0, s.safe.a.snap.di.testBit 1 != decide ((pairCfg s.safe.a.val 0).mode = 2))
    let sn (g : SafeSnap → SafeSnap) := safeSt (fun x => { x with snap := g x.snap }) id
    let di (d : Nat) := sn fun f => { f with di := d }
    let here (s : State) := s.fc.stopped.contains domSC = false ∧ (s.svAt 1).up = true ∧ s.aRestarting = false
    let d := timed ({ s .discOn id with clock := 500 }) (.pairDisc 0 0) 500
    let up := (s .off id).setSv 1 { (s .off id).svAt 1 with up := true }
    up.domOn domSC = true ∧ up.armed = true ∧ (st []).armed = false ∧ up.safe.a.torn = false ∧ up.safe.b.torn = false ∧ up.safe.a.lost = false ∧
    here up ∧ (pairCfg up.safe.a.val 0).mode ≠ 0 ∧ (∀ p ∈ [PairSt.off, .discOn, .ready, .on, .discOff, .fault], (s p id).safe.a.pairAt 0 = p) ∧
    lv (di 0) = (false, false) ∧ lv (di 1) = (true, false) ∧ lv (di 3) = (true, true) ∧ nbit up.safe.a.snap.cross 0 = false ∧
    nbit (sn fun f => { f with cross := 1 }).safe.a.snap.cross 0 = true ∧ 1 ≤ (safeSt (fun x => { x with miss := 1 }) id).safe.b.miss ∧
    (safeSt (fun x => { x with cmp := [] }) id).safe.a.torn = true ∧ (st []).mode ≠ .safeStop ∧
    ((st [(SYS_MODE, 6)]).mode = .safeStop) ∧ nbit (ss1Groups up.safe.a.val) 0 = false ∧ ((st []).setReg (SYS_PWR_STAT 0) 0).domOn domSC = false ∧
    d.due (.pairDisc 0 0) = true ∧ d.safe.rep.contains 0x90 = false ∧ (s .off id).safe.a.pairAt 0 ≠ .discOn := by decide +kernel

theorem meets_SafetyParameters :
    let s := safeSt id id
    let l := { s with safe := { s.safe with load := some 0x09001000, sdtLoad := some 0x09002000 } }
    let c := (s.setFld SAFE_STAT Fld.SAFE_STAT_CHECK_VALID 1).setFld SAFE_SDT_STAT Fld.SAFE_SDT_STAT_CHECK_VALID 1
    s.pairFree .sv0 SAFE_RESTART = true ∧ s.pairFree .sv0 SAFE_REQ = true ∧ s.reachable SAFE_CTRL = true ∧ fget 1 Fld.SAFE_CTRL_DISARM = 0 ∧
    fget 2 Fld.SAFE_CTRL_LOAD = 0 ∧ s.mode = .commission ∧ (s.setReg SYS_MODE 3).mode = .hold ∧ (s.setReg SYS_MODE 4).mode = .run ∧
    s.domOn domSC = true ∧ l.safe.load = some 0x09001000 ∧ l.safe.sdtLoad = some 0x09002000 ∧ blockCode s.part [] = 1 ∧ sdtCode [] = 1 ∧
    s.pairFree .sv0 SAFE_CONFIRM = true ∧ c.flag SAFE_STAT Fld.SAFE_STAT_CHECK_VALID = true ∧ s.flag SAFE_STAT Fld.SAFE_STAT_CHECK_VALID = false ∧
    s.reachable SAFE_SDT_CTRL = true ∧ fget 1 Fld.SAFE_SDT_CTRL_LOAD = 1 ∧ s.pairFree .sv0 SAFE_SDT_CONFIRM = true ∧
    c.flag SAFE_SDT_STAT Fld.SAFE_SDT_STAT_CHECK_VALID = true := by decide

def blockCells : List Host.Cell := [(0x9001000, 66), (0x9001001, 80), (0x9001002, 70), (0x9001003, 83), (0x9001005, 1), (0x9001006, 192), (0x9001007, 4), (0x9001010, 5), (0x9001012, 20), (0x9001040, 1), (0x9001042, 10), (0x9001044, 1), (0x900104A, 10), (0x9001052, 10), (0x900105A, 10), (0x9001062, 10), (0x900106A, 10), (0x9001072, 10), (0x900107A, 10),
  (0x9001080, 1), (0x9001081, 1), (0x9001082, 20), (0x9001084, 200), (0x900108A, 20), (0x900108C, 200), (0x9001092, 20), (0x9001094, 200), (0x900109A, 20), (0x900109C, 200), (0x90014BC, 241), (0x90014BD, 255), (0x90014BE, 3), (0x90014BF, 18)]

set_option maxRecDepth 100000 in
theorem meets_the_block_in_memory : ({ State.reset with regs := [(SYS_PWR_STAT 0, 0xFFFFFFFF)], mem := blockCells } : State).bytesAt .sv0 0x09001000 1216 = some paramBlock := by decide +kernel

set_option maxRecDepth 100000 in
theorem meets_a_block_that_passes : blockCode .fa48 paramBlock = 0 := by decide +kernel

set_option maxRecDepth 100000 in
theorem meets_safe_table_that_passes :
    let s := { st [] with mem := cells 0x09001000 safeTable }
    sdtCode ((s.bytesAt .sv0 0x09001000 128).getD []) = 0 := by decide +kernel

/-- The first good copy, the same and another second copy, an aged one; the window that ends; the watchdog at its limit. -/
theorem meets_SafeDataConnections :
    let s (x : Rx) (c : Nat) : State := let t := safeSt id fun f => { f with sdt := safeTable, rx := f.rx.set 0 x, cyc := c }
      { t.setFld SAFE_SDT_STAT Fld.SAFE_SDT_STAT_ARMED 1 with clock := 500, time := { t.time with line := 64 * 100 } }
    let age (s : State) := sxt 32 ((s.ticks + 2 ^ 32 - leAtOf safeMsg 4 4) % 2 ^ 32)
    let w (m : List Byte) : RxWin := { seq := 1, msg := m, can := false, due := 500 }
    let z := s {} 0
    z.sdtArmed = true ∧ z.domOn domSC = true ∧ z.fc.window = false ∧ (List.range z.nrx).find? (fun q => (z.conn q).src == leAtOf safeMsg 0 2) = some 0 ∧
    safeMsg.length = 16 ∧ crc32c (safeMsg.take 12) = leAtOf safeMsg 12 4 ∧ (z.conn 0).canId = 0x200 ∧ (z.rxAt 0).st = .wait ∧
    (z.rxAt 0).done ≠ some 1 ∧ 0 ≤ age z ∧ age z * 4 ≤ leAtOf z.safe.sdt 20 4 * 1000 ∧ (z.rxAt 0).win.find? (fun v => v.seq == 1) = none ∧
    (∀ m ∈ [safeMsg, []], ((s { win := [w m] } 0).rxAt 0).win.find? (fun v => v.seq == 1) = some (w m)) ∧ ((s { win := [w []] } 0).rxAt 0).st ≠ .fault ∧
    (w []).due ≤ z.clock ∧ ((s { st := .ok, at_ := 5 } 7).rxAt 0).st = .ok ∧ 5 + (z.conn 0).wd ≤ 7 ∧ 6 < 5 + (z.conn 0).wd := by decide +kernel

/-! ## Hypotheses met: supervisor pairs -/

/-- Pair `p` in Machine level, in frame 0, that fetches from its tightly coupled RAM. -/
def pair (p : Nat) (f : Sv → Sv) : State := (st []).setSv p (f { (st []).svAt p with up := true, pc := 0x08000100, st := 0xA00, rsv := 7 })

theorem meets_SupervisorArithmetic :
    let s := pair 0 id
    let low := pair 1 fun v => { v with st := 0x200, mpuBase := v.mpuBase.set 0 0x08000000, mpuLimit := v.mpuLimit.set 0 0x0807FFD7 }
    (∀ l ∈ [0, 1, 2], s.svCan 0 l = true) ∧ s.svIssues 0 = true ∧ (s.svAt 0).ten = true ∧ low.svCan 1 0 = true ∧ low.svCan 1 1 = false ∧
    (pair 0 fun v => { v with st := 0x800 }).svIssues 0 = true ∧ ((pair 0 fun v => { v with st := 0x800 }).svAt 0).ten = false ∧
    s.fc.window = false ∧ (s.svAt 0).restartedAt = none ∧ (10 ≤ 10 ∧ 10 < 11) ∧ svLegal 0xFFFFFFFF = false := by decide +kernel

theorem meets_SupervisorFrames :
    let s (st rsv : Word) := pair 0 fun v => ({ v with st := st, rsv := rsv, tstatus := 0x20A00 } : Sv).set 9 0x80000000 |>.set 10 0xFFFFFFFF
    let u := ((s 0xA00 7).svFetched 0).svAt 0
    let v (st rsv : Word) := (s st rsv).svAt 0
    u.get 10 ≠ 0 ∧ u.get 0 = 0 ∧ (u.get 9 = 0x80000000 ∧ u.get 10 = 0xFFFFFFFF) ∧ ¬ (u.get 10 = 0x80000000) ∧ (s 0xA00 7).svCan 0 2 = true ∧
    (v 0xA00 7).ten = true ∧ ((v 0xA00 7).cfr + 1) % 8 ≠ 7 ∧ ((v 0xA00 7).cfr + 7) % 8 = 7 ∧ ((v 0xA00 1).cfr + 1) % 8 = 1 ∧ ((v 0xA00 1).cfr + 7) % 8 ≠ 1 ∧
    (v 0x800 7).ten = false ∧ bits (v 0x800 7).tstatus.toNat 18 16 ≠ 7 ∧ (s 0x800 7).svIssues 0 = true ∧ (v 0x400 7).pl < 2 := by decide

/-- A region for uncached and one for cached data; an access that is denied, misaligned, refused; a line that is held; CAS that matches and one that does not. -/
theorem meets_SupervisorMemory :
    let s (a b : Word) (f : Sv → Sv) := { pair 0 fun v => f ((({ v with fsp := 0x08001020 } : Sv).set 1 a).set 2 b) with mem := [(0x09000040, 5)] }
    let r (s : State) := s.svFetched 0
    let v (s : State) := (r s).svAt 0
    let c : CacheLine := { line := 0x0A000000 / 64, data := 7, dirty := false }
    let ca (v : Sv) : Sv := { v with st := 0x600, mpuBase := (v.mpuBase.set 0 0x08000000).set 1 0x0A000000, mpuLimit := (v.mpuLimit.set 0 0x0807FFD7).set 1 0x0A07FFCF, dcache := [c] }
    let lo (v : Sv) : Sv := { v with st := 0x200, mpuBase := v.mpuBase.set 0 0x08000000, mpuLimit := v.mpuLimit.set 0 0x0800FFD5 }
    let t := s 0x08000040 5 id
    t.svCan 0 0 = true ∧ (v t).get 1 = 0x08000040 ∧ (v t).mpu .read 0x08000040 = some 0 ∧ (v t).mpu .write 0x08000040 = some 0 ∧ cachedAt 0 0x08000040 = false ∧
    (∀ n ∈ [1, 2, 4], ((r t).busRead .sv0 0x08000040 n).resp = .data 5 ∧ ((r t).busWrite .sv0 0x08000040 n 5).resp ≠ .busError) ∧
    ((v (s 0x0A000000 0 ca)).mpu .read 0x0A000000).isSome = true ∧ ((v (s 0x0A000000 0 ca)).mpu .read 0x0A000000).all (fun a => cachedAt a 0x0A000000) = true ∧
    findLine (v (s 0x0A000000 0 ca)).dcache (0x0A000000 / 64) = some c ∧ (s 0x0A000000 0 ca).svCan 0 0 = true ∧ (s 0 0 lo).svIssues 0 = true ∧ (v (s 0 0 lo)).mpu .read 0 = none ∧
    (v (s 0 0 lo)).mpu .write 0 = none ∧ 0x08000041 % 2 ≠ 0 ∧ ((r t).busRead .sv0 0xF0000000 4).resp = .busError ∧ (t.svAt 0).ten = true ∧
    (v t).get 2 = 5 ∧ (v (s 0x08000040 6 id)).get 2 ≠ 5 ∧ 2 ≤ (v t).pl ∧ ((v t).fsp - 32).toNat % 32 = 0 ∧ 0x08000000 ≤ ((v t).fsp - 32).toNat ∧
    ((v t).fsp - 32).toNat + 32 ≤ 0x08080000 ∧ (v t).fsp.toNat % 32 = 0 ∧ (v t).fsp.toNat + 32 ≤ 0x08080000 ∧
    (∀ k : Fin 16, ((v t).mpuLimit[k]).getLsbD 5 = false) ∧
    (∀ k : Fin 8, ((v t).mpu .write (0x08001022 + BitVec.ofNat 32 (4 * k.val) : Word).toNat).isSome = true ∧
      ((v t).mpu .read (0x08001022 + BitVec.ofNat 32 (4 * k.val) : Word).toNat).isSome = true) ∧ ((v (s 0 0 fun v => { v with fsp := 4 })).fsp - 32).toNat % 32 ≠ 0 := by decide +kernel

theorem meets_SupervisorSystem :
    let c : CacheLine := { line := 0x09000000 / 64, data := 7, dirty := true }
    let s (p : Nat) (w : Word) (f : Sv → Sv) := pair p fun v => f (({ v with dcache := [c] } : Sv).set 1 w)
    let v (s : State) (p : Nat) := (s.svFetched p).svAt p
    let t := s 1 0x09000000 id
    let low := s 0 0 fun v => { v with st := 0x600, mpuBase := v.mpuBase.set 0 0x08000000, mpuLimit := v.mpuLimit.set 0 0x0807FFD7 }
    (∀ x ∈ [(0, 1), (7, 0), (5, 2), (0x5F, 2)], crRead x.1 = some x.2) ∧ crRead 0x60 = none ∧ crWrite 0 = some 1 ∧ crWrite 0x2E = some 2 ∧ crWrite 0x2F = none ∧
    (∀ l ∈ [0, 1, 2], t.svCan 1 l = true) ∧ (low.svAt 0).pl = 1 ∧ low.svCan 0 1 = true ∧ bits (0x10800 : Word).toNat 11 10 ≠ 3 ∧
    bits (0x10800 : Word).toNat 18 16 ≠ (t.svAt 1).rsv.toNat % 8 ∧ bits (0xC00 : Word).toNat 11 10 = 3 ∧ bits (0x70000 : Word).toNat 18 16 = (t.svAt 1).rsv.toNat % 8 ∧
    (6 : Word).toNat % 8 ≠ (v t 1).cfr ∧ (8 : Word).toNat % 8 = (v t 1).cfr ∧ (0x20 ≤ 0x2E ∧ 0x2E < 0x2F) ∧ ((v t 1).mpuLimit[15]).getLsbD 5 = false ∧
    (((v (s 1 0 fun v => { v with mpuLimit := v.mpuLimit.set 3 0x20 }) 1).mpuLimit[3]).getLsbD 5 = true) ∧
    ((s 0 0 fun v => { v with waiting := true }).svAt 0).waiting = true ∧ (s 0 0 id).svTakes ((s 0 0 id).svAt 0) = none ∧
    findLine (v t 1).dcache (((v t 1).get 1).toNat / 64) = some c ∧ c.dirty = true ∧ 0x09000000 ≤ 64 * c.line ∧ 64 * c.line < 0x09080000 ∧
    findLine (v (s 1 0 id) 1).dcache 0 = none ∧ (pair 0 id |>.svAt 0).dcache.all (fun x => !x.dirty) = true ∧
    ((s 0 0 fun v => { v with st := 0x200 }).svAt 0).pl < 1 ∧
    (s 0 0 fun v => { v with st := 0x200, mpuBase := v.mpuBase.set 0 0x08000000, mpuLimit := v.mpuLimit.set 0 0x0807FFD7 }).svIssues 0 = true := by decide +kernel

/-- An interrupt that is taken, the budget trap, the restart window at its end and a tick earlier. -/
theorem meets_SupervisorEvents :
    let s (f : Sv → Sv) (c : Nat) := { pair 0 f with clock := c }
    let irq := s (fun v => { v with st := 0xB00, icCfg := [(1, 0x1F)], icEdge := [1] }) 0
    let bud := s (fun v => { v with ptCtl := 1, ptId := 0 }) 0
    let rec' (c : Nat) := s (fun v => { v with restartedAt := some 5 }) c
    let sum (v : Sv) := v.ptBud.toList.foldl (fun (n : Nat) w => n + w.toNat) 0
    irq.domOn (domSv 0) = true ∧ irq.fc.window = false ∧ (irq.svAt 0).up = true ∧ (irq.svAt 0).budgetPending = false ∧ irq.svTakes (irq.svAt 0) = some (15, 1) ∧
    (s id 0).svTakes ((s id 0).svAt 0) = none ∧ (bud.svAt 0).budgetPending = true ∧ (bud.svAt 0).ten = true ∧
    16 * (irq.grid.2.2 * irq.grid.1) < 5 * sum ((s (fun v => { v with ptBud := v.ptBud.set 0 4001 }) 0).svAt 0) ∧
    ¬ 16 * (irq.grid.2.2 * irq.grid.1) < 5 * sum ((s (fun v => { v with ptBud := v.ptBud.set 0 4000 }) 0).svAt 0) ∧
    ((s (fun v => { v with st := 0x200 }) 0).svAt 0).pl < 2 ∧ ((s (fun v => { v with ptId := 14 }) 0).svAt 0).ptId.toNat < 15 ∧
    (((rec' (4 + 60000 * msTicks)).svAt 0).restartedAt.any fun c => decide ((rec' (4 + 60000 * msTicks)).clock < c + 60000 * msTicks)) = true ∧
    (((rec' (5 + 60000 * msTicks)).svAt 0).restartedAt.any fun c => decide ((rec' (5 + 60000 * msTicks)).clock < c + 60000 * msTicks)) = false ∧
    ((st []).svAt 0).up = false ∧ (timed (st []) (.svRestart 0) 500).timerOn (.svRestart 0) = true ∧ vget (st []).boot.slot none 0 = none := by decide +kernel

/-! ## Hypotheses met: performance counters, acquisition, line time, Ethernet -/

/-- Who may and may not write; each unit's last event; a tag that is recorded and one that is lost. -/
theorem meets_PerformanceCounters :
    let s (lvl : Nat) := flds (pair 0 fun v => { v with st := BitVec.ofNat 32 (0x200 + 1024 * lvl), tagCnt := 0 }) [(TAG_CFG 0, Fld.TAG_CFG_EN, 1)]
    let t := s 0
    (s 1).level .sv0 ≠ 0 ∧ t.level .sv0 = 0 ∧ t.reachable PERF_CLR = true ∧ (13 < 14 ∧ 127 < 128 ∧ 63 < 64 ∧ 1 < 2) ∧
    (s 1).perfReadOk .sv0 (perfLoAddr 14 63) = true ∧ t.perfReadOk .sv0 (perfLoAddr 14 63) = false ∧ t.perfReadOk .wharf (perfLoAddr 0 255) = true ∧
    t.domOn domTP = true ∧ t.domOn (cntDomain 13) = true ∧ t.tagOn 0 = true ∧ (t.svAt 0).tagCnt = 0 ∧ (t.svAt 0).up = true ∧
    (flds t [(TAG_STAT 0, Fld.TAG_STAT_LEVEL, 15)]).fld (TAG_STAT 0) Fld.TAG_STAT_LEVEL < 16 ∧
    16 ≤ (flds t [(TAG_STAT 0, Fld.TAG_STAT_LEVEL, 16)]).fld (TAG_STAT 0) Fld.TAG_STAT_LEVEL ∧ t.reachable (TAG_CLR 0) = true ∧
    t.reachable (HIST_CFG 7) = true := by decide

/-- One probe of 8 bits; each state; a flight that DECIM divides and one that it does not; START that passes and one per check that does not. -/
theorem meets_AcquisitionCapture :
    let s (n decim w : Nat) (f : Acq → Acq) : State := let t := flds (st [(ACQ_TMASK_LO, 1), (ACQ_TVAL_LO, 1), (TT_STATUS, 0)]) [(TT_STATUS, Fld.TT_STATUS_RUNNING, 1),
      (ACQ_STAT, Fld.ACQ_STAT_STATE, n), (ACQ_CFG, Fld.ACQ_CFG_DECIM, decim), (ACQ_P_SRC 0, Fld.ACQ_P_SRC_EN, 1), (ACQ_P_SRC 0, Fld.ACQ_P_SRC_KIND, 1),
      (ACQ_P_SRC 0, Fld.ACQ_P_SRC_W, w), (ACQ_P_COND 0, Fld.ACQ_P_COND_OP, 1), (ACQ_P_LEVEL 0, ⟨31, 0⟩, 5)]
      { t with acq := f { t.acq with size := 2 }, tt := { t.tt with flightNo := 4 } }
    let di (t : State) := t.setReg FIO_DI 5
    let a := s 2 2 8 id
    let cond (t : State) (c : Nat) := t.acqCond c (t.sampleOf c)
    a.domOn domAQ = true ∧ a.running = true ∧ (st []).running = false ∧ (a.probe 0).on = true ∧ (a.probe 0).signed = false ∧ (a.probe 0).kind = 1 ∧
    a.tt.flightNo % 2 = 0 ∧ a.tt.flightNo % 3 ≠ 0 ∧ a.acq.size = a.probesOn.length + 1 ∧ depthOf a.acq.size ≠ 0 ∧ a.probesOn[0]? = some 0 ∧
    (∀ n ∈ [0, 1, 2, 3, 4], (s n 2 8 id).acqState = n) ∧ (di a).patternHolds (cond (di a)) = true ∧ a.patternHolds (cond a) = false ∧
    a.flag ACQ_CFG Fld.ACQ_CFG_TMODE = false ∧ (∀ m : Fin 4, a.flag (ACQ_M_CFG m) Fld.ACQ_M_CFG_EN = false) ∧ a.acq.force = false ∧
    (s 1 2 8 fun q => { q with force := true }).acq.force = true ∧ a.reachable ACQ_CTRL = true ∧ (s 0 1 24 id).acqStartOk = true ∧
    (s 0 1 25 id).acqStartOk = false ∧ (s 0 1 0 id).acqStartOk = false ∧ (st []).probesOn = [] ∧ (s 0 0 8 id).fld ACQ_CFG Fld.ACQ_CFG_DECIM = 0 ∧
    (s 0 1 25 id).probesOn = [0] ∧ 24 < ((s 0 1 25 id).probe 0).w ∧ depthOf 2 < ((s 0 1 8 id).setReg ACQ_POST 1048576).fld ACQ_POST Fld.ACQ_POST_RECORDS + 1 ∧
    ((s 0 1 8 id).setReg ACQ_POST 1048575).acqStartOk = true := by decide +kernel

theorem meets_TimeReads : (st []).domOn domNW = true := by decide

theorem meets_LineTimeCommands :
    let s (line : W64) : State := { st [(TIME_CMP 3, 5), (TIME_CMPSTAT, 8)] with time := { (st []).time with line := line } }
    let k (o : Option Int) : State := { st [(SYS_MODE, 3)] with time := { (st []).time with ofs := o } }
    let since (t : State) := BitVec.ofNat 32 t.ticks - t.reg (TIME_CMP 3)
    (s 0).domOn domNW = true ∧ ((st []).setReg (SYS_PWR_STAT 0) 0).domOn domNW = false ∧ (s 0).reachable (TIME_CMP 3) = true ∧
    ((s 0).reg TIME_CMPSTAT).getLsbD 3 = true ∧ (since (s 320)).msb = false ∧ (since (s 256)).msb = true ∧ ((st []).reg TIME_CMPSTAT).getLsbD 3 = false ∧
    (k none).reachable TIME_CTRL = true ∧ (k none).mode = .hold ∧ (∀ n : Fin 48, (k none).en n = false) ∧ axisCount (k none).part ≤ 48 ∧
    (st [(SYS_MODE, 4)]).mode = .run ∧ (st [(SYS_MODE, 5)]).mode = .degraded ∧ (st [(SYS_MODE, 6)]).mode = .safeStop ∧ (st [(PWM_CTRL 47, 1)]).en 47 = true ∧
    (k none).time.ofs = none ∧ (k (some 3)).time.ofs ≠ none := by decide

/-- A reference on each side of qualifying, the states and sources, offsets at LOCK_THR and STEP_THR. -/
theorem meets_PtpSyncs :
    let s (state src : Nat) (f : TimeSt → TimeSt) : State :=
      let t := flds (st [(ETH_CTRL, 1)]) [(ETH_P_STAT 0, ⟨0, 0⟩, 1), (ETH_P_STAT 1, ⟨0, 0⟩, 1), (TIME_PTP_CFG, Fld.TIME_PTP_CFG_DOMAIN, 7), (TIME_CTRL, Fld.TIME_CTRL_SERVO_EN, 1),
        (TIME_STAT, Fld.TIME_STAT_STATE, state), (TIME_STAT, Fld.TIME_STAT_SRC, src), (TIME_THR, Fld.TIME_THR_LOCK_THR, 1000), (TIME_THR, Fld.TIME_THR_STEP_THR, 100),
        (TIME_REF_CFG, ⟨31, 0⟩, 0x30000)]
      { t with clock := 10 ^ 9, time := f t.time, eth := { t.eth with gm := some 77 } }
    let refs (k : Nat) (x : TimeRef) (t : TimeSt) : TimeSt := { t with refs := t.refs.setIfInBounds k x }
    let f (o : Int) : PtpSync := { stamp := BitVec.ofInt 64 (16000000 + o), origin := 1000000, corr := 0, gm := 77, domain := 7, csro := 0, egress := 16001000 }
    let ref (s : State) : Int := 16 * 1000000 + 0 / 4096 + (s.reg (ETH_P_DELAY 0)).toInt + (s.reg (ETH_P_ASYM 0)).toInt - 16 * 1000000000 * 268435456 * s.fld TIME_EPOCH Fld.TIME_EPOCH_E
    let o (s : State) (f : PtpSync) : Int := f.stamp.toNat - ref s
    let q := s 0 3 (refs 0 { last := some (10 ^ 9 - 1000), run := 15, qual := false })
    let interval := 250000000 / 2 ^ ((16 - q.fld TIME_PTP_CFG Fld.TIME_PTP_CFG_LOG_SYNC) % 16)
    q.portUp 0 = true ∧ q.portUp 1 = true ∧ (flds q [(ETH_P_STAT 1, ⟨0, 0⟩, 0)]).portUp 1 = false ∧ (f 0).domain.toNat = q.fld TIME_PTP_CFG Fld.TIME_PTP_CFG_DOMAIN ∧
    q.eth.gm = some (f 0).gm ∧ (st []).eth.gm ≠ some 77 ∧ (0 ≤ ref q ∧ ref q ≤ 2 ^ 64) ∧ ¬ 0 ≤ ref (flds q [(TIME_EPOCH, Fld.TIME_EPOCH_E, 1)]) ∧
    q.fld TIME_REF_CFG Fld.TIME_REF_CFG_PRIO_PTP ≠ 15 ∧ (flds q [(TIME_REF_CFG, Fld.TIME_REF_CFG_PRIO_PTP, 15)]).fld TIME_REF_CFG Fld.TIME_REF_CFG_PRIO_PTP = 15 ∧
    q.flag TIME_CTRL Fld.TIME_CTRL_SERVO_EN = true ∧ (q.refAt 0).qual = false ∧ (q.refAt 0).last.any (fun l => decide (2 * (q.clock - l) ≤ 3 * interval)) = true ∧
    15 ≤ (q.refAt 0).run ∧ (∀ x ∈ [0, 1, 2, 3, 4, 5], (s x 0 id).timeState = x) ∧ (∀ x ∈ [0, 1, 2, 3], (s 1 x id).timeRef = x) ∧
    (o q (f 1000)).natAbs ≤ 1000 ∧ 1000 < (o q (f (-1001))).natAbs ∧ (o q (f 1000)).natAbs ≤ 10 * q.fld TIME_THR Fld.TIME_THR_STEP_THR ∧
    16 * 1000 < (o q (f 16001)).natAbs ∧ q.flag TIME_CTRL Fld.TIME_CTRL_STEP_OK = true ∧ (flds q [(TIME_CTRL, Fld.TIME_CTRL_STEP_OK, 0)]).flag TIME_CTRL Fld.TIME_CTRL_STEP_OK = false ∧
    q.stepAllowed = true ∧ (q.setReg SYS_MODE 4).stepAllowed = false ∧ (s 1 0 fun t => { t with good := 14 }).time.good < 15 ∧
    15 ≤ (s 1 0 fun t => { t with good := 15 }).time.good ∧ 0 < (flds q [(TIME_REF_CFG, Fld.TIME_REF_CFG_PRIO_CAN, 1)]).fld TIME_REF_CFG Fld.TIME_REF_CFG_PRIO_CAN ∧
    ((s 4 1 fun t => { t with cand := some 1 }).time.cand.any fun c => (flds q [(ETH_P_STAT 1, Fld.ETH_P_STAT_STEPS_REM, 1)]).refBetter 0 c) = true ∧
    ((s 4 0 fun t => { t with cand := some 1, prev := 2 }).time.cand ≠ some 0 ∧ (s 4 0 fun t => { t with prev := 2 }).time.prev ≠ 4 ∧ q.due .switchWindow = false) := by decide +kernel

/-- A reference that is lost at LOSS_N and one that is not, with another that qualifies and without; the holdover limit; ANNOUNCE keys on each side. -/
theorem meets_ReferenceStates :
    let s (state src : Nat) (f : TimeSt → TimeSt) (e : EthPort → EthPort) : State :=
      let t := flds (st [(ETH_CTRL, 1)]) [(ETH_P_STAT 0, ⟨0, 0⟩, 1), (TIME_PTP_CFG, Fld.TIME_PTP_CFG_DOMAIN, 7), (TIME_CTRL, Fld.TIME_CTRL_SERVO_EN, 1), (TIME_HOLD, Fld.TIME_HOLD_LIMIT, 1),
        (TIME_STAT, Fld.TIME_STAT_STATE, state), (TIME_STAT, Fld.TIME_STAT_SRC, src), (TIME_PTP_CFG, Fld.TIME_PTP_CFG_GM_CAP, 1), (TIME_REF_CFG, ⟨31, 0⟩, 0x30000)]
      { t with clock := 10 ^ 9, time := f t.time, eth := { t.eth with port := t.eth.port.set 1 (e (vget t.eth.port {} 1)) } }
    let refs (k : Nat) (x : TimeRef) (t : TimeSt) : TimeSt := { t with refs := t.refs.setIfInBounds k x }
    let lost (t : State) := (t.refAt 0).last.any (fun l => decide (t.fld TIME_REF_CFG Fld.TIME_REF_CFG_LOSS_N * t.syncInterval 0 ≤ t.clock - l))
    let gone := s 2 0 (refs 0 { last := some 0, run := 20, qual := true }) id
    let late := s 2 0 (fun t => refs 1 { last := some (10 ^ 9), run := 20, qual := true } (refs 0 { last := some 0, run := 20, qual := true } t)) id
    let w := timed (s 4 0 (fun t => { t with cand := some 1 }) id) .switchWindow (10 ^ 9)
    let f : Announce := { domain := 7, prio1 := 5, quality := 0xF8FE0000, prio2 := 248, gm := 79, steps := 0, sender := 5 }
    let key := prioKey f.prio1.toNat f.quality.toNat f.prio2.toNat f.gm.toNat f.steps.toNat f.sender.toNat
    gone.flag TIME_CTRL Fld.TIME_CTRL_SERVO_EN = true ∧ gone.fc.window = false ∧ lost gone = true ∧ lost (s 2 0 (refs 0 { last := some (10 ^ 9) }) id) = false ∧
    (gone.timeRef = 0 ∧ gone.timeState = 2) ∧ (∀ q : Fin 3, q ≠ 0 → (gone.refAt q).qual = false) ∧ late.bestOther 0 = some 1 ∧ lost late = true ∧
    ((s 3 0 (refs 0 { last := some 0 }) id).timeState = 3) ∧ w.time.cand = some 1 ∧ w.timeState = 4 ∧ w.due .switchWindow = true ∧ gone.time.cand = none ∧
    (s 3 0 (fun t => { t with holdAt := some (10 ^ 9 - 250000001) }) id).time.holdAt.any (fun c => decide (250000000 * max 1 1 < 10 ^ 9 - c)) = true ∧
    ¬ (250000000 < 10 ^ 9 - (10 ^ 9 - 250000000)) ∧ gone.flag TIME_STAT Fld.TIME_STAT_HOLD_LIM = false ∧ gone.portUp 0 = true ∧
    f.domain.toNat = gone.fld TIME_PTP_CFG Fld.TIME_PTP_CFG_DOMAIN ∧ gone.flag TIME_PTP_CFG Fld.TIME_PTP_CFG_GM_CAP = true ∧
    ((s 2 0 id fun p => { p with ann := some (key + 1, 80) }).ethPort 1).ann = some (key + 1, 80) ∧ (gone.ethPort 1).ann = none ∧ gone.domOn domNW = true := by decide +kernel

/-- The grandmaster's key is known only in part: PRIO1 alone makes the own key the better or the worse one, and another clock is not the own one. -/
theorem own_key_bounds (s : State) : s.ownKey / 2 ^ 200 = s.fld TIME_PTP_CFG Fld.TIME_PTP_CFG_PRIO1 ∨ 256 ≤ s.fld TIME_PTP_CFG Fld.TIME_PTP_CFG_PRIO2 := by
  have hq := Config.clockQuality.isLt
  have hc := s.ownClock.isLt
  unfold State.ownKey prioKey
  omega

theorem meets_grandmaster_keys :
    let s (p : Nat) := flds (st []) [(TIME_PTP_CFG, Fld.TIME_PTP_CFG_PRIO1, p)]
    (s 4).ownKey < prioKey 5 0 0 0 0 0 ∧ prioKey 5 0 0 0 0 0 ≤ (s 6).ownKey := by
  refine ⟨?_, ?_⟩
  · have h : ∀ t : State, t.fld TIME_PTP_CFG Fld.TIME_PTP_CFG_PRIO1 = 4 → t.fld TIME_PTP_CFG Fld.TIME_PTP_CFG_PRIO2 < 256 → t.ownKey < prioKey 5 0 0 0 0 0 := by
      intro t h1 h2; have := own_key_bounds t; rw [h1] at this; unfold prioKey; omega
    exact h _ (by decide) (by decide)
  · have h : ∀ t : State, t.fld TIME_PTP_CFG Fld.TIME_PTP_CFG_PRIO1 = 6 → t.fld TIME_PTP_CFG Fld.TIME_PTP_CFG_PRIO2 < 256 → prioKey 5 0 0 0 0 0 ≤ t.ownKey := by
      intro t h1 h2; have := own_key_bounds t; rw [h1] at this; unfold prioKey; omega
    exact h _ (by decide) (by decide)

def eth (l : List (Nat × Fld × Nat)) (f : Eth → Eth) : State :=
  let t := flds (st [(ETH_CTRL, 1)]) ([(ETH_P_STAT 0, ⟨0, 0⟩, 1), (ETH_P_STAT 1, ⟨0, 0⟩, 1), (ETH_MAC_HI, ⟨31, 0⟩, 0x0200), (ETH_MAC_LO, ⟨31, 0⟩, 0x11)] ++ l)
  { t with eth := f t.eth }
def ethp (l : List (Nat × Fld × Nat)) (x : EthPort → EthPort) : State := eth l fun e => { e with port := e.port.set 0 (x e.port[0]) }

theorem meets_PortsAndPeerDelay :
    let s := ethp [(ETH_P_CFG 0, Fld.ETH_P_CFG_MODE, 1)] id
    let off := eth [(ETH_P_STAT 0, ⟨0, 0⟩, 0), (ETH_P_CFG 0, Fld.ETH_P_CFG_MODE, 0)] id
    s.portUp 0 = true ∧ off.portUp 0 = false ∧ ((ethp [] fun x => { x with t1 := some 5 }).ethPort 0).t1 = some 5 ∧ (s.ethPort 0).t1 = none ∧
    (eth [(TIME_STAT, Fld.TIME_STAT_STATE, 5)] id).timeState = 5 ∧ s.timeState ≠ 5 ∧ s.domOn domNW = true ∧ s.fld (ETH_P_CFG 0) Fld.ETH_P_CFG_MODE ≠ 0 ∧
    off.fld (ETH_P_CFG 0) Fld.ETH_P_CFG_MODE = 0 ∧ s.flag (ETH_P_STAT 0) Fld.ETH_P_STAT_LINK = true ∧ off.flag (ETH_P_STAT 0) Fld.ETH_P_STAT_LINK = false := by decide

/-- Frames at the size limits, own and foreign, with and without a tag that was seen; the duplicate table full; supervision after 2 and 3 intervals. -/
theorem meets_SwitchAndHsr :
    let s (h : Nat) (f : Eth → Eth) := eth [(ETH_CTRL, Fld.ETH_CTRL_HSR_EN, h)] f
    let f (n : Nat) (src : BitVec 48) (tag : Option (BitVec 16)) : EthFrame := { dst := 0xFFFFFFFFFFFF, src := src, hsr := tag, etype := 0x88FB, data := List.replicate n 0 }
    let size (f : EthFrame) := 18 + (if f.hsr.isSome then 6 else 0) + f.data.length
    (s 0 id).portUp 0 = true ∧ size (f 45 1 none) < 64 ∧ (64 ≤ size (f 46 1 none) ∧ size (f 46 1 none) ≤ 9216) ∧ 9216 < 18 + 9199 ∧
    (s 0 id).flag ETH_CTRL Fld.ETH_CTRL_HSR_EN = false ∧ (s 1 id).flag ETH_CTRL Fld.ETH_CTRL_HSR_EN = true ∧ (f 46 1 none).fcsOk = true ∧
    (s 1 id).ownMac = 0x020000000011 ∧ (f 46 1 none).src ≠ (s 1 id).ownMac ∧ (f 46 1 none).dst ≠ (s 1 id).ownMac ∧ (f 46 1 none).dst.getLsbD 40 = true ∧
    ((s 1 fun e => { e with dup := [(1, 7, 0)] }).eth.dup.any (fun d => d.1 == (1 : BitVec 48).toNat && d.2.1 == (7 : BitVec 16).toNat)) = true ∧
    (s 1 id).eth.dup.any (fun d => d.1 == 1 && d.2.1 == 7) = false ∧ (s 1 id).eth.dup.length < 512 ∧ (s 1 id).hsrOn = true ∧ (s 0 id).hsrOn = false ∧
    3 ≤ (s 1 fun e => { e with sup := 3 }).eth.sup ∧ (s 1 fun e => { e with sup := 2 }).eth.sup < 3 ∧ (f 40 1 (some 7)).hsr = some 7 ∧ 64 ≤ size (f 40 1 (some 7)) := by decide

theorem meets_a_full_duplicate_table : (List.replicate 512 (1, 7, 0) : List (Nat × Nat × Nat)).length = 512 := List.length_replicate

/-- The expiry of an entry at its tick; a scheduled change at its time; a queue with room and one that is full; a launch at its instant, and late. -/
theorem meets_GatesAndLaunches :
    let s (line : W64) (x : EthPort → EthPort) : State := let t := ethp [(ETH_P_CYCLE 0, ⟨31, 0⟩, 5), (ETH_P_CHANGE_TIME 0, ⟨31, 0⟩, 2), (ETH_P_QBV_CTRL 0, Fld.ETH_P_QBV_CTRL_LEN, 3)] x
      { t with time := { t.time with line := line } }
    let e : LaunchEnt := { addr := 0, len := 64, cls := 6, at_ := 100 }
    let q (l : List LaunchEnt) (x : EthPort) : EthPort := { x with lq := l }
    let run (x : EthPort) : EthPort := { x with len := 2, idx := 1, fin := 128 }
    let due (t : State) := (BitVec.ofNat 32 t.ticks - t.reg (ETH_P_CHANGE_TIME 0)).msb = false
    (s 128 run).domOn domNW = true ∧ ((s 128 run).ethPort 0).idx < ((s 128 run).ethPort 0).len ∧ ((s 128 run).ethPort 0).fin ≤ 128 ∧
    (127 : W64) < ((s 127 run).ethPort 0).fin ∧ (s 0 id).reg (ETH_P_CYCLE 0) ≠ 0 ∧ ((st []).setReg (ETH_P_CYCLE 0) 0).reg (ETH_P_CYCLE 0) = 0 ∧
    due (s 128 id) ∧ ¬ due (s 64 id) ∧ ((s 0 fun x => { x with change := true }).ethPort 0).change = true ∧ (s 0 id).reachable (ETH_P_QBV_CTRL 0) = true ∧
    (s 0 id).reachable (ETH_P_LQ_PUSH 0 + 12) = true ∧ ((s 0 id).ethPort 0).lq.length < 64 ∧
    ((s 0 (q [e])).ethPort 0).lq.getLast?.any (fun y => decide ((0 : W64) < y.at_)) = true ∧ (s 100 (q [e])).portUp 0 = true ∧ e.at_ ≤ 100 ∧ (99 : W64) < e.at_ ∧
    ((s 100 (q [e])).ethPort 0).gates.testBit 6 = true ∧ ((s 100 (q [e])).ethPort 0).len = 0 ∧ ((s 0 fun x => { x with gates := 0 }).ethPort 0).gates.testBit 6 = false ∧
    e.at_.toNat + 64 * (s 0 id).fld (ETH_P_LQ 0) Fld.ETH_P_LQ_LATE_NS < 2 ^ 30 ∧ ((s 0 id).ethPort 0).lq = [] ∧
    (100 : W64).toNat ≤ e.at_.toNat + 64 * (s 100 (q [e])).fld (ETH_P_LQ 0) Fld.ETH_P_LQ_LATE_NS := by decide

/-- A gate that stays open through the next entry, one that closes behind it, and a list that fills its cycle (R447). -/
theorem test_gate_run :
    let x : EthPort := { len := 3, idx := 0, gates := 64, fin := 1600, gcl := [(0, 0x40000064), (1, 0x40000064), (2, 0x01000064)] }
    let y : EthPort := { x with idx := 1, gcl := [(0, 0x40000064), (1, 0x40000064), (2, 0x40000064)] }
    x.fits 6 13 300 0 = true ∧ x.fits 6 14 300 0 = false ∧ x.fits 0 1 300 0 = false ∧ y.fits 6 1000 300 0 = true ∧ y.fits 6 1000 301 0 = false := by decide

theorem meets_a_full_launch_queue : 64 ≤ (List.replicate 64 ({ addr := 0, len := 64, cls := 6, at_ := 100 } : LaunchEnt)).length := by decide

def tl (l : List (Nat × Fld × Nat)) (f : Eth → Eth) : State :=
  eth ([(SYS_ADDR, ⟨13, 0⟩, 5), (SYS_ADDR, Fld.SYS_ADDR_VALID, 1)] ++ l) f

/-- A module with an address and one without; objects that are the subscription's and newer, and not; 1 to 40 bytes; the FIFO's limits. -/
theorem meets_TowlineCyclic :
    let s (f : Eth → Eth) := tl [(ETH_TL_SUB 63, Fld.ETH_TL_SUB_EN, 1), (ETH_TL_SUB 63, Fld.ETH_TL_SUB_AXIS, 9), (ETH_TL_CFG, Fld.ETH_TL_CFG_CYC_F, 1), (ETH_TL_CFG, Fld.ETH_TL_CFG_CYC_PH, 0)] f
    let h : TlHdr := { src := 1, dst := 5, seq := 0 }
    let o : TlObj := { axis := 9, p := 1, v := 2, a := 3 }
    let m (n : Nat) : List TlMsg := List.replicate n { src := 1, data := [1] }
    let cfg := (s id).reg (ETH_TL_SUB 63)
    let had (fx : Word) := s fun e => { e with subs := e.subs.set 63 (some { p := 0, v := 0, a := 0, fx := fx }) }
    let newer (t : State) := (vget t.eth.subs none 63).all (fun x => decide (0 < ((7 : Word) - x.fx).toInt)) = true
    (s id).domOn domNW = true ∧ (s id).flag ETH_CTRL Fld.ETH_CTRL_EN = true ∧ (st []).flag ETH_CTRL Fld.ETH_CTRL_EN = false ∧ (s id).ownAddr = some h.dst.toNat ∧
    (eth [] id).ownAddr = none ∧ ({ h with dst := 0x8000 } : TlHdr).dst.toNat = 0x8000 ∧ ¬ ((s id).ownAddr = some 6) ∧
    (fget cfg Fld.ETH_TL_SUB_EN = 1 ∧ fget cfg Fld.ETH_TL_SUB_AXIS = o.axis.toNat ∧ o.kind = 0) ∧ (8 : BitVec 20).toNat ≠ fget cfg Fld.ETH_TL_SUB_AXIS ∧
    newer (s id) ∧ newer (had 6) ∧ ¬ newer (had 7) ∧ (List.replicate 9 o).length = 9 ∧ (1 ≤ 1 ∧ 40 ≤ 40 ∧ 40 < 41) ∧
    (s fun e => { e with msgs := m 31 }).eth.msgs.length < 32 ∧ 32 ≤ (s fun e => { e with msgs := m 32 }).eth.msgs.length ∧
    (s fun e => { e with msgs := m 1, seen := 0x3FF }).eth.msgs = [{ src := 1, data := [1] }] ∧ (s fun e => { e with seen := 0x3FF }).eth.seen = 0x3FF ∧
    (s id).eth.msgs = [] ∧ (s id).fld ETH_TL_CFG Fld.ETH_TL_CFG_CYC_F = 1 ∧ (s id).tt.flightNo % 1 = (s id).fld ETH_TL_CFG Fld.ETH_TL_CFG_CYC_PH ∧
    (tl [] id).fld ETH_TL_CFG Fld.ETH_TL_CFG_CYC_F = 0 ∧ (tl [] id).ownAddr ≠ none := by decide

/-- A kept answer and none; the access bits; counts 1, 64 and 65; reads and writes that pass and that stop; a barge list of 1 and 8 entries. -/
theorem meets_TowlineRequests :
    let s (acc : Word) (m : Word) (k : List TlAnswer) := (tl [] fun e => { e with kept := k }).setReg ETH_TL_ACC acc |>.setReg SYS_MODE m
    let h : TlHdr := { src := 1, dst := 5, seq := 7 }
    let x : TlAnswer := { src := 1, seq := 7, data := [9] }
    let find (t : State) := t.eth.kept.find? (fun y => y.src == h.src.toNat && y.seq == h.seq.toNat)
    let a := s 7 4 []
    a.domOn domNW = true ∧ a.flag ETH_CTRL Fld.ETH_CTRL_EN = true ∧ a.ownAddr = some h.dst.toNat ∧ ¬ (a.ownAddr = some 6) ∧ find a = none ∧
    find (s 7 4 [x]) = some x ∧ ((s 1 0 []).reg ETH_TL_ACC).getLsbD 0 = true ∧ ((s 0 0 []).reg ETH_TL_ACC).getLsbD 0 = false ∧
    ((s 2 2 []).reg ETH_TL_ACC).getLsbD 1 = true ∧ (s 2 2 []).mode = .commission ∧ (a.reg ETH_TL_ACC).getLsbD 2 = true ∧ a.mode = .run ∧
    ((s 2 4 []).reg ETH_TL_ACC).getLsbD 2 = false ∧ (a.tlReadWords 0x09000000 2).2.2 = none ∧ (a.tlReadWords 0xF0000000 2).2.2 = some 0 ∧
    (a.tlReadWords 0x0907FFFC 2).2.2 = some 1 ∧ (a.tlWriteWords 0x09000000 [1, 2]).2 = none ∧ (a.tlWriteWords 0x0907FFFC [1, 2]).2 = some 1 ∧
    (0x09000000 ≤ 0x0907FFF8 ∧ 0x0907FFF8 + 4 * 2 ≤ 0x09080000) ∧ a.domOn (domSv 0) = true := by decide

/-! ## Hypotheses met: basin, CAN, field input and output -/

/-- MARK with SEQ 0, with SEQ 5, with a byte that must be 0; the same of a law; REGW of a system register: descriptors with their CRC. -/
def mark : Desc := 0x58296a09000000000000000000000000000000000000000000000000000000000000000000000000000000000000000000000000000000000000000900000107
def mark5 : Desc := 0x335322cf000000000000000000000000000000000000000000000000000000000000000000000000000000000000000000000000000000000000000900050107
def markBody : Desc := 0x6394e21b000000000000000000000000000000000000000000000000000000000000000000000000000000000000000000010000000000000000000000000107
def law : Desc := 0x2fb0a16a000000000000000000000000000000000000000000000000000000000000000000000000000000000000000000000000000000000000000000000001
def regwSys : Desc := 0x57c760aa00000000000000000000000000000000000000000000000000000000000000000000000000ff00000001400000000000000000000000000000000012

/-- Queue `q` and the descriptors. -/
def bas (q : Nat) (x : Queue) (d : List (Nat × Desc)) : State :=
  let s := flds ((st []).setQueue q x) [(BASIN_Q_CFG q, Fld.BASIN_Q_CFG_QRES, 2), (BASIN_Q_CFG q, Fld.BASIN_Q_CFG_BORROW, 0), (BASIN_Q_SEQ q, Fld.BASIN_Q_SEQ_NEXT, 0)]
  { s with basin := { s.basin with desc := d } }

/-- Every code of a check, in order. -/
theorem meets_Submission :
    let s (x : Queue) := bas 64 x []
    let c (n : Nat) (d : Desc) := { s {} with basin := { (s {}).basin with checks := [(initNo .sv0, n, d)] } }
    (s {}).reachable BASIN_SUBMIT = true ∧ (s {}).basin.checks.find? (fun c => c.1 == initNo .sv0) = none ∧
    (c 64 mark).basin.checks.find? (fun c => c.1 == initNo .sv0) = some (initNo .sv0, 64, mark) ∧
    (∀ e ∈ [(80, mark, 1), (64, 0, 2), (64, law, 3), (64, mark5, 4), (64, markBody, 5), (64, regwSys, 6), (64, mark, 0)], (s {}).submitCode e.1 e.2.1 = e.2.2) ∧
    (s { stopFw := true, stopped := true }).submitCode 64 mark = 7 ∧ (s { fromRes := [3] }).submitCode 64 mark = 0 ∧ (s { fromRes := [3, 4] }).submitCode 64 mark = 8 ∧
    { st [] with part := .fa24 }.submitCode 24 mark = 1 ∧ (64 < 80 ∧ 23 < 24) := by decide +kernel

/-- Reports that retire nothing, the executing barge with and without NOTIFY, that start the next one; the notification FIFO; RESUME that may be set and may not. -/
theorem meets_ReportsAndStops :
    let s (x : Queue) := bas 5 x [(3, mark), (4, mark5)]
    let r : W64 := 0x0000000100000005
    let b := s { queued := [4] }
    let e := s { exec := some 3, queued := [4] }
    let done (t : State) := t.fld (BASIN_Q_SEQ 5) Fld.BASIN_Q_SEQ_DONE
    let covers (t : State) (dn i : Nat) := seqAfter (dSeq (t.desc i)) (done t) && (dSeq (t.desc i) == dn || seqAfter dn (dSeq (t.desc i)))
    let prev := e.setFld (BASIN_Q_SEQ 5) Fld.BASIN_Q_SEQ_DONE 0xFFFF
    let n : Note := { queue := 5, seq := 0, tag := 9, result := 0 }
    let g (law : Nat) := (s {}).setFld (BASIN_Q_STAT 5) Fld.BASIN_Q_STAT_LAW law
    b.domOn domTP = true ∧ queuePresent b.part 5 = true ∧ queuePresent .fa24 24 = false ∧ ((b.queueAt 5).held.all fun i => !covers b 0 i) = true ∧
    (b.queueAt 5).exec = none ∧ (b.queueAt 5).queued = [4] ∧ (0x10000000005 : W64).getLsbD 40 = true ∧ dSeq (b.desc 4) = bits r.toNat 15 0 ∧
    (prev.queueAt 5).exec = some 3 ∧ covers prev 0 3 = true ∧ [4].all (fun i => !covers prev 0 i) = true ∧ dSeq (prev.desc 3) = 0 ∧ (dFlags mark).testBit 0 = true ∧
    (dFlags law).testBit 0 = false ∧ prev.basin.notes.length < 256 ∧ { b with basin := { b.basin with notes := [n] } }.basin.notes = [n] ∧ b.basin.notes = [] ∧
    b.reachable (BASIN_Q_CTRL 79) = true ∧ (st24 []).reachable (BASIN_Q_CTRL 24) = false ∧
    ((g 7).groupOf 5).all (fun j => (g 7).fld (BASIN_Q_STAT j) Fld.BASIN_Q_STAT_LAW == 7 && bits ((g 7).queueAt j).stopSrc 3 0 == 0) = true ∧
    ((g 6).groupOf 5).all (fun j => (g 6).fld (BASIN_Q_STAT j) Fld.BASIN_Q_STAT_LAW == 7 && bits ((g 6).queueAt j).stopSrc 3 0 == 0) = false := by decide +kernel

theorem meets_a_full_notification_queue : 256 ≤ (List.replicate 256 ({ queue := 5, seq := 0, tag := 9, result := 0 } : Note)).length := by decide +kernel

/-- A descriptor of each type from its START on and a tick before; each target of MSG, REGW and DMA. -/
theorem meets_Dispatcher :
    let s (d : Desc) (f : Queue → Queue) (line : W64) := { (bas 64 (f { queued := [3] }) [(3, d)]).setReg SYS_MODE 3 with time := { (st []).time with line := line } }
    let d (l : List Byte) : Desc := BitVec.ofNat 512 (leNat l)
    let start : List Byte := [5, 0, 0, 0, 0, 0, 0, 0]
    let msg (kind len tgt : Byte) := d ([0x11, 0, 0, 0, 0, 0] ++ start ++ [kind, len, tgt, 0])
    let rw (flags : Byte) (a : Nat) := d ([0x12, flags, 0, 0, 0, 0] ++ start ++ leBytes 4 a ++ leBytes 4 1 ++ leBytes 4 0xFF)
    let dma (src dst len : Nat) := d ([0x13, 0, 0, 0, 0, 0] ++ start ++ leBytes 4 src ++ leBytes 4 dst ++ leBytes 4 len)
    let m := s mark id 0
    let f (x : Desc) (o n : Nat) := dfld x o n
    m.behind 64 = false ∧ (s mark id 0).fc.window = false ∧ dCrcOk mark = true ∧ dCrcOk (msg 0 1 1) = false ∧
    (let t := (m.setQueue 65 { queued := [3] }); (t.queueAt 65).queued = [3] ∧ t.behind 65 = true ∧ t.behind 64 = false) ∧ (m.queueAt 64).exec = none ∧ (m.queueAt 64).queued = [3] ∧ m.domOn domTP = true ∧ (m.queueAt 64).stopped = false ∧ m.desc 3 = mark ∧ f mark 0 1 = 7 ∧
    f mark 6 8 = 0 ∧ f (msg 0 1 1) 6 8 = 5 ∧ (((s mark fun q => { q with stopped := true }) 0).queueAt 64).stopped = true ∧
    (((s mark fun q => { q with exec := some 3, queued := [] }) 0).queueAt 64).exec = some 3 ∧ m.fiOn = true ∧
    (∀ k ∈ [(0 : Byte), 1, 2], f (msg k 40 127) 0 1 = 0x11 ∧ f (msg k 40 127) 14 1 = k.toNat ∧ f (msg k 40 127) 16 2 < 128 ∧ f (msg k 40 127) 15 1 ≤ 40) ∧ m.eth.sendq.length < 32 ∧
    m.domOn domCN = true ∧ m.obj 0 127 objDir = 0 ∧ ((m.setObj 0 127 objDir 1).obj 0 127 objOwn = 0 ∧ (m.setObj 0 127 objDir 1).obj 0 127 objDir = 1) ∧
    f (rw 0 TIME_THR) 0 1 = 0x12 ∧ f (rw 0 TIME_THR) 14 4 = TIME_THR ∧ (dFlags (rw 0 TIME_THR)).testBit 3 = false ∧ TIME_THR / 0x10000 = 0x4005 ∧ TIME_SERVO ≤ TIME_THR ∧
    m.domOn domNW = true ∧ m.absent .sc 0x404C0000 = true ∧ TIME_THR % 4 = 0 ∧ (TIME_THR + 2) % 4 ≠ 0 ∧ (dFlags (rw 8 TIME_EPOCH)).testBit 3 = true ∧ m.epochOk = true ∧
    isCp TIME_THR = false ∧ f (dma 0x14000000 0x0907FFF0 16) 0 1 = 0x13 ∧ (0x14000000 ≤ 0x147FFFF0 ∧ 0x147FFFF0 + 16 ≤ 0x14800000 ∧ 0x147FFFF0 % 8 = 0) ∧
    (0x09000000 ≤ 0x0907FFF0 ∧ 0x0907FFF0 + 16 ≤ 0x09080000) ∧ m.domOn domAQ = true ∧ m.domOn (domSv 0) = true ∧ m.bytesAt .sc 0xF0000000 8 = none ∧
    memTarget m.part .sc 0xF0000000 8 = none := by decide +kernel

def can (l : List (Nat × Fld × Nat)) (x : Can) : State :=
  let s := flds (st []) ([(CAN_CTRL 0, Fld.CAN_CTRL_EN, 1), (CAN_STAT 0, Fld.CAN_STAT_SYNCED, 1), (CAN_STAT 0, Fld.CAN_STAT_STATE, 0)] ++ l)
  { s with can := s.can.set 0 x }

/-- Objects owned, armed, on the bus; frames that match an armed object, one that is not armed, none, the time reference; the error limits. -/
theorem meets_CanObjects :
    let s (l : List (Nat × Fld × Nat)) (x : Can) := can l x
    let ctl := CAN_OBJ 0 7 + 8
    let tx (x : Can) := s [(ctl, objOwn, 1), (ctl, objDir, 1)] x
    let rx (own : Nat) := s [(ctl, objOwn, own), (CAN_OBJ 0 7, ⟨28, 0⟩, 5), (CAN_OBJ 0 7 + 4, ⟨28, 0⟩, 0x1FFFFFFF)] {}
    let f : CanFrame := { id := 5, ide := false, fdf := true, dlc := 9, data := List.replicate 12 1 }
    (rx 1).reachable ctl = true ∧ (rx 1).obj 0 7 objOwn = 1 ∧ (rx 0).obj 0 7 objOwn = 0 ∧ ((tx {}).canAt 0).onBus = none ∧ ((tx {}).canAt 0).rel.contains 7 = false ∧
    (tx {}).obj 0 7 objDir = 1 ∧ ((tx { onBus := some 7 }).canAt 0).onBus = some 7 ∧ (tx {}).canSynced 0 = true ∧ (tx {}).fld (CAN_STAT 0) Fld.CAN_STAT_STATE < 2 ∧
    ((tx { onBus := some 7, rel := [7] }).canAt 0).rel.contains 7 = true ∧ (tx {}).obj 0 7 objOneshot = 0 ∧ (s [(CAN_CTRL 0, Fld.CAN_CTRL_EN, 0)] {}).canSynced 0 = false ∧
    (s [] {}).fld (CAN_CTRL 0) Fld.CAN_CTRL_MODE ≠ 2 ∧ (∀ m ∈ [0, 1, 2], (s [(CAN_CTRL 0, Fld.CAN_CTRL_MODE, m)] {}).fld (CAN_CTRL 0) Fld.CAN_CTRL_MODE = m) ∧
    (rx 1).objMatches 0 7 f = true ∧ (rx 1).isTimeRef 0 f = false ∧ f.data.length = dlcLen f.dlc ∧
    (s [(CAN_TM_CFG 0, Fld.CAN_TM_CFG_MODE, 2), (CAN_TM_ID 0, Fld.CAN_TM_ID_ID, 5)] {}).isTimeRef 0 f = true ∧
    (∀ j : Fin 128, (s [] {}).objMatches 0 j { f with ide := true } = false) ∧ (∀ v ∈ [247, 248], ((s [] { tec := v }).canAt 0).tec = v) ∧
    (s [(CAN_STAT 0, Fld.CAN_STAT_REC, 128)] {}).fld (CAN_STAT 0) Fld.CAN_STAT_REC = 128 := by decide +kernel

/-- The lowest armed object that matches is the hypothesis' object, every lower one is owned by firmware and matches nothing else. -/
theorem meets_a_frame_for_an_object :
    let t := can [(CAN_OBJ 0 7, ⟨29, 29⟩, 1)] {}
    let f : CanFrame := { id := 0, ide := true, dlc := 1, data := [1] }
    (t.objMatches 0 7 f = true ∧ ∀ j : Fin 128, t.objMatches 0 j f = true → 7 ≤ j.val) ∧ (∀ j : Fin 128, t.objMatches 0 j f = true → t.obj 0 j objOwn = 0) := by decide +kernel

/-- Enabled and not, in and out of bus-off; the master at its flight; a follower whose message completes a Sync, is not whole, is of another epoch. -/
theorem meets_CanStates :
    let s := can []
    let off := can [(CAN_CTRL 0, Fld.CAN_CTRL_EN, 0)] {}
    let bus := can [(CAN_STAT 0, Fld.CAN_STAT_STATE, 2), (CAN_STAT 0, Fld.CAN_STAT_RECOVERING, 1)] {}
    let m := can [(CAN_TM_CFG 0, Fld.CAN_TM_CFG_MODE, 1), (CAN_TM_CFG 0, Fld.CAN_TM_CFG_CYC_F, 3)]  {}
    let f := can [(CAN_TM_CFG 0, Fld.CAN_TM_CFG_MODE, 2)] { tmPrev := some (255, 9) }
    (s {}).reachable (CAN_CTRL 0) = true ∧ fget (fset 0 Fld.CAN_CTRL_MODE 3) Fld.CAN_CTRL_MODE = 3 ∧ (s {}).flag (CAN_CTRL 0) Fld.CAN_CTRL_EN = true ∧
    off.flag (CAN_CTRL 0) Fld.CAN_CTRL_EN = false ∧ fget 0 Fld.CAN_CTRL_MODE = (s {}).fld (CAN_CTRL 0) Fld.CAN_CTRL_MODE ∧
    fget (fset 0 Fld.CAN_CTRL_MODE 1) Fld.CAN_CTRL_MODE ≠ (s {}).fld (CAN_CTRL 0) Fld.CAN_CTRL_MODE ∧ fget 0 Fld.CAN_CTRL_REC_REQ = 0 ∧
    (bus.fld (CAN_STAT 0) Fld.CAN_STAT_STATE = 2 ∧ bus.canEn 0 = true ∧ bus.flag (CAN_STAT 0) Fld.CAN_STAT_RECOVERING = true ∧ bus.fld (CAN_STAT 0) Fld.CAN_STAT_TEC ≤ 255) ∧
    ((can [(CAN_STAT 0, Fld.CAN_STAT_SYNCED, 0)] {}).flag (CAN_STAT 0) Fld.CAN_STAT_SYNCED = false) ∧ off.canEn 0 = false ∧
    ((s { onBus := some 5 }).canAt 0).onBus = some 5 ∧ (m.canSynced 0 = true ∧ m.fld (CAN_TM_CFG 0) Fld.CAN_TM_CFG_MODE = 1 ∧
      m.fld (CAN_TM_CFG 0) Fld.CAN_TM_CFG_CYC_F ≠ 0 ∧ m.tt.flightNo % 3 = 0) ∧ f.fld (CAN_TM_CFG 0) Fld.CAN_TM_CFG_MODE = 2 ∧
    (0 : BitVec 16).toNat = f.fld TIME_EPOCH Fld.TIME_EPOCH_E ∧ (1 : BitVec 16).toNat ≠ f.fld TIME_EPOCH Fld.TIME_EPOCH_E ∧ (f.canAt 0).tmPrev = some (255, 9) ∧
    ((3 : Byte).getLsbD 0 = true ∧ (3 : Byte).getLsbD 1 = true ∧ (0 : Byte).toNat = (255 + 1) % 256) ∧ (m.canAt 0).tmPrev = none ∧ f.domOn domNW = true := by decide +kernel

def fio (f : Fio → Fio) : State := { st [] with fio := f (st []).fio, clock := 30000 }

/-- The fail-safe time at its end and a tick before; the third lost frame; a pair with unequal filters. -/
theorem meets_FieldLink :
    let s (f : Fio → Fio) := fio f
    let u := safeSt id id
    let g (t : State) (j : Nat) := (t.reg (FIO_DI_CFG j)).toNat &&& 0x17FFF
    let w := u.setReg (FIO_DI_CFG 16) (u.reg (FIO_DI_CFG 16) ^^^ 1)
    let fr (q c : Nat) : List Byte := [BitVec.ofNat 8 q, 0x55, BitVec.ofNat 8 (c / 256), BitVec.ofNat 8 c]
    let c0 := crc16 [0, 0x55]
    fieldFrameOk (fr 0 c0) (s id).fio.seqDn = true ∧ fieldFrameOk (fr 0 c0) (s id).fio.seqUp = true ∧ fieldFrameOk (fr 1 c0) 0 = false ∧
    fieldFrameOk (fr 0 c0) 1 = false ∧ fieldFrameOk [] 0 = false ∧
    (s id).fiOn = true ∧ (s id).hwSafeOn = false ∧ ((s id).setFld FC_STAT Fld.FC_STAT_HWSAFE 1).hwSafeOn = true ∧ (s id).fio.fsAct = false ∧
    (s fun x => { x with downAt := 5000 }).fio.downAt + 25000 ≤ (s id).clock ∧ (s id).clock < (s fun x => { x with downAt := 5001 }).fio.downAt + 25000 ∧
    (s fun x => { x with fsAct := true, fsNew := true }).fio.fsNew = true ∧ (s id).fc.window = false ∧ 3 ≤ (s fun x => { x with lost := 3 }).fio.lost ∧
    ((s id).setFld FIO_STAT Fld.FIO_STAT_LINK_OK 1).flag FIO_STAT Fld.FIO_STAT_LINK_OK = true ∧ (s fun x => { x with lost := 2 }).fio.lost < 3 ∧
    (pairCfg w.safe.a.val 0).mode ≠ 0 ∧ g w 16 ≠ g w 17 ∧ g u 16 = g u 17 ∧ (s fun x => { x with held := 8, cmd := 8 }).fio.held.testBit 3 = true := by decide +kernel

/-- Each edge selection and counter mode; a gate that ends; a test pulse that runs on a pair it feeds, and one that does not. -/
theorem meets_FieldInputs :
    let c (m e : Nat) : State := flds (fio id) [(FIO_DI_CFG 7, Fld.FIO_DI_CFG_CNT_MODE, m), (FIO_DI_CFG 7, Fld.FIO_DI_CFG_EDGE, e), (FIO_DI_CFG 7, Fld.FIO_DI_CFG_GATE, 3)]
    let w : FreqWin := { t0 := 5, n := 2 }
    let s := fio fun x => { x with win := x.win.set 7 (some w) }
    let t := { (safeSt id id).setReg FIO_TP 1 with fio := s.fio }
    (∀ m ∈ [0, 1, 2, 3], (c m 0).fld (FIO_DI_CFG 7) Fld.FIO_DI_CFG_CNT_MODE = m ∧ (c 0 m).fld (FIO_DI_CFG 7) Fld.FIO_DI_CFG_EDGE = m) ∧
    s.fio.di.testBit 3 = false ∧ vget s.fio.diRun 0 3 + 2999 < s.fld (FIO_DI_CFG 3) Fld.FIO_DI_CFG_FILT ∧ max 1 3000 = s.fld (FIO_DI_CFG 3) Fld.FIO_DI_CFG_FILT ∧
    10000006 - w.t0 > 10 ^ 7 ∧ (c 3 0).fld (FIO_DI_CFG 7) Fld.FIO_DI_CFG_GATE = 3 ∧ 10000005 - w.t0 ≥ 10000 * 10 ^ 3 ∧ 10000004 - w.t0 < 10000 * 10 ^ 3 ∧ vget s.fio.win none 7 = some w ∧
    vget (fio id).fio.win none 7 = none ∧ s.fio.di < 2 ^ 32 ∧ s.fiOn = true ∧ s.reachable FIO_CNT_CLR = true ∧ ((st []).setReg (SYS_PWR_STAT 2) 0).reachable FIO_CNT_CLR = false ∧
    (t.reg FIO_TP).getLsbD 0 = true ∧ t.fio.fsAct = false ∧ t.fio.ov = false ∧ (s.reg FIO_TP).getLsbD 0 = false ∧ t.flag SAFE_STAT Fld.SAFE_STAT_ARMED = true ∧
    (pairCfg t.safe.a.val 0).mode ≠ 0 := by decide

/-- R482: an excursion shorter than FILT is rejected whole, FILT samples change the state, and FILT = 0 passes each sample. -/
theorem test_input_filter :
    diFilter 3 (false, 0) [true, true, false, true, true] = (false, 2) ∧ diFilter 3 (false, 2) [true] = (true, 0) ∧
    diFilter 0 (false, 0) [true, false, true] = (true, 0) ∧ diFilter 1 (true, 0) [false] = (false, 0) := by decide

/-- R485's example: 1,200 periods in a window of 10 ms. -/
theorem test_frequency_window :
    let s := flds (fio fun x => { x with win := x.win.set 3 (some { t0 := 0, n := 1200 }) }) [(FIO_DI_CFG 3, Fld.FIO_DI_CFG_CNT_MODE, 2), (FIO_DI_CFG 3, Fld.FIO_DI_CFG_GATE, 1)]
    let f (at_ : Nat) : Word × Option FreqWin := match execCounterEdge 3 true at_ s with
      | .next t => (vget t.fio.freq 1 3, vget t.fio.win none 3)
      | _ => (1, none)
    f 100000 = (0x07270E00, none) ∧ f 10000001 = (0, some { t0 := 10000001, n := 1 }) := by decide

/-- Outputs on, held off with and without a retry; codes on each side of each threshold. -/
theorem meets_FieldOutputs :
    let s (f : Fio → Fio) := fio f
    let on := s fun x => { x with doOn := 8, cmd := 8 }
    let held (hot : Nat) := { ((s fun x => { x with held := 8, cmd := 8, hot := hot }).setReg FIO_DO_CFG 8) with timers := [(.doRetry 3, 30000)] }
    (s id).reachable FIO_DO = true ∧ ((st []).setReg (SYS_PWR_STAT 2) 0).reachable FIO_DO = false ∧ on.fiOn = true ∧ on.fio.doOn.testBit 3 = true ∧ on.fio.uv = false ∧
    on.fc.window = false ∧ (held 0).due (.doRetry 3) = true ∧ ((held 0).reg FIO_DO_CFG).getLsbD 3 = true ∧ (held 0).fio.held.testBit 3 = true ∧
    (held 0).fio.cmd.testBit 3 = true ∧ (held 8).fio.hot.testBit 3 = true ∧ (held 0).fio.hot.testBit 3 = false ∧ (s id).due (.doRetry 3) = false ∧
    (s fun x => { x with uv := true }).fio.uv = true ∧ (s fun x => { x with ov := true }).fio.ov = true ∧
    (1791 * 40000 < 4096 * 17500 ∧ 4096 * 17500 ≤ 1792 * 40000) ∧ (4096 * 18500 < 1895 * 40000 ∧ 1894 * 40000 ≤ 4096 * 18500) ∧
    (4096 * 31000 < 3175 * 40000 ∧ 3174 * 40000 ≤ 4096 * 31000) ∧ (3123 * 40000 < 4096 * 30500 ∧ 4096 * 30500 ≤ 3124 * 40000) := by decide

/-! ## Hypotheses met: supplies, domains, modes, Wake, boot -/

def pwr (l : List (Nat × Fld × Nat)) (f : Pwr → Pwr) : State := let s := flds (st []) l; { s with pwr := f s.pwr }

/-- Each threshold from both sides. -/
theorem meets_SupplyEvents :
    let s (mode : Nat) (f : Pwr → Pwr) := pwr [(SYS_MODE, Fld.SYS_MODE_MODE, mode), (SYS_VIN_CFG, Fld.SYS_VIN_CFG_WARN, 45)] f
    let set (t : State) (f : Fld) (v : Nat) := t.setFld SYS_VIN_STAT f v
    let up := s 4 id
    up.fc.window = false ∧ (s 0 fun p => { p with vinOk := false }).pwr.vinOk = false ∧ (s 0 id).mode = .dormant ∧ (s 0 id).pwr.inReset = false ∧
    (4300 ≤ (4300 : BitVec 16).toNat ∧ (4299 : BitVec 16).toNat < 4300) ∧ (s 0 fun p => { p with wakeLand := true }).pwr.wakeLand = true ∧
    ((s 0 id).setFld SYS_BK_CFG Fld.SYS_BK_CFG_AUTO 1).flag SYS_BK_CFG Fld.SYS_BK_CFG_AUTO = true ∧ ((s 0 id).setFld SYS_BK_CFG Fld.SYS_BK_CFG_AUTO 0).flag SYS_BK_CFG Fld.SYS_BK_CFG_AUTO = false ∧
    (s 0 id).pwr.alarmWaits = false ∧ up.vinWarn = false ∧ (set up Fld.SYS_VIN_STAT_WARN 1).vinWarn = true ∧ 100 * up.fld SYS_VIN_CFG Fld.SYS_VIN_CFG_WARN = 4500 ∧
    up.downReached 3 = false ∧ (s 4 fun p => { p with down := some { step := 3, at_ := 0 } }).downReached 3 = true ∧
    (s 4 fun p => { p with down := some { step := 2, at_ := 0 } }).downReached 3 = false ∧ up.mode = .run ∧ up.domOn domTP = true ∧ (up.setFld SYS_VIN_CFG Fld.SYS_VIN_CFG_WARN_ACT 1).flag SYS_VIN_CFG Fld.SYS_VIN_CFG_WARN_ACT = true ∧
    (up.setFld SYS_VIN_CFG Fld.SYS_VIN_CFG_WARN_ACT 0).flag SYS_VIN_CFG Fld.SYS_VIN_CFG_WARN_ACT = false ∧ up.flag SYS_MODE Fld.SYS_MODE_FROZEN = false ∧
    up.flag SYS_VIN_STAT Fld.SYS_VIN_STAT_OV = false ∧ (set up Fld.SYS_VIN_STAT_OV 1).flag SYS_VIN_STAT Fld.SYS_VIN_STAT_OV = true ∧
    up.pwr.vbakLow = false ∧ (s 4 fun p => { p with vbakLow := true }).pwr.vbakLow = true ∧ up.pwr.vinOk = true ∧
    ((st []).setReg (SYS_PWR_STAT 0) 0).domOn domTP = false ∧ (2199 < 2200 ∧ 3899 < 3900 ∧ 30000 < 30001 ∧ 29499 < 29500) := by decide

/-- A request that every domain allows, and one that SV_1, the last engine in use, AQ, NW, CN, PS, a group, a die, FI and a domain that is never off refuses; each
kind of domain in its start and its loss; every answer of a mode request. -/
theorem meets_DomainsAndModes :
    let s (mode : Nat) (l : List (Nat × Fld × Nat)) := pwr ([(SYS_MODE, Fld.SYS_MODE_MODE, mode), (SYS_PWR_REQ 0, ⟨31, 0⟩, 0xFFFFFFFC), (SYS_PWR_REQ 2, ⟨13, 0⟩, 0x3FFF)] ++ l) id
    let t := s 3 []
    let starting (d : Nat) := pwr [] fun p => { p with starting := [d] }
    let safeStop := s 6 []
    t.fc.window = false ∧ t.pairFree .wharf (SYS_PWR_REQ 0) = true ∧ t.mode = .hold ∧ ((0xFFFFFFF8 : Word) &&& cpBits (SYS_PWR_REQ 0)).getLsbD 2 = false ∧
    (t.reg (SYS_PWR_REQ 0)).getLsbD 2 = true ∧ t.domOn 3 = true ∧ initNo .sv1 ≠ 0 ∧ ((0xFFFFFFF8 : Word) &&& cpBits (SYS_PWR_REQ 0)).getLsbD 3 = true ∧
    t.engineNeeded 3 = false ∧ t.fld ACQ_STAT Fld.ACQ_STAT_STATE = 0 ∧ (s 3 [(ACQ_STAT, Fld.ACQ_STAT_STATE, 3)]).fld ACQ_STAT Fld.ACQ_STAT_STATE ≤ 3 ∧
    t.flag SAFE_SDT_STAT Fld.SAFE_SDT_STAT_ARMED = false ∧ t.fld (CAN_TM_CFG 1) Fld.CAN_TM_CFG_MODE = 0 ∧ (s 3 [(CAN_TM_CFG 1, Fld.CAN_TM_CFG_MODE, 2)]).fld (CAN_TM_CFG 1) Fld.CAN_TM_CFG_MODE = 2 ∧
    t.psBusy = false ∧ (s 3 [(EMU_CFG 7, Fld.EMU_CFG_EN, 1)]).psBusy = true ∧ t.groupSafety 5 = false ∧ (s 3 [(PWM_CTRL 47, Fld.PWM_CTRL_EN, 1)]).en 47 = true ∧
    domPresent t.part 77 = true ∧ domPresent .fa24 76 = false ∧
    (∀ d ∈ [2, 3, 4, 5, 16, 17, 18, 19, 20, 21, 22, 23, 28, 29, 76, 77], (starting d).pwr.starting.contains d = true ∧ t.domReq d = true ∧ t.domOn d = true ∧
      t.pwr.lost.contains d = false) ∧ ((starting 5).kernelLoad 0).2 = true ∧ vget t.boot.slot none 0 = none ∧
    (t.pairFree .sv0 SYS_MODE_REQ = true ∧ t.domOn domSC = true) ∧
    ((s 3 [(TT_STATUS, Fld.TT_STATUS_RUNNING, 1)]).running = true ∧ t.running = false ∧ t.pwr.down = none ∧ (pwr [] fun p => { p with down := some { step := 1, at_ := 0 } }).pwr.down ≠ none ∧ t.hwSafeOn = false ∧ (s 3 [(FC_STAT, Fld.FC_STAT_HWSAFE, 1)]).hwSafeOn = true ∧
    t.flag SYS_MODE Fld.SYS_MODE_FROZEN = false ∧ safeStop.mode = .safeStop ∧ t.vinWarn = false ∧ (s 3 [(SYS_VIN_STAT, Fld.SYS_VIN_STAT_WARN, 1)]).vinWarn = true) ∧
    ((s 2 []).mode = .commission ∧ (s 4 []).mode = .run ∧ (s 5 []).mode = .degraded ∧ (s 1 []).mode = .wake ∧ t.runMissing ≠ 0 ∧ t.pwr.wakeLand = false) ∧
    ((s 1 []).pwr.wakeStep < 11 ∧ (s 1 []).pwr.wakeFailed = false ∧ 11 ≤ (pwr [] fun p => { p with wakeStep := 11 }).pwr.wakeStep) := by decide +kernel

/-- The domain that a request names while SC is off. -/
theorem meets_modeReq_without_SC : let s := (st []).setReg (SYS_PWR_STAT 0) 0xFFFFFFEF; s.domOn domSC = false ∧ s.pairFree .sv0 SYS_MODE_REQ = true := by decide

/-- Each step of Wake; the limit at 350 ms and a tick before; RESET_N and its release, WAKE and the alarm awake and asleep; the retention RAM with and without its CRC. -/
theorem meets_WakeAndReset :
    let s (l : List (Nat × Fld × Nat)) (f : Pwr → Pwr) := pwr l f
    let at_ (c : Nat) : State := { s [] id with clock := c }
    let asleep := s [(SYS_MODE, Fld.SYS_MODE_MODE, 0), (SYS_RTC_ALARM, ⟨31, 0⟩, 0), (SYS_BK_CFG, Fld.SYS_BK_CFG_ALARM_EN, 1)] id
    (s [] id).mode = .wake ∧ (s [] id).pwr.inReset = false ∧ (s [] id).pwr.wakeFailed = false ∧ (∀ k ∈ List.range 12, (s [] fun p => { p with wakeStep := k }).pwr.wakeStep + 1 = k + 1) ∧
    (s [] id).fld SYS_WAKE Fld.SYS_WAKE_CODE = 0 ∧ (s [(SYS_WAKE, Fld.SYS_WAKE_CODE, 4)] id).fld SYS_WAKE Fld.SYS_WAKE_CODE ≠ 0 ∧
    (s [] fun p => { p with straps := 2 }).pwr.straps.toNat % 4 = 2 ∧ vget (s [] id).boot.slot none 2 = none ∧ (at_ 87500000).pwr.wakeAt + 350 * 250000 ≤ (at_ 87500000).clock ∧
    ¬ (at_ 87499999).pwr.wakeAt + 350 * 250000 ≤ (at_ 87499999).clock ∧ (s [] id).flag SYS_MODE Fld.SYS_MODE_FROZEN = false ∧ (asleep.mode = .dormant ∧ asleep.pwr.inReset = false) ∧
    (s [] fun p => { p with inReset := true, resetLow := true }).pwr.inReset = true ∧ (s [] fun p => { p with resetLow := true }).pwr.resetLow = true ∧ asleep.pwr.vinOk = true ∧
    (s [] fun p => { p with vinOk := false }).pwr.vinOk = false ∧ asleep.pwr.rtc / 32768 % 2 ^ 32 = (asleep.reg SYS_RTC_ALARM).toNat ∧ asleep.flag SYS_BK_CFG Fld.SYS_BK_CFG_ALARM_EN = true ∧
    (s [(SYS_RTC_ALARM, ⟨31, 0⟩, 1)] id).pwr.rtc / 32768 ≠ ((s [(SYS_RTC_ALARM, ⟨31, 0⟩, 1)] id).reg SYS_RTC_ALARM).toNat ∧ asleep.reachable SYS_RTC_HI = true ∧
    (s [(SYS_BK_STAT, Fld.SYS_BK_STAT_RV, 0)] id).flag SYS_BK_STAT Fld.SYS_BK_STAT_RV = false := by decide +kernel

set_option maxRecDepth 100000 in
theorem meets_trusted_retention :
    let s := pwr [(SYS_BK_STAT, Fld.SYS_BK_STAT_RV, 1)] fun p => { p with ret := [(62, BitVec.ofNat 8 (crc16 (retBytes []))), (63, BitVec.ofNat 8 (crc16 (retBytes []) / 256))] }
    s.flag SYS_BK_STAT Fld.SYS_BK_STAT_RV = true ∧ (s.ret 62).toNat + 256 * (s.ret 63).toNat = crc16 (retBytes s.pwr.ret) := by decide +kernel

/-- Bytes listed from an address. -/
def listed (a : Nat) : List Byte → List Host.Cell
  | [] => []
  | b :: l => (a, b) :: listed (a + 1) l

theorem find_listed_below (l : List Byte) (a k : Nat) (h : k < a) : Tbl.find? (listed a l) k = none := by
  induction l generalizing a with
  | nil => rfl
  | cons b l ih => simp only [listed, Tbl.find?, if_neg (show ¬ a = k by omega)]; exact ih _ (by omega)

theorem find_listed (l : List Byte) (a k : Nat) : Tbl.find? (listed a l) (a + k) = l[k]? := by
  induction l generalizing a k with
  | nil => rfl
  | cons b l ih =>
    cases k with
    | zero => simp [listed, Tbl.find?]
    | succ k =>
      simp only [listed, Tbl.find?, if_neg (show ¬ a = a + (k + 1) by omega), List.getElem?_cons_succ]
      have := ih (a + 1) k
      rwa [show a + 1 + k = a + (k + 1) by omega] at this

theorem beNat_beBytes (n v : Nat) : beNat (beBytes n v) = v % 256 ^ n := by
  induction n generalizing v with
  | zero => simp [beBytes, leBytes, beNat, Nat.mod_one]
  | succ n ih =>
    have h := ih (v / 256)
    simp only [beBytes, beNat, leBytes, List.reverse_cons, List.foldl_append, List.foldl_cons, List.foldl_nil] at h ⊢
    rw [h, BitVec.toNat_ofNat, show 256 ^ (n + 1) = 256 * 256 ^ n from Nat.pow_succ', Nat.mod_mul]
    omega

theorem length_beBytes (n v : Nat) : (beBytes n v).length = n := by
  have h : ∀ n v, (leBytes n v).length = n := by
    intro n; induction n with
    | zero => intro v; rfl
    | succ n ih => intro v; simp [leBytes, ih]
  simp [beBytes, h]

/-- Pair 0's image at NOR offset 0, erased but for its HASH. -/
def imageWith (hash : Nat) : State :=
  let s := timed (st []) (.svRestart 0) 500
  { s with mem := listed 0x300000C0 (beBytes 32 hash), boot := { s.boot with slot := s.boot.slot.set 0 (some 0) } }

theorem imageWith_cell (hash a : Nat) (h : a < 0x300000C0 ∨ 0x300000E0 ≤ a) : (imageWith hash).cell a = memFill a := by
  have : Tbl.find? (listed 0x300000C0 (beBytes 32 hash)) a = none := by
    rcases h with h | h
    · exact find_listed_below _ _ _ h
    · have := find_listed (beBytes 32 hash) 0x300000C0 (a - 0x300000C0)
      rw [show 0x300000C0 + (a - 0x300000C0) = a by omega] at this
      rw [this, List.getElem?_eq_none]
      rw [length_beBytes]; omega
  unfold State.cell Tbl.get
  show (Tbl.find? (listed 0x300000C0 (beBytes 32 hash)) a).getD _ = _
  rw [this]; rfl

theorem imageWith_hdrHash (hash : Nat) : (imageWith hash).hdrHash 0 = hash % 2 ^ 256 := by
  have h : (((imageWith hash).norBytes 0 512).drop 192).take 32 = beBytes 32 hash := by
    apply List.ext_getElem
    · simp [State.norBytes, length_beBytes]
    · intro k h1 h2
      have hk : k < 32 := by rw [length_beBytes] at h2; exact h2
      simp only [State.norBytes, List.getElem_take, List.getElem_drop, List.getElem_map, List.getElem_range]
      unfold State.cell Tbl.get
      show (Tbl.find? (listed 0x300000C0 (beBytes 32 hash)) _).getD _ = _
      rw [show 0x30000000 + 0 + (192 + k) = 0x300000C0 + k by omega, find_listed, List.getElem?_eq_getElem h2]; rfl
  unfold State.hdrHash
  rw [h, beNat_beBytes, show (256 : Nat) ^ 32 = 2 ^ 256 from rfl]

theorem imageWith_imageHash (hash : Nat) : (imageWith hash).imageHash 0 = (imageWith 0).imageHash 0 := by
  have hh : ((imageWith hash).norBytes 0 512).take 192 = ((imageWith 0).norBytes 0 512).take 192 := by
    simp only [State.norBytes, ← List.map_take]
    refine List.map_congr_left fun k hk => ?_
    have : k < 192 := by simp at hk; omega
    rw [imageWith_cell _ _ (.inl (by omega)), imageWith_cell _ _ (.inl (by omega))]
  have hl : ∀ l : List Byte, hdrLen l = hdrLen (l.take 192) := by
    intro l; unfold hdrLen lf; rw [List.drop_take, List.take_take]; rfl
  have hn : ∀ n, (imageWith hash).norBytes (0 + 512) n = (imageWith 0).norBytes (0 + 512) n := by
    intro n
    refine List.map_congr_left fun k _ => ?_
    rw [imageWith_cell _ _ (.inr (by omega)), imageWith_cell _ _ (.inr (by omega))]
  unfold State.imageHash
  simp only [hh, hl ((imageWith hash).norBytes 0 512), hl ((imageWith 0).norBytes 0 512), hn]

/-- An image whose hash is right, and one whose hash is wrong, whatever SHA-256 is. -/
theorem meets_image_hashes :
    (∃ s : State, s.timerOn (.svRestart 0) = true ∧ vget s.boot.slot none 0 = some 0 ∧ s.imageHash 0 = s.hdrHash 0) ∧
    (∃ s : State, s.timerOn (.svRestart 0) = true ∧ vget s.boot.slot none 0 = some 0 ∧ s.imageHash 0 ≠ s.hdrHash 0) := by
  have hlt : (imageWith 0).imageHash 0 < 2 ^ 256 := Nat.mod_lt _ (by decide)
  refine ⟨⟨imageWith ((imageWith 0).imageHash 0), rfl, rfl, ?_⟩, ⟨imageWith ((imageWith 0).imageHash 0 + 1), rfl, rfl, ?_⟩⟩
  · rw [imageWith_imageHash, imageWith_hdrHash, Nat.mod_eq_of_lt hlt]
  · rw [imageWith_imageHash, imageWith_hdrHash]; omega

def host (mode : Nat) (f : Boot → Boot) : State := let s := st [(SYS_MODE, BitVec.ofNat 32 mode)]; { s with boot := f s.boot }

/-- A boot record with its CRC. -/
def bootRecord : List Byte := leBytes 4 0x42524543 ++ List.replicate 56 0 ++ leBytes 4 0x10c77a87

/-- Each check of a NOR request from both sides; a record that is valid and one that is not; the ends of the protected part of the flash. -/
theorem meets_FlashService :
    let s (m : Nat) (l : List (Nat × Word)) : State := l.foldl (fun s e => s.setReg e.1 e.2) (host m id)
    let e (a : Word) := s 2 [(HOST_NOR_ADDR, a), (HOST_NOR_SRC, 0x09000000), (HOST_NOR_LEN, 1)]
    let v := { host 3 fun b => { b with verify := some (.wharf, 0x09000000) } with mem := listed 0x09000000 bootRecord }
    let x : NorOp := { op := 1, addr := 0x1000, src := 0, len := 4096 }
    let off := (st []).setReg (SYS_PWR_STAT 0) 0
    (s 3 []).reachable HOST_CTRL = true ∧ off.reachable HOST_CTRL = false ∧ (s 3 []).mode = .hold ∧ (s 2 []).mode = .commission ∧ (s 4 []).mode = .run ∧
    (s 3 []).boot.verify = none ∧ v.boot.verify.isSome = true ∧ ((v.boot.verify.bind fun a => v.norStaged a.1 a.2).any recordOk) = true ∧
    (({ v with mem := [] }.boot.verify.bind fun a => ({ v with mem := [] } : State).norStaged a.1 a.2).any recordOk) = false ∧ (s 2 []).boot.nor = none ∧
    (host 2 fun b => { b with nor := some x }).boot.nor = some x ∧ (s 2 []).vinWarn = false ∧ ((s 2 []).setFld SYS_VIN_STAT Fld.SYS_VIN_STAT_WARN 1).vinWarn = true ∧
    (s 2 []).reachable HOST_NOR_CTRL = true ∧ ((e 0xFFFF000).reg HOST_NOR_ADDR).toNat + 4096 ≤ 0x10000000 ∧ (0xFFFF000 : Nat) % 4096 = 0 ∧
    ¬ ((e 0x10000000).reg HOST_NOR_ADDR).toNat + 4096 ≤ 0x10000000 ∧ (memTarget (e 0).part .sv0 0x09000000 1).isSome = true ∧
    (e 0xFFFF000).norProtected 0xFFFF000 0x10000000 = false ∧ (host 2 fun b => { b with record := some 0x2000 }).norProtected 0x2000 0x3000 = true ∧
    (host 2 fun b => { b with record := some 0x2000 }).boot.record = some 0x2000 ∧ (0x2000 ≤ 0x2000 + 63 ∧ 0x2000 / 4096 * 4096 ≤ 0x2000) := by decide +kernel

theorem meets_KeySlots :
    let s (m : Nat) (f : Boot → Boot) : State := (host m f).setReg HOST_NOR_SRC 0x09000000
    let t := { s 2 (fun b => { b with slot := b.slot.set 1 (some 0x3000) }) with mem := [(0x30003007, 2)] }
    (s 2 id).fc.window = false ∧ (s 2 id).pairFree .sv0 HOST_KEY_CTRL = true ∧ (s 2 id).mode = .commission ∧ vget (s 2 id).boot.keys none 1 = none ∧
    ((s 2 id).bytesAt .sv0 ((s 2 id).reg HOST_NOR_SRC).toNat 32).isSome = true ∧ (s 3 id).mode ≠ .commission ∧ (vget (s 2 id).boot.keys none 0).isSome = true ∧
    (vget t.boot.slot none 1).map (fun o => (t.cell (0x30000000 + o + 7)).toNat) = some 2 ∧ (∀ y : Fin 4, vget (s 2 id).boot.slot none y = none) ∧
    vget (s 2 fun b => { b with revoked := b.revoked.set 3 true }).boot.revoked false 3 = true := by decide

theorem meets_StoreRequests :
    let s (m : Nat) (l : List (Nat × Word)) (f : Boot → Boot) : State := l.foldl (fun s e => s.setReg e.1 e.2) (host m f)
    let t := s 2 [(HOST_PS_KEY, 0x100), (HOST_PS_LEN, 32720), (HOST_PS_ADDR, 0x09000000)] id
    let key (k : Word) := ((s 2 [(HOST_PS_KEY, k)] id).reg HOST_PS_KEY).toNat % 65536
    t.reachable HOST_PS_CTRL = true ∧ ((st []).setReg (SYS_PWR_STAT 0) 0).reachable HOST_PS_CTRL = false ∧ t.mode = .commission ∧ (s 4 [] id).mode ≠ .commission ∧
    t.boot.ps.isSome = false ∧ (s 2 [] fun b => { b with ps := some (true, .compact) }).boot.ps.any (fun p => p.2 == .compact) = true ∧
    (s 2 [] fun b => { b with ps := some (true, .read 5 0) }).boot.ps.any (fun p => p.2 == .compact) = false ∧ (s 2 [] fun b => { b with psWait := [(true, .compact)] }).boot.psWait.any (·.1) = true ∧
    t.pwr.storeBlocked = false ∧ (∀ b ∈ [0, 1, 2, 4, 8, 16], (BitVec.ofNat 32 b : Word).toNat % 32 = b) ∧ (key 0xFF < 0x100 ∧ key 0xFFFF = 0xFFFF ∧ key 0x100 = 0x100 ∧ key 0 = 0) ∧
    (t.reg HOST_PS_LEN).toNat ≤ 32720 ∧ 32720 < ((s 2 [(HOST_PS_LEN, 32721)] id).reg HOST_PS_LEN).toNat ∧ (memTarget t.part .sv0 0x09000000 32720).isSome = true ∧
    memTarget t.part .sv0 0x0907FFFF 2 = none ∧ (t.payloadTarget .sv0 0x09000000 8).isSome = true ∧ t.payloadTarget .sv0 0xF0000000 8 = none := by decide

theorem meets_a_request_of_one_byte : ((host 2 id).bytesAt .sv0 0x09000000 1).isSome = true ∧ (host 2 id).bytesAt .sv0 0x4FFFFFFF 1 = none := by decide

/-- A store with records in segment 0. -/
def store (open_ : Nat) (l : List (List Byte)) (op : Option (Bool × PsOp)) : State :=
  let r := l.foldl (fun (r : List Host.Cell × List Nat × Nat) b => (r.1 ++ listed r.2.2 b, r.2.1 ++ [r.2.2], r.2.2 + b.length)) ([], [], 0x1C000010)
  { host 2 fun b => { b with recs := r.2.1, segEnd := [(0, r.2.2 - 0x1C000000)], segOpen := open_, ps := op } with mem := r.1 }

/-- A record of 8 bytes, one whose CRC is wrong, one that deletes its key. -/
def rec1 : List Byte := recBytes 0x100 1 [1, 2, 3, 4, 5, 6, 7, 8]
def rec2 : List Byte := let l := recBytes 0x100 2 [1, 2, 3, 4, 5, 6, 7, 8]; l.set 16 9
def rec3 : List Byte := recBytes 0x100 3 []

theorem meets_StoreRecords :
    let w := store 0 [rec1] (some (true, .write 0x100 [1]))
    let r := store 0 [rec1, rec2] (some (true, .read 0x100 0x09000000))
    let old := ({ r with boot := { r.boot with bad := r.boot.bad ++ [0x1C000040] } } : State)
    let d := store 0 [rec1, rec3] (some (true, .read 0x100 0x09000000))
    let c := store 1 [rec1, rec3] (some (true, .compact))
    w.domOn domHB = true ∧ w.fc.window = false ∧ w.boot.psWait = [] ∧ w.segFor (32 + 2 * 8) = some 0 ∧ w.storeKeys.contains 0x100 = true ∧ w.storeKeys.length < 1024 ∧
    w.newest ((w.boot.recs.filter w.recIndexed).filter fun x => w.recKey x == 0x100) = some 0x1C000010 ∧ w.current 0x100 = some 0x1C000010 ∧ w.recValid 0x1C000010 = true ∧
    w.recLen 0x1C000010 = 8 ∧ w.current 0x101 = none ∧ r.current 0x100 = some 0x1C000040 ∧ r.recValid 0x1C000040 = false ∧ old.current 0x100 = some 0x1C000010 ∧
    d.current 0x100 = some 0x1C000040 ∧ d.recValid 0x1C000040 = true ∧ d.recLen 0x1C000040 = 0 ∧ c.segVictim = some 0 ∧
    (c.boot.recs.all fun x => segOf x != 0 || !c.isCurrent x) = true ∧ w.segVictim = none ∧
    (host 2 fun b => { b with psWait := [(false, .compact)] }).boot.psWait.head? = some (false, .compact) ∧ (host 2 id).boot.ps = none := by decide +kernel

/-- A store with one record, both pairs up. -/
def bothUp : State := (st []).setSv 1 { (st []).svAt 1 with up := true }
def holding (l : List Byte) : State :=
  let s := bothUp
  { s with mem := listed 0x1C000010 l, boot := { s.boot with recs := [0x1C000010] } }

theorem holding_bytes (l : List Byte) (o n : Nat) (h : o + n ≤ l.length) : (holding l).storeBytes (0x1C000010 + o) n = (l.drop o).take n := by
  apply List.ext_getElem
  · simp [State.storeBytes]; omega
  · intro k h1 h2
    have hk : k < n := by simpa [State.storeBytes] using h1
    simp only [State.storeBytes, List.getElem_map, List.getElem_range, List.getElem_take, List.getElem_drop]
    unfold State.cell Tbl.get
    show (Tbl.find? (listed 0x1C000010 l) (0x1C000010 + o + k)).getD _ = _
    rw [Nat.add_assoc, find_listed, List.getElem?_eq_getElem (by omega)]; rfl

theorem bothUp_ready : bothUp.chanReady false = true ∧ bothUp.chanReady true = true ∧ (st []).record? 2 = none ∧ (st []).chanReady false = false := by decide

theorem holding_ready (l : List Byte) (b : Bool) : (holding l).chanReady b = bothUp.chanReady b := rfl

/-- A stored block with the check value that was confirmed. -/
def confirmed : List Byte := paramBlock ++ leBytes 4 0x1203fff1

set_option maxRecDepth 100000 in
theorem confirmed_fits : storedBlock .fa48 confirmed = some paramBlock := by decide +kernel

def confirmedRec : List Byte := recBytes 2 1 confirmed

/-- What a record of key 2 with a payload of 1220 bytes holds. -/
def Confirms (l p : List Byte) : Prop :=
    l.length = 2480 ∧ leNat ((l.drop 2).take 2) = 2 ∧ leNat ((l.drop 8).take 4) = 1220 ∧ lf (l.take 16) 0 2 = 0x5052 ∧
    crc32c ((l.take 16).take 12) = lf (l.take 16) 12 4 ∧ (l.drop 2472).take 8 = leBytes 4 0x50434D54 ++ leBytes 4 0xAFBCB2AB ∧
    ((l.drop 16).take 1224).take 1220 = p ∧ (l.drop 16).take 1220 = p ∧ crc32c p = leNat ((l.drop 2464).take 4) ∧
    (l.drop 1240).take 1224 = ((l.drop 16).take 1224).map (fun b => ~~~b)

set_option maxRecDepth 100000 in
theorem confirmed_record : Confirms confirmedRec confirmed := by unfold Confirms; decide +kernel

theorem record_held (l p : List Byte) (h : Confirms l p) : (holding l).record? 2 = some p := by
  obtain ⟨h0, h1, h2, h3, h4, h5, h6, h7, h8, h9⟩ := h
  have b (o n : Nat) (h : o + n ≤ 2480) := holding_bytes l o n (h0 ▸ h)
  have len : (holding l).recLen 0x1C000010 = 1220 := by rw [State.recLen, b 8 4 (by omega), h2]
  have key : (holding l).recKey 0x1C000010 = 2 := by rw [State.recKey, b 2 2 (by omega), h1]
  have pad : pad8 1220 = 1224 := rfl
  have idx : (holding l).recIndexed 0x1C000010 = true := by
    have e := b 0 16 (by omega)
    have f := b 2472 8 (by omega)
    simp only [Nat.add_zero, List.drop_zero] at e
    simp only [State.recIndexed, len, pad, e, h3, h4]
    rw [show 0x1C000010 + 24 + 2 * 1224 = 0x1C000010 + 2472 by rfl, f, h5]; simp
  have val : (holding l).recValid 0x1C000010 = true := by
    have e := b 16 1224 (by omega)
    have f := b 2464 4 (by omega)
    have g := b 1240 1224 (by omega)
    simp only [State.recValid, len, pad, idx, e, h6, h8]
    rw [show 0x1C000010 + 16 + 2 * 1224 = 0x1C000010 + 2464 by rfl, show 0x1C000010 + 16 + 1224 = 0x1C000010 + 1240 by rfl, f, g, h9]; simp
  have v : (holding l).versions 2 = [0x1C000010] := by
    show List.filter _ [0x1C000010] = _
    have n : (holding l).boot.bad = [] := rfl
    simp [idx, key, n]
  simp only [State.record?, v, List.filter_cons, val, List.filter_nil, if_true, State.newest, List.foldl_cons, List.foldl_nil, len]
  rw [b 16 1220 (by omega), h7]

theorem meets_a_stored_block :
    let s := holding confirmedRec
    s.record? 2 = some confirmed ∧ storedBlock s.part confirmed = some paramBlock ∧ s.chanReady false = true ∧ s.chanReady true = true ∧
    (st []).record? 2 = none ∧ (st []).chanReady false = false :=
  ⟨record_held _ _ confirmed_record, confirmed_fits, (holding_ready _ false).trans bothUp_ready.1, (holding_ready _ true).trans bothUp_ready.2.1,
    bothUp_ready.2.2⟩

/-- The access bits, a WRITE that waits, addresses of each kind, a READ of 4 and of 256 bytes, a late word. -/
theorem meets_WharfCommands :
    let s (acc mode : Nat) (f : Boot → Boot) : State := (host mode f).setReg HOST_WHARF_ACC (BitVec.ofNat 32 acc)
    let w := s 7 4 fun b => { b with wr := (HOST_DB_FW, [5]) }
    (s 7 4 id).domOn domHB = true ∧ ((st []).setReg (SYS_PWR_STAT 0) 0).domOn domHB = false ∧ (s 7 4 id).boot.wr.2 = [] ∧ w.boot.wr.2 ≠ [] ∧ w.boot.wr = (HOST_DB_FW, [5]) ∧
    ((s 1 4 id).reg HOST_WHARF_ACC).toNat.testBit 0 = true ∧ ((s 2 4 id).reg HOST_WHARF_ACC).toNat.testBit 0 = false ∧ ((s 3 2 id).reg HOST_WHARF_ACC).toNat.testBit 1 = true ∧
    (s 3 2 id).mode = .commission ∧ ((s 3 4 id).reg HOST_WHARF_ACC).toNat.testBit 2 = false ∧ (s 3 4 id).mode = .run ∧ ((s 7 4 id).reg HOST_WHARF_ACC).toNat.testBit 2 = true ∧
    (List.replicate 65 (0 : Word)).length = 65 ∧ (4 ≤ 4 ∧ 256 ≤ 256 ∧ 256 < 257 ∧ 3 < 4) ∧ (0x30000000 ≤ 0x3FFFFF00 ∧ 0x3FFFFF00 + 256 ≤ 0x40000000 ∧ 0x3FFFFF00 % 4 = 0) ∧
    (s 7 4 id).absent .wharf 0xF0000000 = true ∧ (∀ a ∈ [HOST_DB_FW, HOST_DB_HOST, SYS_RTC_ALARM, HOST_NOR_ADDR], (s 7 4 id).reachable a = true) ∧ [0].contains 0 = true := by decide

end Sys2Proof.Tests
end

section
/-! PROOFS. What a corrected report leaves in the registers (R336), what a refused complement pair leaves (R11, R593), which
addresses are absent (R3, R5, R546). -/

namespace Sys2Proof.Machine
open Sys2Proof.Machine.Reg

/-! ### The meanings of the commands -/

theorem exec_cpValueWrite (i : Initiator) (a : Nat) (w : Word) (s : State) : exec (.cpValueWrite i a w) s = execCpValueWrite i a w s :=
  rfl

theorem exec_cpComplementWrite (i : Initiator) (a : Nat) (w : Word) (s : State) :
    exec (.cpComplementWrite i a w) s = execCpComplementWrite i a w s := rfl

theorem exec_cpArmTimeout (i : Initiator) (a : Nat) (s : State) : exec (.cpArmTimeout i a) s = execCpArmTimeout i a s := rfl

theorem exec_absentBlockAccess (i : Initiator) (a : Nat) (w : Option Word) (s : State) :
    exec (.absentBlockAccess i a w) s = execAbsentBlockAccess i a w s := rfl

/-! ### A corrected report: what it counts and which registers it writes (R336) -/

/-- The registers of the collector that the history of the reports uses: FC_HIST_CTRL and the 32 entries of FC_HIST. -/
def HistReg (a : Nat) : Prop := a = FC_HIST_CTRL ∨ FC_HIST 0 ≤ a ∧ a < FC_HIST 32

/-- Each of the four words of a history entry is a register of the history. -/
theorem histReg_entry {i k : Nat} (hi : i < 32) (hk : k < 16) : HistReg (FC_HIST i + k) := by
  right; simp only [FC_HIST]; omega

/-- A register outside a history entry keeps its word when the four words of the entry are written. -/
theorem State.reg_setEntry_other (s : State) {a e : Nat} (w0 w1 w2 w3 : Word) (h : ∀ k < 16, a ≠ e + k) :
    ((((s.setReg e w0).setReg (e + 4) w1).setReg (e + 8) w2).setReg (e + 12) w3).reg a = s.reg a := by
  rw [State.reg_setReg_other _ _ (h 12 (by decide)), State.reg_setReg_other _ _ (h 8 (by decide)),
    State.reg_setReg_other _ _ (h 4 (by decide)), State.reg_setReg_other s w0 (by simpa using h 0 (by decide))]

/-- The record of a corrected report counts it in FC_COUNT, after writes to the history alone. -/
theorem State.record_corrected (s : State) (r : Report) (hr : r.cls = .corrected) :
    ∃ h : State, s.record r = h.incFld FC_COUNT Fld.FC_COUNT_CORRECTED ∧ ∀ a, ¬ HistReg a → h.reg a = s.reg a := by
  unfold State.record
  extract_lets n i _ _ _ listed newest written _ numbered first
  have hfirst : first = numbered := if_neg fun h => h.1 hr
  refine ⟨numbered, by rw [hr, hfirst], fun a ha => ?_⟩
  have hi : i < 32 := by
    unfold i; split
    · decide
    · exact Nat.mod_lt _ (by decide)
  have hctrl : a ≠ FC_HIST_CTRL := fun e => ha (.inl e)
  have hregs : numbered.regs = written.regs := rfl
  have hpart : numbered.part = written.part := rfl
  calc numbered.reg a = written.reg a := by simp only [State.reg, hregs, hpart]
    _ = newest.reg a := State.reg_setEntry_other _ _ _ _ _ fun k hk e => ha (e ▸ histReg_entry hi hk)
    _ = listed.reg a := State.reg_setFld_other listed _ _ hctrl
    _ = s.reg a := by
      unfold listed; split
      · exact State.reg_incFld_other s _ hctrl
      · exact State.reg_setFld_other s _ _ hctrl

/-- A corrected report writes the registers that its record writes. -/
theorem State.logCorrected_reg_record (s : State) (src : Nat) (d : Word) (a : Nat) :
    (s.logCorrected src d).reg a = (s.record (corrRep src d)).reg a := by
  simp [State.logCorrected, State.report, State.raised, State.react, State.pendSource, corrRep]

theorem satInc_lt (n v : Nat) : satInc n v < 2 ^ n := by
  have := Nat.two_pow_pos n
  unfold satInc; split <;> omega

/-- The saturating count of a field, read back. -/
theorem State.fld_incFld_same (s : State) (a : Nat) (f : Fld) (h1 : f.lo ≤ f.hi) (h2 : f.hi < 32) :
    (s.incFld a f).fld a f = satInc (f.hi + 1 - f.lo) (s.fld a f) := by
  rw [State.incFld, State.fld_setFld_same _ _ _ _ h1 h2, Nat.mod_eq_of_lt (satInc_lt _ _)]

/-- A corrected report is counted once (R336). -/
theorem State.logCorrected_correctedOnce (s : State) (src : Nat) (d : Word) : CorrectedOnce s (s.logCorrected src d) := by
  obtain ⟨h, hrec, hreg⟩ := s.record_corrected (corrRep src d) rfl
  have hcount : h.reg FC_COUNT = s.reg FC_COUNT := hreg _ (by unfold HistReg; decide)
  rw [CorrectedOnce, State.fld, State.logCorrected_reg_record, hrec, ← State.fld, State.fld_incFld_same _ _ _ (by decide) (by decide)]
  simp [State.fld, hcount]

/-- A corrected report writes the history and FC_COUNT, no other register. -/
theorem State.logCorrected_reg_other (s : State) (src : Nat) (d : Word) {a : Nat} (hh : ¬ HistReg a) (hc : a ≠ FC_COUNT) :
    (s.logCorrected src d).reg a = s.reg a := by
  obtain ⟨h, hrec, hreg⟩ := s.record_corrected (corrRep src d) rfl
  rw [State.logCorrected_reg_record, hrec, State.reg_incFld_other _ _ hc, hreg a hh]

/-! ### CP registers and the report's registers -/

/-- The register families of the collector that hold complement pairs: FC_ACK and FC_DEG, one word each. -/
theorem fc_isCp_families : ∀ d ∈ RegMap.fc, d.isCp = true → (d.off = 0x20 ∨ d.off = 0x40) ∧ d.s1 = 0x10000 ∧ d.s2 = 0x10000 ∧ d.words = 1 := by
  decide

/-- A CP register of the collector is FC_ACK or FC_DEG. -/
theorem word_eq_of_isCp_fc {a : Nat} (ha : isCp a = true) (hb : a / 0x10000 = 0x4001) : a / 4 * 4 = FC_ACK ∨ a / 4 * 4 = FC_DEG := by
  obtain ⟨d, hfind, hcp⟩ := (Option.any_eq_true ..).mp ha
  have hdefs : blockDefs a = RegMap.fc := by simp [blockDefs, hb]
  rw [regDef, hdefs] at hfind
  have hcov : d.covers (a % 0x10000) = true := List.find?_some (p := (RegDef.covers · (a % 0x10000))) hfind
  obtain ⟨hoff, hs1, hs2, hw⟩ := fc_isCp_families d (List.mem_of_find?_eq_some hfind) hcp
  simp only [RegDef.covers, hs1, hs2, hw, Bool.and_eq_true, decide_eq_true_eq] at hcov
  simp only [FC_ACK, FC_DEG]
  omega

/-- A corrected report writes no CP register. -/
theorem State.logCorrected_reg_cp (s : State) (src : Nat) (d : Word) {a : Nat} (ha : isCp a = true) :
    (s.logCorrected src d).reg a = s.reg a := by
  by_cases hb : a / 0x10000 = 0x4001
  · have hword := word_eq_of_isCp_fc ha hb
    simp only [FC_ACK, FC_DEG] at hword
    have hhist : ¬ HistReg a := by simp only [HistReg, FC_HIST_CTRL, FC_HIST]; omega
    exact s.logCorrected_reg_other src d hhist (by simp only [FC_COUNT]; omega)
  · exact s.logCorrected_reg src d hb

/-! ### A refused pair (R11, R593) -/

/-- A write of initiator `i` to the pair at `a` was dropped between `s` and `t`: nothing is armed, the CP registers and the memory
keep their content, and one corrected fault is logged. -/
structure PairDropped (s t : State) (i : Initiator) (a : Nat) : Prop where
  disarmed : t.cpArm? i a = none
  reg      : ∀ b, isCp b = true → t.reg b = s.reg b
  logged   : CorrectedOnce s t
  mem      : MemSame s t

/-- A refusal is a corrected report on a state with the pair disarmed and the bus error answered. -/
theorem State.cpRefuse_eq (s : State) (i : Initiator) (a : Nat) :
    ∃ u : State, s.cpRefuse i a = u.logCorrected (srcId 0x12 (initNo i)) ∧ u.resp = .busError ∧ u.reg = s.reg ∧ u.cell = s.cell ∧
      u.cpArmed = s.cpArmed.filter fun e => !(e.1 == initNo i && e.2.1 == a) := by
  unfold State.cpRefuse
  extract_lets disarmed counted
  refine ⟨counted.answer .busError, rfl, rfl, ?_⟩
  unfold counted
  split <;> exact ⟨rfl, rfl, rfl⟩

/-- A refusal answers with a bus error (R11). -/
@[simp] theorem State.cpRefuse_resp (s : State) (i : Initiator) (a : Nat) : (s.cpRefuse i a).resp = .busError := by
  obtain ⟨u, hu, hresp, -⟩ := s.cpRefuse_eq i a
  rw [hu, State.logCorrected_resp, hresp]

/-- A refusal drops the write (R11, R593). -/
theorem State.cpRefuse_pairDropped (s : State) (i : Initiator) (a : Nat) : PairDropped s (s.cpRefuse i a) i a := by
  obtain ⟨u, hu, -, hreg, hcell, harmed⟩ := s.cpRefuse_eq i a
  rw [hu]
  constructor
  case disarmed =>
    rw [State.cpArm?, State.logCorrected_cpArmed, harmed, List.find?_eq_none]
    intro e he
    simpa only [Bool.not_eq_true', Bool.not_eq_true] using (List.mem_filter.mp he).2
  case reg => exact fun b hb => by rw [State.logCorrected_reg_cp _ _ _ hb, hreg]
  case logged =>
    have h := u.logCorrected_correctedOnce (srcId 0x12 (initNo i)) 0
    simpa only [CorrectedOnce, State.fld, hreg] using h
  case mem =>
    intro b
    rw [State.cell, State.logCorrected_mem, ← State.cell, hcell]

/-- The expiry of an armed write drops it like a refusal (R593). -/
theorem State.cpExpire_pairDropped (s : State) (i : Initiator) (a : Nat) : PairDropped s (s.cpExpire i a) i a := by
  obtain ⟨disarmed, reg, logged, mem⟩ := s.cpRefuse_pairDropped i a
  exact ⟨disarmed, reg, logged, mem⟩

/-- A complement word with nothing armed is refused (R11). -/
theorem State.cpComplWord_unarmed (s : State) (i : Initiator) (a : Nat) (w : Word) (hr : s.reachable a = true)
    (h : s.cpArm? i a = none) : s.cpComplWord i a w = s.cpRefuse i a := by
  simp [State.cpComplWord, hr, h]

/-- A complement word that does not match is refused (R11). -/
theorem State.cpComplWord_mismatch (s : State) (i : Initiator) (a : Nat) (w : Word) {e : Nat × Nat × Word × Nat}
    (hr : s.reachable a = true) (h : s.cpArm? i a = some e) (ht : s.cpLate e = false) (hw : w ≠ ~~~e.2.2.1) :
    s.cpComplWord i a w = s.cpRefuse i a := by
  simp [State.cpComplWord, hr, h, ht, hw]

/-- A second value word is refused (R11). -/
theorem State.cpValueWord_armed (s : State) (i : Initiator) (a : Nat) (w : Word) {e : Nat × Nat × Word × Nat}
    (hr : s.reachable a = true) (h : s.cpArm? i a = some e) (ht : s.cpLate e = false) : s.cpValueWord i a w = s.cpRefuse i a := by
  simp [State.cpValueWord, hr, h, ht]

/-- Up to 1 µs after the value word the armed write stands. -/
theorem State.cpLate_eq_false {s : State} {e : Nat × Nat × Word × Nat} (h : s.clock ≤ e.2.2.2 + 250) : s.cpLate e = false :=
  decide_eq_false (Nat.not_lt.mpr h)

theorem cpRefusalsRules : CpRefusalsRules := by
  intro s i a w v t0 hcp hr refused
  have hrefused : refused (s.cpRefuse i a) := by
    obtain ⟨disarmed, reg, logged, mem⟩ := s.cpRefuse_pairDropped i a
    exact ⟨s.cpRefuse_resp i a, reg a hcp, disarmed, logged, mem⟩
  have hcompl : exec (.cpComplementWrite i a w) s = .next (s.cpComplWord i a w) := by
    simp [exec_cpComplementWrite, execCpComplementWrite, hcp]
  have hvalue : exec (.cpValueWrite i a w) s = .next (s.cpValueWord i a w) := by
    simp [exec_cpValueWrite, execCpValueWrite, hcp]
  refine ⟨fun hnone => ?unarmed, fun harmed hclock => ?armed⟩
  case unarmed => exact ⟨_, hcompl, s.cpComplWord_unarmed i a w hr hnone ▸ hrefused⟩
  case armed =>
    have ht := State.cpLate_eq_false (e := (initNo i, a, v, t0)) hclock
    exact ⟨fun hw => ⟨_, hcompl, s.cpComplWord_mismatch i a w hr harmed ht hw ▸ hrefused⟩,
      ⟨_, hvalue, s.cpValueWord_armed i a w hr harmed ht ▸ hrefused⟩⟩

theorem cpArmExpiresRules : CpArmExpiresRules := by
  intro s i a v t0 hcp harmed
  have hexec : exec (.cpArmTimeout i a) s = .next (if t0 + 250 ≤ s.clock then s.cpExpire i a else s) := by
    rw [exec_cpArmTimeout, execCpArmTimeout, harmed]; rfl
  refine ⟨fun hdue => ⟨s.cpExpire i a, ?_, ?_⟩, fun hearly => ⟨s, ?_, rfl⟩⟩
  · rw [hexec, if_pos hdue]
  · obtain ⟨disarmed, reg, logged, -⟩ := s.cpExpire_pairDropped i a
    exact ⟨disarmed, reg a hcp, rfl, logged⟩
  · rw [hexec, if_neg (by omega)]

/-- Settles O8: every refusal and the expiry is one corrected report on a state with the pair disarmed, and no such report writes a
CP register. -/
theorem pairRefusals : Obligations.PairRefusals := ⟨cpRefusalsRules, cpArmExpiresRules⟩

/-! ### Absent addresses (R3, R5, R546) -/

/-- No towpath port and no queue lies from 0x4004_1500 on. -/
theorem instanceAbsent_eq_false (p : Part) {a : Nat} (h : 0x40041500 ≤ a) : instanceAbsent p a = false := by
  have hport : ¬ a < 0x40030400 := by omega
  have hqueue : ¬ a < 0x40041500 := by omega
  simp only [instanceAbsent, hport, hqueue, decide_false, Bool.and_false, Bool.false_and, Bool.or_false]

/-- From 0x404C_0000 on nothing is mapped (R546). -/
theorem rangeOf_above_sdd (p : Part) (i : Initiator) {a : Nat} (h : 0x404C0000 ≤ a) : rangeOf p i a = .unmapped := by
  unfold rangeOf
  repeat rw [if_neg (by omega)]

/-- Between the boot ROM and the tightly coupled RAM nothing is mapped (R546). -/
theorem rangeOf_below_tcm (p : Part) (i : Initiator) {a : Nat} (h1 : 0x10000 ≤ a) (h2 : a < 0x08000000) :
    rangeOf p i a = .unmapped := by
  unfold rangeOf
  repeat rw [if_neg (by omega)]

/-- An address of an AXIS or SDD block is mapped where the ordering code has the block (R3). -/
theorem rangeOf_channel_block (p : Part) (i : Initiator) {a : Nat} (h1 : 0x40100000 ≤ a) (h2 : a < 0x404C0000) :
    rangeOf p i a = if blockPresent p a then .block else .unmapped := by
  unfold rangeOf
  iterate 10 rw [if_neg (by omega)]
  rw [if_pos (by omega)]

/-- An address of an AXIS or SDD block is absent where the ordering code lacks the block (R5). -/
theorem State.absent_channel_block (s : State) (i : Initiator) {a : Nat} (h1 : 0x40100000 ≤ a) (h2 : a < 0x404C0000) :
    s.absent i a = !blockPresent s.part a := by
  rw [State.absent, rangeOf_channel_block _ _ h1 h2, instanceAbsent_eq_false _ (by omega)]
  cases blockPresent s.part a <;> rfl

/-- An unmapped address is absent (R547). -/
theorem State.absent_of_unmapped (s : State) (i : Initiator) {a : Nat} (h : rangeOf s.part i a = .unmapped) :
    s.absent i a = true := by
  simp [State.absent, h]

theorem blockPresent_axis (p : Part) {n o : Nat} (hn : n < 48) (ho : o < 0x10000) :
    blockPresent p (0x40100000 + 0x10000 * n + o) = decide (n < axisCount p) := by
  have hb : (0x40100000 + 0x10000 * n + o) / 0x10000 = 0x4010 + n := by omega
  simp only [blockPresent, hb]
  rw [if_neg (by omega), if_pos (by omega), Nat.add_sub_cancel_left]

theorem blockPresent_sdd (p : Part) {n o : Nat} (hn : n < 12) (ho : o < 0x10000) :
    blockPresent p (0x40400000 + 0x10000 * n + o) = decide (n < sddCount p) := by
  have hb : (0x40400000 + 0x10000 * n + o) / 0x10000 = 0x4040 + n := by omega
  simp only [blockPresent, hb]
  have hlow : 0x4040 ≤ 0x4040 + n := by omega
  have hhigh : 0x4040 + n < 0x404C := by omega
  rw [if_neg (by omega), if_neg (by omega), Nat.add_sub_cancel_left, decide_eq_true hlow, decide_eq_true hhigh, Bool.true_and,
    Bool.true_and]

theorem absentBlockAccessRules : AbsentBlockAccessRules :=
  fun s i a w h => ⟨s.busErr, by simp [exec_absentBlockAccess, execAbsentBlockAccess, h], rfl⟩

theorem absentBlocksRules : AbsentBlocksRules := by
  intro s i n o a ho
  refine ⟨fun hn => ?axis, fun hn => ?sdd, fun h => ?above, fun h1 h2 => ?below⟩
  case axis => rw [s.absent_channel_block i (by omega) (by omega), blockPresent_axis _ hn ho, ← decide_not, decide_eq_true_iff, Nat.not_lt]
  case sdd => rw [s.absent_channel_block i (by omega) (by omega), blockPresent_sdd _ hn ho, ← decide_not, decide_eq_true_iff, Nat.not_lt]
  case above => exact s.absent_of_unmapped i (rangeOf_above_sdd _ _ h)
  case below => exact s.absent_of_unmapped i (rangeOf_below_tcm _ _ h1 h2)

/-- Settles O10: the range of an address decides, and an access to an absent address only answers. -/
theorem absentAddresses : Obligations.AbsentAddresses := ⟨absentBlockAccessRules, absentBlocksRules⟩

end Sys2Proof.Machine
end

section
/-! PROOFS. A read of line time: the lower half answers, the upper half is latched for the reader (R429). -/

namespace Sys2Proof.Machine
open Sys2Proof.Machine.Reg

theorem exec_timeNowLo (i : Initiator) (s : State) : exec (.timeNowLo i) s = execTimeNowLo i s := rfl

/-- The `n` bits of a word from bit `k` on, by arithmetic on its value. -/
theorem extractLsb'_eq_ofNat_div {w : Nat} (x : BitVec w) (k n : Nat) :
    x.extractLsb' k n = BitVec.ofNat n (x.toNat / 2 ^ k) := by
  rw [BitVec.extractLsb', Nat.shiftRight_eq_div_pow]

/-- With NW on, a read of TIME_NOW_LO latches bits 63:32 of line time under the reader's key and answers bits 31:0. -/
theorem State.timeNowLo_eq_of_domOn (s : State) (i : Initiator) (h : s.domOn domNW = true) :
    s.timeNowLo i =
      { s with hiLatch := Tbl.put 0 s.hiLatch (holdKey i TIME_NOW_HI) (s.time.line.extractLsb' 32 32)
               resp := .data (s.time.line.extractLsb' 0 32) } := by
  simp only [extractLsb'_eq_ofNat_div, Nat.pow_zero, Nat.div_one]
  simp only [State.timeNowLo, h, Bool.not_true, Bool.false_eq_true, if_false]
  rfl

/-- Settles O42: the read is one write of the latch table and an answer, so another key of the table and everything that is not
the table stay as they were. -/
theorem timeReads : Obligations.TimeReads := by
  intro s i j hon
  refine ⟨s.timeNowLo i, exec_timeNowLo i s, ?_⟩
  rw [s.timeNowLo_eq_of_domOn i hon]
  refine ⟨rfl, ?latched, fun hj => ?otherLatch, fun _ _ => rfl, fun _ => rfl, rfl⟩
  case latched => exact Tbl.get_put_same 0 s.hiLatch (holdKey i TIME_NOW_HI) _
  case otherLatch => exact Tbl.get_put_other 0 0 s.hiLatch _ hj

end Sys2Proof.Machine
end
